-- ==== Sys2Proof/Word.lean ====
section
/-! DEFINITION. The widths of the KOL-4400: a move carries 32 bits (02 R69), a move address has 22 (02 R68). -/

namespace Sys2Proof

/-- A moved value (02 R69). -/
abbrev Word := BitVec 32

/-- A byte. -/
abbrev Byte := BitVec 8

/-- A move address (02 R68). -/
abbrev Addr := BitVec 22

/-- A sparse table or memory: (index, value) pairs, indices strictly rising, no pair that holds what an unlisted index
reads as. Its operations stand in Sys2Proof/Machine/SMap.lean. With bytes for values it is a list of Host.Cell. -/
abbrev SMap (α : Type) := List (Nat × α)

end Sys2Proof
end

