-- ==== Sys2Proof/Syntax.lean ====
section
/-! DEFINITION. The commands of the KOL-4400 block: one constructor per row of spec/opcode_table.json, with the
operands the model gives each row (the table lists none: notes/assumptions/2.md). -/

namespace Sys2Proof

/-- The master of a move (01 R23); its world is fixed by the same table. -/
inductive Master where
  | boot | house | lp (n : Fin 8) | host | pair | sett
  deriving DecidableEq, Repr

/-- The result groups of the lane-local units (03 R104): a result appears in the order of its group's triggers. -/
inductive ResGroup where
  | bl | ia | imMul | imDiv | cp | fp | macRun | macV | ls
  deriving DecidableEq, Repr

/-- A condition of 09 R355 that L+ has met for its time. -/
inductive SupplyChange where
  | toOk | toLow | toMissing | highOn | highOff
  deriving DecidableEq, Repr

/-- A CAN frame on a channel's bus; `sof` is the field AX0 instant of its start of frame (05 R197, 10 R369). -/
structure CanFrame where
  ext : Bool
  fdf : Bool
  brs : Bool
  esi : Bool
  rtr : Bool
  id : BitVec 29
  len : Nat
  data : List Byte
  sof : BitVec 64
  deriving DecidableEq, Repr

/-- How a transmit attempt ended (10 R377-R382). -/
inductive Attempt where
  | success | lostArbitration | ackError | bitError (afterArbitration : Bool) (lec : BitVec 3) | otherError (lec : BitVec 3)
  deriving DecidableEq, Repr

/-- What an error does to a channel's error counters by ISO 11898-1:2015 (10 R380): that of a receiver, that of a transmitter,
or one that the standard excepts, each with the dominant bits that count 8 more. -/
inductive ErrorStep where
  | receiver (eights : Nat) | transmitter (eights : Nat) | excepted
  deriving DecidableEq, Repr

/-- What one board gave in a rack cycle (11 R397, R398, R404): for each read and each write access, in order, the bytes that came
with its acknowledge or select, on personality D the response frame; none where nothing came within the limit. -/
structure BoardAnswers where
  board : Fin 21
  reads : List (Option (List Byte))
  writes : List (Option (List Byte))
  deriving DecidableEq, Repr

/-- A window of the mailbox board: the fields of its control byte and its N data bytes (11 R411). -/
structure MailboxWindow where
  tog : Bool := false
  ack : Bool := false
  data : List Byte := []
  deriving DecidableEq, Repr

/-- The path of a session stream (11 R415, R418). -/
inductive HostPath where
  | x6 | x6b | mailbox
  deriving DecidableEq, Repr

/-- Session roles (11 R417), each including the ones before it. -/
inductive Role where
  | read | operate | owner
  deriving DecidableEq, Repr

/-- One entry of a move list (11 R422). -/
inductive HostMove where
  | move (src dst : Addr) | lit (value : Word) (dst : Addr) | read (src : Addr) | invalid
  deriving DecidableEq, Repr

/-- KEYGEN sub-operations (13 R478). -/
inductive KeygenReq where
  | generate (slot : Fin 64) (attr0 attr1 : Word)
  | claim (code root : List Byte) (policy : List Word)
  | policy (policy : List Word)
  | keyImport (slot : Fin 64) (attr0 attr1 : Word) (key : List Byte)
  | destroy (slot : Fin 64)
  | release (conf : List Byte)
  | decommission (conf : List Byte)
  | lcReturn (auth : List Word)
  | restore (auth : List Word)
  deriving DecidableEq, Repr

/-- The request a DATA record carries (11 R421). -/
inductive HostReq where
  | status | ident | region (n : Word) | moves (ms : List HostMove) | cover (n : Word) (split runOdd : Bool)
  | lastop | ping | load (forceclr : Bool) | exchange (n : Word) (keeplane forceclr : Bool) | fwstage
  | keygen (k : KeygenReq) | recclr (token : List Byte) | memtest | settdump
  | opdata (bytes : List Byte) | opend (len : Nat) (digest : List Byte) | opcancel | unknown (cmd : BitVec 16)
  deriving DecidableEq, Repr

/-- An event for the recorder (15 R519, R522). -/
structure Event where
  code : BitVec 16
  source : BitVec 8
  sev : BitVec 3
  p0 : Word
  p1 : Word
  p2 : Word
  deriving DecidableEq, Repr

/-- The sources of a module reset (16 R531). -/
inductive ResetSource where
  | powerOn | brownOut | badger | hostCommand | pairCommand | rackReset
  deriving DecidableEq, Repr

/-- The payload of a pair link HEARTBEAT (07 R278). -/
structure PairHeartbeat where
  role : BitVec 2
  pstate : BitVec 3
  mstate : BitVec 2
  prog : BitVec 64
  fw : Word
  proto : BitVec 16
  deriving DecidableEq, Repr

/-- The header of a received pair link frame (07 R277): its SEQ and PTIME, and whether its tag fits. -/
structure LinkHead where
  seq : Word
  ptime : BitVec 64
  tag : Bool
  deriving DecidableEq, Repr

/-- The payload of a FWD (07 R279), its fields separated. -/
structure Fwd where
  lp : Fin 8
  task : Fin 32
  init : Bool
  nw : Nat
  lseq : Word
  ltime : BitVec 64
  ttf : BitVec 64
  axsnap : List (BitVec 64)
  delta : List Word
  deriving DecidableEq, Repr

/-- A command that CMDFWD forwards (07 R278, 16 R536). -/
inductive PairCmd where
  | run (mask : BitVec 8) (cold : Bool) | stop (mask : BitVec 8) | clrhalt (mask : BitVec 8)
  | cover (r : Fin 4) (split runOdd : Bool)
  | ftSet (idx : Fin 1024) (addr : Addr) (val : Word) | ftClr (idx : Fin 1024) | ftClrall | preset
  deriving DecidableEq, Repr

/-- What a STATE message's block belongs to (07 R285). -/
inductive StateSpace where
  | word | marker | output | opX (lane : Fin 8) | opY (lane : Fin 8)
  | force | sinks | ports (lane : Fin 8) | tasks (p : Fin 8) | lpState | region (r : Fin 4) | entries | axes
  | instances (r : Fin 4) | retains
  deriving DecidableEq, Repr

/-- A block of joined state: consecutive words from an index of its space (07 R285). -/
structure StateBlock where
  space : StateSpace
  base : Nat
  words : List Word
  deriving DecidableEq, Repr

/-- The commands: one constructor per row of spec/opcode_table.json. -/
inductive Instr where
  /-- BUNDLE_ISSUE (R25). A lane issues one bundle: it evaluates the guards, reads the sources and writes the destinations in slot order. -/
  | bundleIssue (l : Fin 8)
  /-- LOAD_DELIVERY (R81). A loaded value arrives after the load latency and its destination write takes effect in issue order. -/
  | loadDelivery (l : Fin 8) (k : Nat)
  /-- TRIGGER_WRITE_WAIT (R21). A trigger write whose value came by a load waits until its unit accepts the operation. -/
  | triggerWriteWait (l : Fin 8)
  /-- STORE_PERFORMED (R84). A posted store or shared-port write is performed, releases its in-flight entry and becomes visible. -/
  | storePerformed (l : Fin 8)
  /-- RESULT_APPEARS (R20). An operation's result and flags appear at the unit's result ports after its latency. -/
  | resultAppears (l : Fin 8) (g : ResGroup)
  /-- REGISTER_WRITE (R11). A write to a register with no row of its own sets it under its Access codes, including W1C clears. -/
  | registerWrite (m : Master) (a : Addr) (v : Word)
  /-- CU_JMP (R90). Jump to the bundle address given by the operand with a 2-cycle penalty. -/
  | cuJmp (l : Fin 8) (v : Word)
  /-- CU_JREL (R90). Jump relative to the bundle address by the signed operand. -/
  | cuJrel (l : Fin 8) (v : Word)
  /-- CU_CALL (R92). Check the stack, push a frame of flags and return address, and transfer to the target. -/
  | cuCall (l : Fin 8) (v : Word)
  /-- CU_RET (R94). Check the stack, pop the frame, optionally restore flags and ACC, set BSD and return with a 4-cycle penalty. -/
  | cuRet (l : Fin 8) (v : Word)
  /-- CU_RETI (R316). Return from an interrupt handler, popping the frame and the top level of the level record. -/
  | cuReti (l : Fin 8) (v : Word)
  /-- CU_END (R158). End the task, the start-up routine or an idle-entered handler, closing its window. -/
  | cuEnd (l : Fin 8) (v : Word)
  /-- BL_LD (R108). Bit logic: ACC := operand bit. -/
  | blLd (l : Fin 8) (v : Word)
  /-- BL_LDN (R108). Bit logic: ACC := not operand bit. -/
  | blLdn (l : Fin 8) (v : Word)
  /-- BL_AND (R108). Bit logic: ACC := ACC and operand bit. -/
  | blAnd (l : Fin 8) (v : Word)
  /-- BL_ANDN (R108). Bit logic: ACC := ACC and not operand bit. -/
  | blAndn (l : Fin 8) (v : Word)
  /-- BL_OR (R108). Bit logic: ACC := ACC or operand bit. -/
  | blOr (l : Fin 8) (v : Word)
  /-- BL_ORN (R108). Bit logic: ACC := ACC or not operand bit. -/
  | blOrn (l : Fin 8) (v : Word)
  /-- BL_PUSH (R110). Push ACC onto the branch stack, then load the operand bit. -/
  | blPush (l : Fin 8) (v : Word)
  /-- BL_PUSHN (R110). Push ACC onto the branch stack, then load the inverted operand bit. -/
  | blPushn (l : Fin 8) (v : Word)
  /-- BL_ANB (R110). Pop an entry and AND it into ACC. -/
  | blAnb (l : Fin 8) (v : Word)
  /-- BL_ORB (R110). Pop an entry and OR it into ACC. -/
  | blOrb (l : Fin 8) (v : Word)
  /-- BL_ST (R109). Store ACC to the image bit named by the operand as a unit store. -/
  | blSt (l : Fin 8) (v : Word)
  /-- BL_STN (R109). Store not ACC to the image bit named by the operand. -/
  | blStn (l : Fin 8) (v : Word)
  /-- BL_SET (R108). If ACC = 1, store 1 to the image bit named by the operand. -/
  | blSet (l : Fin 8) (v : Word)
  /-- BL_RST (R108). If ACC = 1, store 0 to the image bit named by the operand. -/
  | blRst (l : Fin 8) (v : Word)
  /-- BL_XOR (R108). Bit logic: ACC := ACC xor operand bit. -/
  | blXor (l : Fin 8) (v : Word)
  /-- IA_ADD (R114). Integer A + B with flags. -/
  | iaAdd (l : Fin 8) (v : Word)
  /-- IA_ADDC (R114). Integer A + B + C, with C taken at issue. -/
  | iaAddc (l : Fin 8) (v : Word)
  /-- IA_SUB (R114). Integer A − B with flags. -/
  | iaSub (l : Fin 8) (v : Word)
  /-- IA_SUBB (R114). Integer A − B − C, with C taken at issue. -/
  | iaSubb (l : Fin 8) (v : Word)
  /-- IA_ADDS (R124). Signed saturating A + B. -/
  | iaAdds (l : Fin 8) (v : Word)
  /-- IA_SUBS (R124). Signed saturating A − B. -/
  | iaSubs (l : Fin 8) (v : Word)
  /-- IA_NEG (R114). 0 − B. -/
  | iaNeg (l : Fin 8) (v : Word)
  /-- IA_NEGS (R124). Signed saturating 0 − B. -/
  | iaNegs (l : Fin 8) (v : Word)
  /-- IA_ABS (R124). Absolute value of B. -/
  | iaAbs (l : Fin 8) (v : Word)
  /-- IA_ABSS (R124). Signed saturating absolute value of B. -/
  | iaAbss (l : Fin 8) (v : Word)
  /-- IA_AND (R112). A and B. -/
  | iaAnd (l : Fin 8) (v : Word)
  /-- IA_OR (R112). A or B. -/
  | iaOr (l : Fin 8) (v : Word)
  /-- IA_XOR (R112). A xor B. -/
  | iaXor (l : Fin 8) (v : Word)
  /-- IA_ANDN (R112). A and not B. -/
  | iaAndn (l : Fin 8) (v : Word)
  /-- IA_NOT (R112). not B. -/
  | iaNot (l : Fin 8) (v : Word)
  /-- IA_MOV (R112). B unchanged, setting flags from B. -/
  | iaMov (l : Fin 8) (v : Word)
  /-- IA_SHL (R113). A shifted left by the trigger operand. -/
  | iaShl (l : Fin 8) (v : Word)
  /-- IA_SHR (R113). A shifted right logically by the trigger operand. -/
  | iaShr (l : Fin 8) (v : Word)
  /-- IA_SAR (R113). A shifted right arithmetically by the trigger operand. -/
  | iaSar (l : Fin 8) (v : Word)
  /-- IA_ROTL (R113). A rotated left by the operand mod 32. -/
  | iaRotl (l : Fin 8) (v : Word)
  /-- IA_ROTR (R113). A rotated right by the operand mod 32. -/
  | iaRotr (l : Fin 8) (v : Word)
  /-- IA_ADD64 (R114). 64-bit A + B. -/
  | iaAdd64 (l : Fin 8) (v : Word)
  /-- IA_SUB64 (R114). 64-bit A − B. -/
  | iaSub64 (l : Fin 8) (v : Word)
  /-- IA_NEG64 (R114). 64-bit 0 − B. -/
  | iaNeg64 (l : Fin 8) (v : Word)
  /-- IA_SHL64 (R113). 64-bit A shifted left. -/
  | iaShl64 (l : Fin 8) (v : Word)
  /-- IA_SHR64 (R113). 64-bit A shifted right logically. -/
  | iaShr64 (l : Fin 8) (v : Word)
  /-- IA_SAR64 (R113). 64-bit A shifted right arithmetically. -/
  | iaSar64 (l : Fin 8) (v : Word)
  /-- IA_ZEXT (R112). ia.r := B and ia.rh := 0. -/
  | iaZext (l : Fin 8) (v : Word)
  /-- IM_MUL (R117). Signed 32 × 32 multiply with 64-bit product. -/
  | imMul (l : Fin 8) (v : Word)
  /-- IM_MULU (R117). Unsigned 32 × 32 multiply with 64-bit product. -/
  | imMulu (l : Fin 8) (v : Word)
  /-- IM_MULS (R124). Signed multiply saturated to 32 bits. -/
  | imMuls (l : Fin 8) (v : Word)
  /-- IM_DIV (R124). Signed divide over 18 cycles with quotient and remainder. -/
  | imDiv (l : Fin 8) (v : Word)
  /-- IM_DIVU (R124). Unsigned divide over 18 cycles. -/
  | imDivu (l : Fin 8) (v : Word)
  /-- CP_CMP (R119). Compare 32-bit integers, setting flags and one-bit results. -/
  | cpCmp (l : Fin 8) (v : Word)
  /-- CP_CMP64 (R119). Compare 64-bit integers. -/
  | cpCmp64 (l : Fin 8) (v : Word)
  /-- CP_CMPF (R119). Compare binary32 values. -/
  | cpCmpf (l : Fin 8) (v : Word)
  /-- CP_CMPD (R119). Compare binary64 values. -/
  | cpCmpd (l : Fin 8) (v : Word)
  /-- CP_TST (R119). Test A and B, setting Z, N and cp.eq. -/
  | cpTst (l : Fin 8) (v : Word)
  /-- FP_FADD (R121). binary32 A + B. -/
  | fpFadd (l : Fin 8) (v : Word)
  /-- FP_FSUB (R121). binary32 A − B. -/
  | fpFsub (l : Fin 8) (v : Word)
  /-- FP_FMUL (R121). binary32 A × B. -/
  | fpFmul (l : Fin 8) (v : Word)
  /-- FP_FDIV (R123). binary32 A ÷ B over 14 cycles. -/
  | fpFdiv (l : Fin 8) (v : Word)
  /-- FP_DADD (R121). binary64 A + B. -/
  | fpDadd (l : Fin 8) (v : Word)
  /-- FP_DSUB (R121). binary64 A − B. -/
  | fpDsub (l : Fin 8) (v : Word)
  /-- FP_DMUL (R121). binary64 A × B. -/
  | fpDmul (l : Fin 8) (v : Word)
  /-- FP_DDIV (R123). binary64 A ÷ B over 14 cycles. -/
  | fpDdiv (l : Fin 8) (v : Word)
  /-- FP_ITOF (R120). Signed 32-bit B to binary32. -/
  | fpItof (l : Fin 8) (v : Word)
  /-- FP_FTOI (R123). binary32 B to signed 32-bit, round to nearest even. -/
  | fpFtoi (l : Fin 8) (v : Word)
  /-- FP_FTRUNC (R123). binary32 B to signed 32-bit toward zero. -/
  | fpFtrunc (l : Fin 8) (v : Word)
  /-- FP_ITOD (R120). Signed 32-bit B to binary64. -/
  | fpItod (l : Fin 8) (v : Word)
  /-- FP_DTOI (R123). binary64 B to signed 32-bit, round to nearest even. -/
  | fpDtoi (l : Fin 8) (v : Word)
  /-- FP_DTRUNC (R123). binary64 B to signed 32-bit toward zero. -/
  | fpDtrunc (l : Fin 8) (v : Word)
  /-- FP_FTOD (R120). binary32 B to binary64. -/
  | fpFtod (l : Fin 8) (v : Word)
  /-- FP_DTOF (R120). binary64 B to binary32. -/
  | fpDtof (l : Fin 8) (v : Word)
  /-- MAC_RUN (R127). Run n products from the X and Y operand memories into the 72-bit accumulator. -/
  | macRun (l : Fin 8) (v : Word)
  /-- MAC_XW (R127). Write X[mac.xa] and advance mac.xa under the window rule. -/
  | macXw (l : Fin 8) (v : Word)
  /-- MAC_YW (R125). Write Y[mac.ya] and advance mac.ya. -/
  | macYw (l : Fin 8) (v : Word)
  /-- MAC_XR (R125). Read X[operand] into mac.v. -/
  | macXr (l : Fin 8) (v : Word)
  /-- MAC_YR (R125). Read Y[operand] into mac.v. -/
  | macYr (l : Fin 8) (v : Word)
  /-- MAC_LDACC (R128). Load the accumulator from mac.ie, mac.ih and the operand. -/
  | macLdacc (l : Fin 8) (v : Word)
  /-- LS_LD (R130). Indexed word load at base + idx + offset, then idx advances. -/
  | lsLd (l : Fin 8) (v : Word)
  /-- LS_ST (R130). Indexed word store at base + idx, then idx advances. -/
  | lsSt (l : Fin 8) (v : Word)
  /-- LS_LDB (R131). Indexed image bit load. -/
  | lsLdb (l : Fin 8) (v : Word)
  /-- LS_STB (R131). Indexed image bit store. -/
  | lsStb (l : Fin 8) (v : Word)
  /-- IU_TON (R136). Evaluate a TON record. -/
  | iuTon (l : Fin 8) (v : Word)
  /-- IU_TOF (R136). Evaluate a TOF record. -/
  | iuTof (l : Fin 8) (v : Word)
  /-- IU_TP (R136). Evaluate a TP record. -/
  | iuTp (l : Fin 8) (v : Word)
  /-- IU_CTU (R137). Evaluate a CTU record. -/
  | iuCtu (l : Fin 8) (v : Word)
  /-- IU_CTD (R137). Evaluate a CTD record. -/
  | iuCtd (l : Fin 8) (v : Word)
  /-- IU_CTUD (R137). Evaluate a CTUD record. -/
  | iuCtud (l : Fin 8) (v : Word)
  /-- IU_RTRIG (R138). Evaluate an R_TRIG record. -/
  | iuRtrig (l : Fin 8) (v : Word)
  /-- IU_FTRIG (R138). Evaluate an F_TRIG record. -/
  | iuFtrig (l : Fin 8) (v : Word)
  /-- IU_CLR (R139). Clear a record of any valid type. -/
  | iuClr (l : Fin 8) (v : Word)
  /-- IU_WRITEBACK (R140). The changed words of an instance record are written back and the results appear 5 cycles after the trigger. -/
  | iuWriteback (l : Fin 8)
  /-- TRAIL_ISSUE (R226). The trail lane issues a bundle 64 cycles after the lead, taking volatile values from the replay FIFO. -/
  | trailIssue (r : Fin 4)
  /-- OWL_VERDICT (R237). The Owl compares lead and trail signatures of a window: a pass, or a mismatch. -/
  | owlVerdict (r : Fin 4)
  /-- PAIRED_TO_SPLIT (R250). At the scan boundary the region becomes split and LP 2n+1 enters its requested state. -/
  | pairedToSplit (r : Fin 4)
  /-- REJOIN (R253). At the scan boundary the split region starts copying lane state towards pairing. -/
  | rejoin (r : Fin 4)
  /-- REJOIN_DONE (R253). The rejoin ends at step 6 with coverage PAIRED, or fails back under R254. -/
  | rejoinDone (r : Fin 4) (verifyOk : Bool) (wrong : List (Bool × Option (Fin 64)))
  /-- EXCHANGE_PREPARED (R259). The exchange preparation finishes and the exchange waits for the next scan boundary. -/
  | exchangePrepared (r : Fin 4)
  /-- HANDOVER (R260). At the scan boundary lane 2n stops and the hand-over copies carried items and WDATA. -/
  | handover (r : Fin 4)
  /-- HANDOVER_DONE (R260). After stall H the bank pointer switches and lane 2n+1 runs LP 2n from the load bank. -/
  | handoverDone (r : Fin 4)
  /-- TASK_TRIGGER (R154). A trigger arrives for a task and sets PEND or counts an overrun. -/
  | taskTrigger (p : Fin 8) (t : Fin 32)
  /-- GAP_EXPIRY (R154). A free-running task's GAP interval ends and the task receives its trigger. -/
  | gapExpiry (p : Fin 8) (t : Fin 32)
  /-- LATCH_START (R156). At a task boundary the sequencer starts the highest-priority pending task's latch from the mirrors. -/
  | latchStart (p : Fin 8)
  /-- LATCH_END (R158). The latch ends, forced inputs are applied and the task-start state is loaded before ENTRY issues. -/
  | latchEnd (p : Fin 8)
  /-- COMMIT_START (R158). Once every store is performed and, if paired, the Owl has passed, the commit starts. -/
  | commitStart (p : Fin 8)
  /-- COMMIT_END (R158). The commit ends, outputs go to their sinks and staged items are released. -/
  | commitEnd (p : Fin 8)
  /-- MAXRUN_EXPIRY (R160). A task or routine not ended after MAXRUN cycles halts its LP with cause TIME. -/
  | maxrunExpiry (p : Fin 8)
  /-- STARTUP_END (R163). The start-up routine ends once its stores are performed and its window has passed, and releases its staged items. -/
  | startupEnd (p : Fin 8)
  /-- RUN (R165). sq.cmd RUN moves the named LPs from STOP to RUN, optionally with a cold start. -/
  | run (m : Master) (mask : BitVec 8) (cold : Bool)
  /-- STOP (R165). sq.cmd STOP requests the named LPs to enter STOP. -/
  | stop (m : Master) (mask : BitVec 8)
  /-- CLRHALT (R165). sq.cmd CLRHALT moves the named LPs from HALT to STOP and reloads retentive blocks. -/
  | clrhalt (m : Master) (mask : BitVec 8)
  /-- FT_SET (R175). Write and enable force entry ft.idx, or refuse it with REJ. -/
  | ftSet (m : Master) (v : Word)
  /-- FT_CLR (R174). Disable force entry ft.idx. -/
  | ftClr (m : Master) (v : Word)
  /-- FT_CLRALL (R174). Disable every force entry. -/
  | ftClrall (m : Master) (v : Word)
  /-- FT_RD (R174). Read force entry ft.idx into ft.raddr and ft.rval. -/
  | ftRd (m : Master) (v : Word)
  /-- MR_RD (R185). Read the selected mirror word into mr.v. -/
  | mrRd (m : Master) (v : Word)
  /-- MR_DI_READ (R186). A read of mr.di latches mr.tsl, mr.tsh and mr.fseq for the master. -/
  | mrDiRead (m : Master)
  /-- SQ_RWL_READ (R181). A read of sq.rwl latches sq.rwh for the master. -/
  | sqRwlRead (m : Master)
  /-- ENCODER_EDGE (R199). A counted A/B edge on an encoder axis updates position and velocity estimate; x = 0 to 3 names AX1
  to AX4. -/
  | encoderEdge (x : Fin 4) (a : Bool) (b : Bool)
  /-- HOME (R195). A rising Z edge with a home pending sets POS and MPOS and clears HOMEP and REFLOST; x = 0 to 3 names
  AX1 to AX4. -/
  | home (x : Fin 4)
  /-- SYNC_CROSSING (R196). A SYNC zero crossing is timestamped and corrects the AX5 phase by velocity adjustment. -/
  | syncCrossing (rising : Bool)
  /-- AXIS_STALE (R202). An axis loses its source and becomes STALE, extrapolating with its last velocity. -/
  | axisStale (x : Fin 8)
  /-- AXIS_FROZEN (R203). After E without recovery a STALE axis becomes FROZEN. -/
  | axisFrozen (x : Fin 8)
  /-- ACTION_NONE (R210). An entry with action NONE fires and only reports. -/
  | actionNone (e : Fin 4096)
  /-- ACTION_SET (R210). An entry fires and drives its Placed channel on. -/
  | actionSet (e : Fin 4096)
  /-- ACTION_CLEAR (R210). An entry fires and drives its Placed channel off. -/
  | actionClear (e : Fin 4096)
  /-- ACTION_TOGGLE (R210). An entry fires and inverts its Placed channel. -/
  | actionToggle (e : Fin 4096)
  /-- ACTION_SNAP (R210). An entry fires and samples the selected input groups into VAL. -/
  | actionSnap (e : Fin 4096)
  /-- ACTION_LATCH (R210). An entry fires and copies a fast counter into VAL. -/
  | actionLatch (e : Fin 4096)
  /-- ACTION_TASK (R210). An entry fires to trigger the tasks that name it. -/
  | actionTask (e : Fin 4096)
  /-- ACTION_BUSTX (R210). An entry fires and makes a send request for a transmit buffer. -/
  | actionBustx (e : Fin 4096)
  /-- PT_WR (R223). Stage a write of entry pt.idx, or refuse it with REJC. -/
  | ptWr (m : Master) (v : Word)
  /-- PT_DIS (R223). Stage a disable of entry pt.idx. -/
  | ptDis (m : Master) (v : Word)
  /-- PT_PRESET (R223). Stage an axis preset. -/
  | ptPreset (m : Master) (v : Word)
  /-- PT_HOME (R223). Stage an axis home request. -/
  | ptHome (m : Master) (v : Word)
  /-- PT_RD (R223). Read the host-side record of entry pt.idx. -/
  | ptRd (m : Master) (v : Word)
  /-- SCHED_ENTRY_WRITE (R216). An applied write record arms the entry or fires it late. -/
  | schedEntryWrite
  /-- SCHED_ENTRY_DISABLE (R214). An applied disable record sets DIR to 0b00. -/
  | schedEntryDisable
  /-- SCHED_PRESET (R214). An applied preset record sets POS and MPOS and clears REFLOST. -/
  | schedPreset
  /-- SCHED_HOME (R195). An applied home record holds a pending home request. -/
  | schedHome
  /-- IRQ_ARRIVAL (R304). An event of a source increments its arrival counter or sets ASAT. -/
  | irqArrival (q : Fin 256)
  /-- HANDLER_DELIVERY (R312). A deliverable HANDLER-mode source is entered at an entry point, pushing a frame and loading the vector. -/
  | handlerDelivery (t : Fin 9)
  /-- TASK_DELIVERY (R310). A TASK-mode source with CNT > 0 is delivered to the sequencer and triggers its tasks. -/
  | taskDelivery (q : Fin 256)
  /-- IC_CFG (R305). A write of ic.cfg changes the selected source's configuration, subject to ACTIVE and world rules. -/
  | icCfg (m : Master) (v : Word)
  /-- IC_DONE (R318). Complete an ACTIVE source, or count a completion error. -/
  | icDone (m : Master) (v : Word)
  /-- IC_RAISE (R324). Raise one arrival of a software source. -/
  | icRaise (m : Master) (v : Word)
  /-- IC_CLR (R324). Clear CNT and ASAT of a source. -/
  | icClr (m : Master) (v : Word)
  /-- IC_HOLD (R320). Set or clear the global delivery hold. -/
  | icHold (m : Master) (v : Word)
  /-- BARRIER_CYCLE_START (R327). At each barrier cycle start the host domain builds and sends one host frame. -/
  | barrierCycleStart
  /-- FIELD_CYCLE_START (R327). At each barrier cycle start the field die samples its inputs and sends one field frame. -/
  | fieldCycleStart (mv lo rb : BitVec 16)
  /-- HOST_FRAME_ACCEPT (R330). The field die accepts or discards a host frame and restarts its safe-state timer. -/
  | hostFrameAccept (noise : List Byte)
  /-- FIELD_FRAME_ACCEPT (R330). The host domain accepts or discards a field frame and raises FFRAME. -/
  | fieldFrameAccept (noise : List Byte)
  /-- HEARTBEAT (R332). The field die takes module state, role and AX0 alignment from HEARTBEAT. -/
  | heartbeat
  /-- OUT_IMAGE (R333). The field die applies output values, per-channel commands and any new request. -/
  | outImage
  /-- CFG_WRITE (R335). The field die collects configuration blocks and, at COMMIT, checks and applies them or reports CFGERR. -/
  | cfgWrite
  /-- SCHED_WRITE (R214). The field die takes the position event table records of a host frame. -/
  | schedWrite
  /-- BUS_TX (R376). The field die takes buffer contents, send requests, station outputs and commands. -/
  | busTx
  /-- IN_IMAGE (R337). The host domain updates the input mirror, counters and CARRY arrivals from IN_IMAGE. -/
  | inImage
  /-- SUPPLY (R339). The host domain takes the L+ state and raises SUPPLY on a change. -/
  | supply
  /-- AXIS_STATE (R207). The host domain updates the axis mirrors. -/
  | axisState
  /-- DIAG (R340). The host domain records diagnosis entries and checks the loopback pattern. -/
  | diag
  /-- SCHED_FIRED (R221). The host domain accepts fire notes, triggers TASK notes and updates the host-side records. -/
  | schedFired
  /-- BUS_RX_NOTE (R372). The host domain applies object, status and completion records to the field bus mirror. -/
  | busRxNote
  /-- SAFE_STATE_TIMEOUT (R342). With no accepted host frame for SSTO the field die applies safe values and sets SAFEACT. -/
  | safeStateTimeout
  /-- FLOST (R185). No accepted field frame within the safe-state timeout sets FLOST and raises FLOSTCH. -/
  | flost
  /-- FIELD_DIE_RESET (R344). L+ below 9 V or power-up resets the field die, which switches off, clears its table and loads its stored configuration. -/
  | fieldDieReset (up : Bool)
  /-- SUPPLY_TRANSITION (R355). L+ meets a condition for its time and the supply state or HIGH flag changes. -/
  | supplyTransition (c : SupplyChange)
  /-- LATCH_OFF (R350). A channel or group in current limit for SCT, or at overtemperature, latches off and reports SHORT. -/
  | latchOff (d : Fin 16) (overtemp : Bool)
  /-- DIAGNOSTIC_SLOT (R346). In each diagnostic slot the open-wire and open-load evaluations take place. -/
  | diagnosticSlot (lowCurrent : BitVec 32) (openBand high : BitVec 16)
  /-- EXTDRV (R353). An off channel's pin at 10 V or more for 100 µs sets EXTDRV. -/
  | extdrv (d : Fin 16)
  /-- FILTER_CHANGE (R347). A standard input's filtered state takes a new level after the raw level holds for the filter count. -/
  | filterChange (i : Fin 32) (level : Bool)
  /-- FAST_COUNTER_EDGE (R349). A selected edge on DIk advances fast counter k and may wrap it. -/
  | fastCounterEdge (k : Fin 12) (rising : Bool)
  /-- FD_RST (R359). Stage output restart bits. -/
  | fdRst (m : Master) (v : Word)
  /-- FD_CRST (R359). Stage fast counter reset bits. -/
  | fdCrst (m : Master) (v : Word)
  /-- FD_DCLR (R359). Stage WIRED_TOGETHER clear bits. -/
  | fdDclr (m : Master) (v : Word)
  /-- FD_DRD (R358). Read the selected channel state into fd.dv. -/
  | fdDrd (m : Master) (v : Word)
  /-- CAN_FRAME_RECEIVE (R369). A channel stores an error-free received frame in its receive object. -/
  | canFrameReceive (c : Fin 2) (fr : CanFrame)
  /-- ARBITRATION_START (R378). At a start of arbitration the channel offers one frame from the buffers and the station engine. -/
  | arbitrationStart (c : Fin 2)
  /-- ATTEMPT_END (R377). A transmit attempt ends in success, failure or lost arbitration and the buffer state advances. -/
  | attemptEnd (c : Fin 2) (res : Attempt)
  /-- BUS_OFF_RECOVERY_END (R380). The bus-off recovery sequence completes and FB_RECOVERED is recorded. -/
  | busOffRecoveryEnd (c : Fin 2)
  /-- STUCK (R383). The bus reads dominant for 1 ms without a valid bit sequence. -/
  | stuck (c : Fin 2)
  /-- STATION_REQUEST (R388). At each station cycle instant the engine requests the output frame and judges the ended window's STS. -/
  | stationRequest (c : Fin 2) (st : Fin 64)
  /-- STATUS_RECORD_PERIODIC (R384). A channel status record is sent at least every 100 ms. -/
  | statusRecordPeriodic (c : Fin 2)
  /-- FB_ACK (R395). Clear ND or LOST of a mirror object. -/
  | fbAck (m : Master) (v : Word)
  /-- FB_TXREQ (R376). Stage a send request for the selected transmit buffer. -/
  | fbTxreq (m : Master) (v : Word)
  /-- FB_SPUT (R388). Stage the output data of the selected station. -/
  | fbSput (m : Master) (v : Word)
  /-- RECOVER (R380). Start bus-off recovery on a channel. -/
  | recover (c : Fin 2)
  /-- CLRST (R395). Clear ID_CLASH and CLASHID of a channel. -/
  | clrst (c : Fin 2)
  /-- CLRCNT (R384). Clear the counters of a channel's status record. -/
  | clrcnt (c : Fin 2)
  /-- RACK_CYCLE (R403). A rack cycle starts with the output snapshot and the input phases of every bus. -/
  | rackCycle
  /-- RACK_INPUT_PHASE_END (R403). The later input phase ends, the rack mirror is updated and RACKCYC is raised. -/
  | rackInputPhaseEnd (boards : List BoardAnswers) (ns : Nat)
  /-- IDENTITY_PROBE (R405). A board's identity is probed and its status set. -/
  | identityProbe (b : Fin 21) (answer : Option (List Byte))
  /-- RIRQ_ARRIVAL (R409). An enabled legacy interrupt line asserts after being released. -/
  | rirqArrival (n : Fin 8) (lines : BitVec 9)
  /-- RACK_RESET (R410). RESET asserted for 1 ms with RSTIN = 1 resets the module. -/
  | rackReset
  /-- RESCAN (R405). Probe every enabled board. -/
  | rescan
  /-- RRESET (R410). Assert the rack RESET line for the given time. -/
  | rreset (ms : BitVec 8)
  /-- RRESET_END (R410). The RRESET time passes and the line is released. -/
  | rresetEnd
  /-- LINK_LOCAL_FALLBACK (R414). No DHCP answer within 10 s makes the port use link-local addressing. -/
  | linkLocalFallback (pt : Fin 2) (ip : Word)
  /-- HELLO_H (R416). A host opens a session; the module replies HELLO_M. -/
  | helloH (path : HostPath) (ver : BitVec 8) (role : Role) (ident : List Byte) (key : List Byte) (nonce : List Byte)
  /-- FIN_H (R477). The module checks admission and signature, agrees keys and sends FIN_M or an ALERT. -/
  | finH (i : Fin 4) (sig : List Byte)
  /-- HANDSHAKE_TIMEOUT (R416). A session not open within 5 s is closed with ALERT. -/
  | handshakeTimeout (i : Fin 4)
  /-- DATA (R415). A DATA record is authenticated and its request executed, or the session is closed. -/
  | hostData (i : Fin 4) (seq : Word) (intact : Bool) (tag : BitVec 16) (req : HostReq)
  /-- SESSION_TIMEOUT (R417). No DATA from the host for 60 s closes the session with ALERT 0x05. -/
  | sessionTimeout (i : Fin 4)
  /-- SESSION_CLOSE (R426). A session closes, aborting an operation in its transfer phase. -/
  | sessionClose (i : Fin 4)
  /-- SESSION_REKEY (R482). Host and pair link sessions are re-established every 24 h. -/
  | sessionRekey
  /-- STATUS (R421). Return the status words. -/
  | hostStatus (i : Fin 4) (tag : BitVec 16)
  /-- IDENT (R423). Return the identity record. -/
  | hostIdent (i : Fin 4) (tag : BitVec 16)
  /-- REGION (R421). Return a region status record. -/
  | hostRegion (i : Fin 4) (tag : BitVec 16) (n : Word)
  /-- MOVES (R422). Execute a move list in the HOST world and return the read values. -/
  | hostMoves (i : Fin 4) (tag : BitVec 16) (ms : List HostMove)
  /-- COVER (R249). Request a coverage change of a region, or refuse it. -/
  | cover (i : Fin 4) (tag : BitVec 16) (n : Word) (split : Bool) (runOdd : Bool)
  /-- LASTOP (R421). Return CMD and final status of the latest long operation. -/
  | lastop (i : Fin 4) (tag : BitVec 16)
  /-- PING (R421). Reply with no payload. -/
  | ping (i : Fin 4) (tag : BitVec 16)
  /-- LOAD (R170). Start a full program load into the free bank. -/
  | hostLoad (i : Fin 4) (tag : BitVec 16) (forceclr : Bool)
  /-- LOAD_COMPLETE (R170). The image is checked, the bank switched, the program set up and the final reply sent. -/
  | loadComplete
  /-- EXCHANGE (R257). Start an online program exchange for a region, or refuse it. -/
  | exchange (i : Fin 4) (tag : BitVec 16) (n : Word) (keeplane : Bool) (forceclr : Bool)
  /-- FWSTAGE (R543). Start staging a firmware manifest and delta. -/
  | fwstage (i : Fin 4) (tag : BitVec 16)
  /-- HOST_COMMAND_RESET (R537). After a zero-length FWSTAGE reply the module resets with source host command. -/
  | hostCommandReset
  /-- RECCLR (R529). Clear the event record area with a valid token. -/
  | recclr (i : Fin 4) (tag : BitVec 16) (token : List Byte)
  /-- MEMTEST (R424). Test the free program bank and the staging area. -/
  | memtest (i : Fin 4) (tag : BitVec 16)
  /-- SETTDUMP (R424). Read the Sett audit trail by READ commands. -/
  | settdump (i : Fin 4) (tag : BitVec 16)
  /-- OPDATA (R421). Transfer data of a long operation, or return the next audit chunk. -/
  | opdata (i : Fin 4) (tag : BitVec 16) (bytes : List Byte)
  /-- OPEND (R424). End the transfer phase, checking length and SM3. -/
  | opend (i : Fin 4) (tag : BitVec 16) (len : Nat) (digest : List Byte)
  /-- OPCANCEL (R426). Cancel the long operation in its transfer phase. -/
  | opcancel (i : Fin 4) (tag : BitVec 16)
  /-- LONG_OP_COMPLETE (R426). A long operation without transfer finishes, sets LASTOP and records HOST_OP. -/
  | longOpComplete (found : Nat)
  /-- KEYGEN_GENERATE (R478). Generate a key in K4 or a general slot. -/
  | keygenGenerate (i : Fin 4) (tag : BitVec 16) (slot : Fin 64) (attr0 : Word) (attr1 : Word)
  /-- CLAIM (R478). Claim the module with claim code, owner root key and policy. -/
  | claim (i : Fin 4) (tag : BitVec 16) (code : List Byte) (root : List Byte) (policy : List Word)
  /-- POLICY (R476). Install a new owner policy. -/
  | policy (i : Fin 4) (tag : BitVec 16) (policy : List Word)
  /-- IMPORT (R478). Import a public key into a slot. -/
  | keyImport (i : Fin 4) (tag : BitVec 16) (slot : Fin 64) (attr0 : Word) (attr1 : Word) (key : List Byte)
  /-- KEYGEN_DESTROY (R478). Destroy a slot K4–K63. -/
  | keygenDestroy (i : Fin 4) (tag : BitVec 16) (slot : Fin 64)
  /-- RELEASE (R478). Return the module from OWNED to PROVISIONED. -/
  | release (i : Fin 4) (tag : BitVec 16) (conf : List Byte)
  /-- DECOMMISSION (R478). Move the module from OWNED to DECOMMISSIONED. -/
  | decommission (i : Fin 4) (tag : BitVec 16) (conf : List Byte)
  /-- RETURN (R478). Move the module to RETURN under a vendor authorization. -/
  | lcReturn (i : Fin 4) (tag : BitVec 16) (auth : List Word)
  /-- RESTORE (R478). Move the module from RETURN to PROVISIONED. -/
  | restore (i : Fin 4) (tag : BitVec 16) (auth : List Word)
  /-- LC_TRANSITION (R459). A lifecycle transition destroys slots, writes state and TCNT, wipes memory where required and records LC_TRANSITION. -/
  | lcTransition (readBack : Bool)
  /-- INFO (R466). Return the attributes of a slot. -/
  | info (m : Master)
  /-- SIGN (R466). Sign a digest with an SM2 key. -/
  | sign (m : Master)
  /-- VERIFY (R466). Verify an SM2 signature. -/
  | verify (m : Master)
  /-- READPUB (R466). Return the public half of an SM2 key. -/
  | readpub (m : Master)
  /-- GENERATE (R463). Create a new key in a general slot. -/
  | generate (m : Master)
  /-- DERIVE (R467). Derive a child key by KDF. -/
  | derive (m : Master)
  /-- AGREE (R467). Agree a child key with a peer public key. -/
  | agree (m : Master)
  /-- ENCRYPT (R466). SM4-GCM encrypt. -/
  | encrypt (m : Master)
  /-- DECRYPT (R466). SM4-GCM decrypt and check the tag. -/
  | decrypt (m : Master)
  /-- MAC (R466). Compute an SM3-HMAC. -/
  | ksMac (m : Master)
  /-- DESTROY (R470). Destroy a slot and its descendants. -/
  | destroy (m : Master)
  /-- ATTEST (R475). Return a signed attestation report. -/
  | attest (m : Master)
  /-- HASH (R466). Compute an SM3 digest. -/
  | hash (m : Master)
  /-- KS_OP_COMPLETE (R468). A key store operation finishes, writes its output and status, and the next waiting one starts. -/
  | ksOpComplete (readBack : Bool)
  /-- KS_BW (R487). Write an input buffer word and advance the index. -/
  | ksBw (m : Master) (v : Word)
  /-- KS_BR (R487). Read an output buffer word into ks.bv and advance the index. -/
  | ksBr (m : Master) (v : Word)
  /-- SETT_CYCLE (R432). At each 1 ms Sett cycle the Sett die sends SETT_STATUS and TOTALS. -/
  | settCycle (intact : Bool)
  /-- SETT_FRAME_ACCEPT (R432). The host domain updates the Sett mirror, takes replies and raises SFRAME. -/
  | settFrameAccept (intact : Bool)
  /-- SLOST (R432). No accepted Sett frame for 10 ms sets SLOST. -/
  | slost
  /-- ST_CMD (R454). Stage a Sett command for the master, or refuse it. -/
  | stCmd (m : Master) (v : Word)
  /-- ST_RRD (R452). Read the selected reply data word into st.rv. -/
  | stRrd (m : Master) (v : Word)
  /-- NOREPLY (R454). A sent Sett command without reply for 20 ms completes with NOREPLY. -/
  | noreply (m : Master)
  /-- SETT_START (R438). Start a batch on a Sett channel. -/
  | settStart
  /-- SETT_STOP (R438). Stop the batch on a Sett channel. -/
  | settStop
  /-- SETT_READ (R450). Return one audit entry. -/
  | settRead
  /-- SETT_VERIFY (R450). Start recomputing the check code with a signed reply. -/
  | settVerify
  /-- SETT_VERIFY_DONE (R450). The VERIFY finishes within 50 ms and its signed reply is sent. -/
  | settVerifyDone
  /-- SINGLE_PULSE (R434). A rising edge on a single channel adds one forward pulse. -/
  | singlePulse (m : Fin 4)
  /-- DUAL_A_EDGE (R435). A rising A edge of a dual channel adds a pulse or counts a reverse pulse. -/
  | dualAEdge (q : Fin 2) (other : Bool) (t : Nat)
  /-- DUAL_B_EDGE (R435). A rising B edge checks the phase and the A–B difference. -/
  | dualBEdge (q : Fin 2) (other : Bool) (t : Nat)
  /-- RATE_GATE_END (R437). At each gate end FRATE, REVF and OVRATE are computed. -/
  | rateGateEnd (m : Fin 4)
  /-- NV_SLOT_WRITE (R439). Changed Sett channel state is written to the next storage slot. -/
  | nvSlotWrite
  /-- SETT_SUPPLY_LOSS (R439). The Sett supply falls, metering stops, a final slot is written and Sett halts. -/
  | settSupplyLoss
  /-- SETT_RESET (R441). Sett restores its state, verifies its firmware and enters METER, SERVICE or FAULT. -/
  | settReset (slotOk : Bool) (fwOk : Bool)
  /-- SEAL_CHANGE (R442). The seal jumper debounces to closed or open. -/
  | sealChange (closed : Bool)
  /-- SERVICE_READ (R443). Service port: return a parameter value. -/
  | serviceRead (frame : List Byte)
  /-- SERVICE_WRITE (R445). Service port: write a parameter with an audit entry, or refuse it. -/
  | serviceWrite (frame : List Byte) (auditOk : Bool)
  /-- SERVICE_STATUS (R443). Service port: return mirror word 0. -/
  | serviceStatus (frame : List Byte)
  /-- BD_ANS (R495). A service of the Badger is judged correct or a failure. -/
  | bdAns (m : Master) (v : Word)
  /-- BD_CHK (R497). A task checks in a Badger bit, setting CHK or DUP. -/
  | bdChk (m : Master) (v : Word)
  /-- BD_START (R489). Start the Badger under software start. -/
  | bdStart (m : Master) (v : Word)
  /-- BD_CONFIG_WRITE (R500). A Badger configuration write is accepted or refused with CFGREJ. -/
  | bdConfigWrite (m : Master) (a : Addr) (v : Word)
  /-- BADGER_OPEN (R492). The count reaches O, the window opens and source 0x14 arrives. -/
  | badgerOpen
  /-- BADGER_EXPIRY (R499). The count reaches P with no correct service: a LATE failure. -/
  | badgerExpiry
  /-- BADGER_ACTION (R499). After the record the Badger takes its reset or relinquish action. -/
  | badgerAction
  /-- RT_SNAP (R513). Latch the calendar snapshot for the master. -/
  | rtSnap (m : Master) (v : Word)
  /-- RT_SET (R511). Set the time, or reject it with DATE_REJ. -/
  | rtSet (m : Master) (v : Word)
  /-- ALARM_WRITE (R515). An alarm write is taken, or ignored whole with DATE_REJ. -/
  | alarmWrite (m : Master) (a : Addr) (v : Word)
  /-- SECOND_INCREMENT (R509). The clock advances one second and the alarms compare. -/
  | secondIncrement
  /-- SWITCH_TO_BACKUP (R507). VRTC switches to backup, setting ONBK and BKEV. -/
  | switchToBackup (vmain vcell vbak : Nat)
  /-- RETURN_TO_MAIN (R507). VRTC returns to main, clearing ONBK. -/
  | returnToMain (vmain vcell vbak : Nat)
  /-- CLOCK_DOMAIN_RESET (R508). VRTC below 1.6 V resets the clock to 2000-01-01 with TIME_INVALID. -/
  | clockDomainReset
  /-- EVENT_OCCURRENCE (R522). An event enters the recorder queue, or is dropped when the queue is full. -/
  | eventOccurrence (e : Event)
  /-- RECORD_WRITE (R522). The recorder writes the head entry as a new record or a repeat update. -/
  | recordWrite
  /-- RATE_WINDOW_END (R524). At a rate window end a RATE_SUMMARY is written for suppressed events. -/
  | rateWindowEnd
  /-- ER_RD (R526). Read a record word into er.v. -/
  | erRd (m : Master) (v : Word)
  /-- ER_FIND (R526). Find the slot of the record from a sequence number. -/
  | erFind (m : Master) (v : Word)
  /-- ER_LOG (R527). Queue a user record. -/
  | erLog (m : Master) (v : Word)
  /-- MODULE_RESET (R532). A module reset stops the logic die and runs the boot sequence. -/
  | moduleReset (src : ResetSource) (ms : Nat) (wrong : List (Fin 4 × Bool × Option (Fin 64)))
  /-- POWER_ON (R531). The host supply rises from below its power-on level. -/
  | powerOn
  /-- BROWN_OUT (R553). The hold-up node falls below the reset level. -/
  | brownOut
  /-- PRESET (R536). A PRESET received as STANDBY in UNSYNC resets the module. -/
  | preset
  /-- PARTNER_HALT_TIMEOUT (R536). The partner shows HALT for 60 s and the active sends PRESET once. -/
  | partnerHaltTimeout
  /-- TOKEN_LINE_SENSED (R271). A level on the control-token line stable for 2 µs is sensed. -/
  | tokenLineSensed (asserted : Bool)
  /-- TOKEN_ACQUIRE (R272). After the line stays released for its wait period the module asserts it and RUN takes effect. -/
  | tokenAcquire
  /-- TOKEN_STUCK (R274). 10 µs after RELINQUISH with the line still asserted the standby takes over. -/
  | tokenStuck
  /-- RELINQUISH_CAUSE (R291). The active detects a relinquish cause, sends RELINQUISH and releases the line. -/
  | relinquishCause (rc : BitVec 4)
  /-- PARTNER_DRIVE_TIMEOUT (R291). 1 ms after release without the new token shared channels take safe values. -/
  | partnerDriveTimeout
  /-- RELINQUISH (R293). The standby receives RELINQUISH and takes over. -/
  | relinquish (rc : BitVec 8) (lseq : List Word) (hd : LinkHead)
  /-- PAIR_LINK_HEARTBEAT (R278). A pair link HEARTBEAT is sent every 100 µs and received. -/
  | pairLinkHeartbeat (hb : PairHeartbeat) (hd : LinkHead)
  /-- FWD (R280). The standby latches a task from forwarded inputs. -/
  | fwd (w : Fwd) (hd : LinkHead)
  /-- IARR (R280). The standby enters an interrupt at the forwarded bundle position. -/
  | iarr (p : Fin 8) (lseq : Word) (bcnt : Option Word) (q : Fin 256) (hd : LinkHead)
  /-- OSIG (R282). The standby compares its output signature and on a difference enters UNSYNC. -/
  | osig (p : Fin 8) (lseq : Word) (sig : BitVec 64) (hd : LinkHead)
  /-- CMDFWD (R280). The standby applies a forwarded command at its LSEQ. -/
  | cmdfwd (cmd : PairCmd) (lseq : List Word) (hd : LinkHead)
  /-- STATE (R285). The standby takes a block of joined state. -/
  | pairState (blk : StateBlock) (hd : LinkHead)
  /-- HEALTH (R287). A HEALTH report is sent every 10 ms and taken by the active. -/
  | health (h : List Word) (hd : LinkHead)
  /-- HEALTH_UPDATE (R288). The health word is recomputed every 10 ms. -/
  | healthUpdate
  /-- JOINREQ (R297). The active accepts or refuses a join request. -/
  | joinreq (sm3 : List Byte) (fw : Word) (proto : BitVec 16) (ready : Bool) (hd : LinkHead)
  /-- JOINACK (R285). The join starts dirty tracking and the bulk copy. -/
  | joinack (refused : BitVec 8) (hd : LinkHead)
  /-- CATCHUP_ROUND (R285). A catch-up round sends the dirtied blocks or starts the final hold. -/
  | catchupRound (dirtyBytes : Nat)
  /-- JOIN_COMPLETE (R285). The final state is sent and the standby enters SYNC. -/
  | joinComplete
  /-- JOIN_RETRY (R284). 10 s after a failed join the join starts again. -/
  | joinRetry
  /-- PAIR_LINK_LOSS (R276). No valid frame for 500 µs loses the link and the standby enters UNSYNC. -/
  | pairLinkLoss
  /-- STANDBY_LAG_TIMEOUT (R280). A standby latch more than 2 ms behind puts the standby in UNSYNC. -/
  | standbyLagTimeout
  /-- SWITCHOVER (R299). Hand control to the partner, with state transfer when it is READY. -/
  | switchover (m : Master)
  /-- DESYNC (R302). The standby enters UNSYNC and STOP. -/
  | desync (m : Master)
  /-- JOIN (R284). The standby starts a join. -/
  | join (m : Master)
  /-- PL_HL_READ (R300). A read of pl.hl latches pl.hh for the master. -/
  | plHlRead (m : Master)
  /-- PL_PHL_READ (R300). A read of pl.phl latches pl.phh for the master. -/
  | plPhlRead (m : Master)
  /-- PAIR_LINK_START (R482). At link start, and again after a link loss, the pair link session key exchange completes and the link comes up. -/
  | pairLinkStart (eph nonce sig : List Byte)
  /-- PAIR_LINK_LANE_CHANGE (R276). One pair link lane fails or returns, and the link runs on the other lane at half the payload rate. -/
  | pairLinkLaneChange (n : Fin 2) (up : Bool)
  /-- MEMORY_SCRUB (R287). The standby scrub reads, checks and corrects MRAM and logic die SRAM, and clears MRAMOK on an uncorrectable error. -/
  | memoryScrub (corrected : Nat) (uncorrectable : Bool)
  /-- LANE_BIST (R287). A 2,048-cycle lane BIST slice runs in a region's idle time and yields to a latch. -/
  | laneBist (r : Fin 4) (pass : Bool)
  /-- OWL_TEST_IDLE_SLOT (R287). In STANDBY one Owl test window of R245 runs per idle slot. -/
  | owlTestIdleSlot (r : Fin 4) (pass : Bool)
  /-- REARM_BY_HYSTERESIS (R211). At a tick evaluation an entry's ARMF or ARMR re-arms when the axis has left the hysteresis band, without any fire. -/
  | rearmByHysteresis (x : Fin 8)
  /-- EXTDRV_CLEAR (R353). EXTDRV clears when the pin reads below 10 V for 100 µs. -/
  | extdrvClear (d : Fin 16)
  /-- ERROR_FRAME (R383). A channel detects a bus error or receives an error frame, increments ERRF and its error counters, and may change its error state. -/
  | errorFrame (c : Fin 2) (lec : BitVec 3) (step : ErrorStep)
  /-- RECESSIVE_IDLE_PERIOD (R383). The first recessive idle period of 11 bits clears STUCK. -/
  | recessiveIdlePeriod (c : Fin 2)
  /-- ETHERNET_LINK_CHANGE (R414). The link on X6 or X6B comes up or goes down, changing LNK0 or LNK1. -/
  | ethernetLinkChange (pt : Fin 2) (up : Bool)
  /-- DHCP_ANSWER (R414). A DHCP server answers and the port takes its IPv4 address. -/
  | dhcpAnswer (pt : Fin 2) (ip : Word)
  /-- COMPACTION (R180). The sequencer compacts the retentive log in the background, adding physical writes to sq.rwl and sq.rrate, and RWEAR clears when sq.rrate falls to the limit. -/
  | compaction (words : Nat)
  deriving DecidableEq, Repr

end Sys2Proof
end

