-- ==== Sys2Proof/Decode.lean ====
section
/-! DEFINITION. The commands that a word spells by the opcode table's bits. The table gives bits for no row, so no
word spells a command (notes/assumptions/2.md). -/

namespace Sys2Proof

/-- The command that the table's bits give for a word: none, for the table has no bits. -/
def decodeTableWord (_nbits _w : Nat) : Option Instr := none

end Sys2Proof
end

