-- ==== Sys2Proof/Config.lean ====
section
/-! DEFINITION. What one module fixes for its life, and the free values: constants without a body, so that a claim
holds whatever they are (the assumption log names each). -/

namespace Sys2Proof

/-- The three variants (00 R2). -/
inductive Variant where
  | k4410 | k4420 | k4440
  deriving DecidableEq, Repr, Inhabited

namespace Config

/-- The module's variant. -/
opaque variant : Variant
/-- A value the spec leaves open, fresh for each draw. -/
opaque freeWord : Nat → Word
/-- An open 64-bit value, fresh for each draw. -/
opaque freeLong : Nat → BitVec 64
/-- An open choice between two outcomes, fresh for each draw. -/
opaque freeBool : Nat → Bool
/-- An open amount, fresh for each draw. -/
opaque freeNat : Nat → Nat
/-- P0 of an ACCESS_VIOL record: the master and the world, in an arrangement the spec does not give (13 R486). -/
opaque violWho : Nat → Nat → Word
/-- P2 of an ACCESS_VIOL record: the violated check or list item, in a coding the spec does not give (13 R486). -/
opaque violWhat : Nat → Word
/-- A parameter of an event record that the code's home chapter does not give: code, place (15 R519). -/
opaque recParam : Nat → Nat → Word
/-- The record code of an uncorrectable error in the retentive log (04 R178), which 15 R521 does not list. -/
opaque mramErrorCode : Nat
/-- The sink address that an output signature folds for unit k of a word class, in a form the spec does not give
(07 R282). -/
opaque sinkCode : Nat → Nat → BitVec 22
/-- The serial number (11 R423). -/
opaque serial : List Byte
/-- The MAC address of an Ethernet port (11 R414, 17). -/
opaque mac : Nat → List Byte
/-- The Sett firmware image and its version (12 R448, R451). -/
opaque settFirmware : List Byte
opaque settVersion : BitVec 16
/-- The boot ROM version (11 R423). -/
opaque bootRomVersion : Word
/-- The level of pin PSEL, which the backplane slot fixes (07 R272, R301). -/
opaque psel : Bool
/-- The option fuse HWS: hardware start of the Badger (14 R489). -/
opaque hws : Bool

/-- SM3 (13 R472). -/
opaque sm3 : List Byte → List Byte
/-- The Z value of a public key, which an SM2 signature's digest begins with (13 R466, GB/T 32918.2). -/
opaque zValue : List Byte → List Byte
/-- HMAC over SM3 (13 R466). -/
opaque hmac : List Byte → List Byte → List Byte
/-- The key derivation function: key, input, length (13 R467, R481). -/
opaque kdf : List Byte → List Byte → Nat → List Byte
/-- The public half of an SM2 key. -/
opaque sm2Pub : List Byte → List Byte
/-- Whether bytes are a point of the SM2 curve (13 R467). -/
opaque sm2Point : List Byte → Bool
/-- An SM2 signature of a digest with a key and a random value. -/
opaque sm2Sign : List Byte → List Byte → Nat → List Byte
/-- Whether an SM2 signature of a digest under a public key holds. -/
opaque sm2Verify : List Byte → List Byte → List Byte → Bool
/-- SM2 key agreement: own key, peer point, input. -/
opaque sm2Agree : List Byte → List Byte → List Byte → List Byte
/-- SM4-GCM encryption: key, nonce, plain text to cipher text and tag (13 R466). -/
opaque sm4Enc : List Byte → List Byte → List Byte → List Byte
/-- SM4-GCM encryption with additional authenticated data: key, nonce, data, plain text to cipher text and tag (13 R481). -/
opaque sm4Seal : List Byte → List Byte → List Byte → List Byte → List Byte
/-- SM4-GCM decryption; none where the tag fails. -/
opaque sm4Dec : List Byte → List Byte → List Byte → Option (List Byte)
/-- The key store's internal random source (13 R466). -/
opaque random : Nat → List Byte

end Config

end Sys2Proof
end

