-- ==== Sys2Proof/Machine/Operands.lean ====
section
/-! DEFINITION. The operand forms of a move: masters and worlds, the places of the move address space, the slots of a
bundle, guards' codes and the port table (01 R18-R23; 02 R62-R72). -/

namespace Sys2Proof

/-- The worlds of a move (00 R9). -/
inductive World where
  | boot | system | program | host | sett
  deriving DecidableEq, Repr

/-- The world bit of ATTR0 and of bd.smask (13 R461). -/
def World.bit : World → Nat
  | .boot => 2 | .system => 3 | .program => 4 | .host => 5 | .sett => 6

/-- The master's place among ATTR0 bits [19:7] (13 R461). -/
def Master.code : Master → Nat
  | .boot => 0 | .house => 1 | .lp n => 2 + n.val | .host => 10 | .pair => 11 | .sett => 12

/-- The world of a master's moves (01 R23). -/
def Master.world : Master → World
  | .boot => .boot | .house => .system | .lp _ => .program | .host => .host | .pair => .system | .sett => .sett

/-- The interrupt target of a master: its own LP, or the house core (08 R318); 9 for masters that have none. -/
def Master.target : Master → Nat
  | .lp n => n.val | .house => 8 | .pair => 8 | _ => 9

/-- SOURCE of a record that a master writes (15 R520). -/
def Master.source : Master → BitVec 8
  | .lp n => BitVec.ofNat 8 n.val | .house => 0x08 | .boot => 0x09 | .host => 0x39 | .pair => 0x3A | .sett => 0x3F

/-- The masters by code. -/
def masterOf (c : Nat) : Master :=
  if c = 0 then .boot else if c = 1 then .house
  else if h : 2 ≤ c ∧ c < 10 then .lp ⟨c - 2, by omega⟩
  else if c = 10 then .host else if c = 11 then .pair else .sett

end Sys2Proof

namespace Sys2Proof.Machine

/-- The regions that a variant enables (00 R2). -/
def regionCount : Nat :=
  match Config.variant with
  | .k4410 => 1 | .k4420 => 2 | .k4440 => 4

/-- Whether region r is enabled; region 0 always is. -/
def regionPresent (r : Nat) : Bool := r == 0 || decide (r < regionCount)

/-- Whether the module carries two comparators (06 R247). -/
def dualOwl : Bool := decide (Config.variant = .k4440)

/-- The kinds of place in the move address space (02 R68). -/
inductive Place where
  | laneLocal | shared | imm | inBit | outBit | marker | word | absent | literal | reserved
  deriving DecidableEq, Repr

/-- The place of a move address (02 R68, 01 R31). -/
def place (a : Nat) : Place :=
  if a < 0x400 then .laneLocal
  else if a < 0x1000 then .shared
  else if a < 0x2000 then .imm
  else if a < 0x40000 then .reserved
  else if a < 0x80000 then .inBit
  else if a < 0xC0000 then .outBit
  else if a < 0x100000 then .reserved
  else if a < 0x200000 then .marker
  else if a < 0x3FFFFF then (if regionPresent ((a - 0x200000) / 0x80000) then .word else .absent)
  else .literal

/-- A place in one of the three bit images. -/
def Place.isBit : Place → Bool
  | .inBit | .outBit | .marker => true
  | _ => false

/-- A place that a move may read as memory (02 R68). -/
def Place.isMem : Place → Bool
  | .inBit | .outBit | .marker | .word => true
  | _ => false

/-- Whether a world may write a memory place by moves (02 R68). -/
def Place.writable (p : Place) (w : World) : Bool :=
  match p with
  | .inBit => decide (w = .boot)
  | .outBit | .marker | .word => decide (w = .boot ∨ w = .program)
  | _ => false

/-- Whether a world may read a memory place by moves (02 R68). -/
def Place.readable (p : Place) (w : World) : Bool := p.isMem && decide (w ≠ .sett)

/-- The value of a short immediate (02 R66). -/
def immValue (a : Nat) : Word := BitVec.ofNat 32 a - 0x1800

/-- The last bundle address of a code bank (02 R64). -/
def lastBundle : Nat := 0x2AAA9

/-- First and last-plus-one address of a region's word data slice (01 R31). -/
def sliceBase (r : Nat) : Nat := 0x200000 + r * 0x80000
def sliceEnd (r : Nat) : Nat := if r = 3 then 0x3FFFFF else 0x280000 + r * 0x80000

/-- Whether an address lies in the slice of region r. -/
def inSlice (r a : Nat) : Bool := decide (sliceBase r ≤ a ∧ a < sliceEnd r)

/-- A decoded move of a bundle (02 R63, R65); `lit` is the value of a literal source. -/
structure Move where
  slot : Nat
  guard : Nat
  src : Nat
  lit : Option Word
  dst : Nat
  deriving DecidableEq, Repr

/-- The 48 bits of slot n (02 R62). -/
def slotBits (b : BitVec 192) (n : Nat) : BitVec 48 := b.extractLsb' (48 * n) 48

/-- Slots from n on, `fuel` of them: a literal source takes the next slot, which is then no move; a literal source in
slot 3 has none (02 R65). -/
def decodeSlots (b : BitVec 192) : Nat → Nat → List Move
  | 0, _ => []
  | fuel + 1, n =>
    if n ≥ 4 then [] else
    let w := slotBits b n
    let src := (w.extractLsb' 22 22).toNat
    let m : Move := { slot := n, guard := (w.extractLsb' 44 4).toNat, src := src, lit := none,
                      dst := (w.extractLsb' 0 22).toNat }
    if src = 0x3FFFFF ∧ n < 3 then
      { m with lit := some ((slotBits b (n + 1)).extractLsb' 0 32) } :: decodeSlots b fuel (n + 2)
    else m :: decodeSlots b fuel (n + 1)

/-- The moves of a bundle in slot order (02 R62-R65). -/
def decodeBundle (b : BitVec 192) : List Move := decodeSlots b 4 0

/-- The bundle holds a literal source in slot 3 (02 R65). -/
def literalFault (ms : List Move) : Bool := ms.any (fun m => m.slot == 3 && m.src == 0x3FFFFF)

/-- The Dir codes of a port (00 R8). -/
inductive PortDir where
  | op | trg | res | rw
  deriving DecidableEq, Repr

/-- A row of a port table: addresses `lo` to `hi`, Dir, width, and the worlds that may read and write. -/
structure PortRow where
  lo : Nat
  hi : Nat
  dir : PortDir
  width : Nat
  rd : List World
  wr : List World
  deriving DecidableEq, Repr

def wBSHP : List World := [.boot, .system, .host, .program]
def wSHP : List World := [.system, .host, .program]
def wBSP : List World := [.boot, .system, .program]
def wBSH : List World := [.boot, .system, .host]
def wSH : List World := [.system, .host]
def wSP : List World := [.system, .program]
def wBS : List World := [.boot, .system]
def wP : List World := [.program]

/-- A row whose readers and writers are one set. -/
def row (lo hi : Nat) (d : PortDir) (width : Nat) (w : List World) : PortRow := ⟨lo, hi, d, width, w, w⟩

/-- Ports of the lane-local units (02 R87; 03 R108, R112, R115, R118, R120, R125, R129, R133). -/
def localPorts : List PortRow := [
  row 0x000 0x005 .trg 32 wP, row 0x008 0x00A .rw 32 wP, row 0x00C 0x00C .rw 32 wP, row 0x00D 0x00D .res 24 wP,
  row 0x00E 0x00E .res 18 wP, row 0x00F 0x00F .res 32 wP,
  row 0x040 0x05F .trg 1 wP, row 0x060 0x067 .trg 32 wP, row 0x068 0x077 .trg 22 wP, row 0x078 0x07B .trg 1 wP,
  row 0x07C 0x07C .res 1 wP,
  row 0x080 0x082 .op 32 wP, row 0x084 0x09F .trg 32 wP, row 0x0A0 0x0A1 .res 32 wP,
  row 0x0C0 0x0C0 .op 32 wP, row 0x0C4 0x0C6 .trg 32 wP, row 0x0C8 0x0C9 .trg 32 wP, row 0x0D0 0x0D3 .res 32 wP,
  row 0x0E0 0x0E0 .op 1 wP,
  row 0x100 0x102 .op 32 wP, row 0x104 0x113 .trg 32 wP, row 0x120 0x121 .res 32 wP,
  row 0x140 0x142 .op 32 wP, row 0x144 0x148 .trg 32 wP, row 0x150 0x158 .res 1 wP,
  row 0x180 0x181 .op 13 wP, row 0x182 0x183 .op 32 wP, row 0x184 0x184 .op 13 wP, row 0x185 0x185 .op 14 wP,
  row 0x186 0x186 .op 32 wP, row 0x187 0x187 .op 6 wP, row 0x188 0x189 .op 13 wP, row 0x18A 0x18A .op 32 wP,
  row 0x18B 0x18B .op 8 wP, row 0x18C 0x18C .trg 16 wP, row 0x18D 0x18E .trg 32 wP, row 0x18F 0x190 .trg 13 wP,
  row 0x191 0x191 .trg 32 wP, row 0x198 0x19A .res 32 wP, row 0x1A0 0x1A1 .res 32 wP, row 0x1A2 0x1A3 .res 13 wP,
  row 0x1C0 0x1C0 .op 22 wP, row 0x1C1 0x1C2 .op 32 wP, row 0x1C4 0x1C7 .trg 32 wP, row 0x1D0 0x1D0 .res 32 wP,
  row 0x200 0x200 .op 22 wP, row 0x204 0x206 .trg 1 wP, row 0x207 0x208 .trg 2 wP, row 0x209 0x209 .trg 4 wP,
  row 0x20A 0x20B .trg 1 wP, row 0x20C 0x20C .trg 32 wP, row 0x210 0x211 .res 1 wP, row 0x212 0x214 .res 32 wP]

/-- Ports of the interrupt controller, the Badger, the sequencer and the mirrors (08 R324, 14 R500, 04 R181, R185). -/
def sharedPortsA : List PortRow := [
  row 0x400 0x400 .op 8 wBSHP, row 0x401 0x401 .rw 32 wBSP, row 0x402 0x402 .res 32 wBSHP,
  row 0x404 0x406 .trg 32 wSP, row 0x408 0x408 .rw 4 wSP, ⟨0x409, 0x409, .rw, 1, wBSHP, wSH⟩,
  row 0x40A 0x40A .res 32 wSP, row 0x40B 0x40B .res 8 wSP, row 0x40C 0x40C .res 16 wSP, row 0x410 0x417 .res 32 wBSHP,
  row 0x800 0x800 .res 16 wBSHP, row 0x801 0x801 .trg 16 wBSP, row 0x802 0x802 .trg 5 wSP,
  row 0x804 0x804 .res 32 wBSHP, row 0x805 0x805 .res 24 wBSHP, row 0x806 0x808 .res 32 wBSHP,
  row 0x810 0x810 .rw 24 wBS, row 0x811 0x811 .rw 6 wBS, row 0x812 0x812 .rw 32 wBS, row 0x814 0x817 .rw 32 wBS,
  row 0x818 0x819 .rw 32 wBS, row 0x81C 0x81C .trg 32 wBS, row 0x81D 0x81D .res 16 wSH,
  row 0x840 0x840 .res 32 wBSHP, row 0x841 0x841 .trg 32 wSH, row 0x848 0x84F .res 32 wBSHP,
  row 0x850 0x850 .res 32 wP, row 0x851 0x851 .op 8 wSHP, row 0x852 0x854 .res 32 wSHP, row 0x858 0x85A .res 32 wSH,
  row 0x880 0x884 .res 32 wBSHP, row 0x888 0x888 .op 32 wSHP, row 0x889 0x889 .trg 32 wSHP, row 0x88A 0x88A .res 32 wSHP]

/-- Ports of the field messages, the table and the field bus (09 R358, 05 R223, 10 R394). -/
def sharedPortsB : List PortRow := [
  row 0x900 0x901 .res 32 wBSHP, row 0x902 0x902 .res 10 wSHP, row 0x903 0x904 .res 16 wSHP, row 0x905 0x905 .res 8 wSHP,
  row 0x908 0x908 .trg 16 wSP, row 0x909 0x909 .trg 12 wSP, row 0x90A 0x90A .trg 16 wSP, row 0x90C 0x90C .op 6 wSHP,
  row 0x90D 0x90D .trg 32 wSHP, row 0x90E 0x90E .res 32 wSHP,
  row 0x940 0x940 .op 12 wSHP, row 0x941 0x944 .op 32 wSP, row 0x948 0x949 .trg 32 wSP, row 0x94C 0x94C .op 3 wSP,
  row 0x94D 0x94E .op 32 wSP, row 0x950 0x951 .trg 32 wSP, row 0x954 0x954 .res 32 wSP, row 0x955 0x956 .res 16 wSHP,
  row 0x958 0x958 .trg 32 wSHP, row 0x959 0x95D .res 32 wSHP,
  row 0x980 0x981 .res 32 wBSHP, row 0x982 0x987 .res 32 wSHP, row 0x988 0x98F .res 32 wBSHP, row 0x990 0x990 .trg 32 wSP,
  row 0x991 0x991 .res 24 wSHP, row 0x994 0x994 .op 3 wSP, row 0x995 0x995 .trg 32 wSP, row 0x996 0x996 .op 7 wSP,
  row 0x997 0x997 .op 22 wSP, row 0x998 0x998 .trg 32 wSP, row 0x99C 0x99C .trg 32 wSH, row 0x99D 0x99D .res 4 wSP]

/-- Ports of the rack bus, the host channel, the pair link, the key store, the clock, the recorder, the Sett message port
and the force table (11 R406, R428; 07 R300; 13 R487; 15 R516, R530; 12 R452; 04 R174). -/
def sharedPortsC : List PortRow := [
  row 0xA00 0xA01 .res 32 wBSHP, row 0xA02 0xA02 .res 8 wBSHP, row 0xA03 0xA05 .res 32 wSHP, row 0xA06 0xA06 .res 16 wSHP,
  row 0xA08 0xA08 .trg 32 wSH, row 0xA40 0xA40 .res 32 wBSHP, row 0xA41 0xA41 .res 32 wSHP, row 0xA42 0xA43 .res 16 wSH,
  row 0xA80 0xA80 .res 32 wBSHP, row 0xA81 0xA86 .res 32 wSHP, row 0xA88 0xA88 .trg 32 wSH, row 0xA89 0xA89 .res 16 wSH,
  row 0xA8A 0xA8A .res 32 wSHP,
  row 0xAC0 0xAC0 .op 6 wBSHP, row 0xAC1 0xAC1 .trg 8 wBSHP, row 0xAC2 0xAC2 .op 6 wBSHP, row 0xAC3 0xAC3 .op 9 wBSHP,
  row 0xAC4 0xAC4 .op 6 wBSHP, row 0xAC5 0xAC6 .trg 32 wBSHP, row 0xAC7 0xAC7 .res 32 wBSHP, row 0xAC8 0xAC9 .op 32 wBSHP,
  row 0xACA 0xACC .res 32 wBSHP, row 0xAD0 0xAD0 .res 32 wBSHP, row 0xAD1 0xAD1 .res 32 wSH,
  row 0xB00 0xB00 .trg 32 wBSHP, row 0xB01 0xB01 .res 27 wBSHP, row 0xB02 0xB02 .res 25 wBSHP, row 0xB03 0xB04 .res 32 wBSHP,
  ⟨0xB06, 0xB06, .rw, 32, wBSHP, wBSH⟩, row 0xB08 0xB08 .op 27 wBSH, row 0xB09 0xB09 .op 25 wBSH, row 0xB0A 0xB0A .trg 32 wBSH,
  row 0xB0C 0xB0C .rw 12 wBSH, row 0xB10 0xB10 .rw 27 wSHP, row 0xB11 0xB11 .rw 32 wSHP, row 0xB12 0xB12 .rw 27 wSHP,
  row 0xB13 0xB13 .rw 32 wSHP, row 0xB18 0xB19 .res 32 wSH,
  row 0xB40 0xB40 .op 16 wSHP, row 0xB41 0xB41 .op 3 wSHP, row 0xB42 0xB42 .trg 32 wSHP, row 0xB43 0xB43 .res 32 wSHP,
  row 0xB44 0xB44 .trg 32 wSHP, row 0xB45 0xB45 .res 32 wSHP, row 0xB48 0xB48 .res 32 wBSHP, row 0xB49 0xB49 .res 16 wSHP,
  row 0xB4A 0xB4A .res 17 wSHP, row 0xB4B 0xB4B .res 32 wSH, row 0xB4C 0xB4C .res 32 wBSHP, row 0xB50 0xB52 .op 32 wSHP,
  row 0xB53 0xB53 .trg 32 wSHP,
  row 0xB80 0xB83 .res 32 wBSHP, row 0xB84 0xB84 .res 32 wSHP, row 0xB88 0xB88 .op 32 wSHP, row 0xB89 0xB8C .op 32 wSH,
  row 0xB90 0xB90 .trg 32 wSHP, row 0xB91 0xB91 .res 32 wSHP, row 0xB92 0xB92 .op 5 wSHP, row 0xB93 0xB93 .trg 32 wSHP,
  row 0xB94 0xB94 .res 32 wSHP,
  row 0xBC0 0xBC0 .op 10 wSH, row 0xBC1 0xBC1 .op 22 wSH, row 0xBC2 0xBC2 .op 32 wSH, row 0xBC4 0xBC7 .trg 32 wSH,
  row 0xBC8 0xBC9 .res 32 wSH, row 0xBCA 0xBCA .res 11 wBSHP, row 0xBCB 0xBCB .res 32 wSH]

/-- The row of a port address; none for a reserved address (02 R71). -/
def portRow (a : Nat) : Option PortRow :=
  (if a < 0x400 then localPorts else if a < 0x900 then sharedPortsA else if a < 0xA00 then sharedPortsB
   else sharedPortsC).find? (fun r => decide (r.lo ≤ a) && decide (a ≤ r.hi))

/-- What a lane-local port holds after reset: 1 in mac.sx and mac.sy, 0 in every other (03 R106, R125). -/
def portDefault (a : Nat) : Word := if a = 0x182 ∨ a = 0x183 then 1 else 0

/-- The value of a port takes the low bits of what is moved (02 R69). -/
def narrow (n : Nat) (v : Word) : Word := v &&& BitVec.ofNat 32 (2 ^ n - 1)

/-- Whether a world may read a port: its row lists the world and its Dir is RES or RW (00 R8, R9; 02 R70). -/
def mayRead (w : World) (a : Nat) : Bool :=
  match portRow a with
  | some r => r.rd.contains w && decide (r.dir = .res ∨ r.dir = .rw)
  | none => false

/-- Whether a world may move into a port: its row lists the world and its Dir is not RES (00 R8, R9; 02 R70). -/
def mayWrite (w : World) (a : Nat) : Bool :=
  match portRow a with
  | some r => r.wr.contains w && decide (r.dir ≠ .res)
  | none => false

/-- The value a port takes from a move (02 R69). -/
def portValue (a : Nat) (v : Word) : Word :=
  match portRow a with
  | some r => narrow r.width v
  | none => v

/-- A port is a trigger port. -/
def isTrigger (a : Nat) : Bool :=
  match portRow a with
  | some r => decide (r.dir = .trg)
  | none => false

/-- A port is a result port. -/
def isResult (a : Nat) : Bool :=
  match portRow a with
  | some r => decide (r.dir = .res)
  | none => false

/-- The unit of a port address: the first address of its block (02 R71). -/
def unitOf (a : Nat) : Nat :=
  if a < 0x240 then a / 0x40 * 0x40
  else if a < 0x800 then 0x400
  else if a < 0x880 then a / 0x40 * 0x40
  else if a < 0x900 then 0x880
  else if a < 0x980 then a / 0x40 * 0x40
  else if a < 0xA00 then 0x980
  else a / 0x40 * 0x40

end Sys2Proof.Machine
end

