-- ==== Sys2Proof/Machine/SMap.lean ====
section
/-! DEFINITION. Sparse tables and memories in one canonical form: what an unlisted index reads as is the default `d`;
a write of the default removes the entry, so that equal memories are equal data. -/

namespace Sys2Proof

/-- What index `a` holds. -/
def SMap.get {α : Type} (d : Nat → α) : SMap α → Nat → α
  | [], a => d a
  | (b, w) :: t, a => if b = a then w else SMap.get d t a

/-- Insert or replace the entry of `a`, keeping the indices rising. -/
def SMap.put {α : Type} : SMap α → Nat → α → SMap α
  | [], a, v => [(a, v)]
  | (b, w) :: t, a, v =>
    if b = a then (a, v) :: t else if a < b then (a, v) :: (b, w) :: t else (b, w) :: SMap.put t a v

/-- Drop the entry of `a`. -/
def SMap.erase {α : Type} (m : SMap α) (a : Nat) : SMap α := m.filter (fun p => p.1 ≠ a)

/-- Index `a` holds `v` from now on. -/
def SMap.set {α : Type} [DecidableEq α] (d : Nat → α) (m : SMap α) (a : Nat) (v : α) : SMap α :=
  if v = d a then m.erase a else m.put a v

/-- Consecutive indices from `a` hold the list's values. -/
def SMap.setList {α : Type} [DecidableEq α] (d : Nat → α) (m : SMap α) (a : Nat) : List α → SMap α
  | [] => m
  | v :: vs => SMap.setList d (m.set d a v) (a + 1) vs

/-- The values of `n` consecutive indices from `a`. -/
def SMap.getList {α : Type} (d : Nat → α) (m : SMap α) (a : Nat) : Nat → List α
  | 0 => []
  | n + 1 => m.get d a :: SMap.getList d m (a + 1) n

/-- The canonical form: indices strictly rising, no entry equal to the default. -/
def SMap.wf {α : Type} [DecidableEq α] (d : Nat → α) : SMap α → Bool
  | [] => true
  | [(a, v)] => decide (v ≠ d a)
  | (a, v) :: (b, w) :: t => decide (v ≠ d a) && decide (a < b) && SMap.wf d ((b, w) :: t)

end Sys2Proof
end

