-- ==== Sys2Proof/Machine/StateLane.lean ====
section
/-! DEFINITION. The state of a lane, of a logical processor and of a region (01 levels 2 and 3; 02, 03, 04, 06). -/

namespace Sys2Proof.Machine

/-- The flags word's one-bit fields and the accumulator (02 R76). -/
structure Flags where
  z : Bool := false
  n : Bool := false
  c : Bool := false
  v : Bool := false
  dz : Bool := false
  sat : Bool := false
  bso : Bool := false
  bsu : Bool := false
  acc : Bool := false
  deriving DecidableEq, Repr

/-- The load whose value an in-flight move waits for (02 R81, R83): its source, and its value once it is known. -/
structure LoadSrc where
  addr : Nat
  got : Option Word
  deriving DecidableEq, Repr

/-- A move in flight (02 R82, R85): a write to a lane-local port that waits, a posted store, or a posted write to a
shared unit port. `seq` orders the moves; `replay` holds the replay entries a trail trigger took; `unit` marks the value
that an indexed load writes into ls.r (03 R131). -/
structure Item where
  seq : Nat
  baddr : Nat
  slot : Nat
  dst : Nat
  val : Option Word
  ld : Option LoadSrc
  cin : Bool
  replay : List (BitVec 64)
  unit : Bool := false
  deriving DecidableEq, Repr

/-- The fifteen bit-logic operations (03 R108). -/
inductive BlOp where
  | ld | ldn | and | andn | or | orn | push | pushn | anb | orb | st | stn | set | rst | xor
  deriving DecidableEq, Repr

/-- A bit-logic operation that waits to be performed (02 R78, 03 R111). -/
structure BlWait where
  op : BlOp
  operand : Word
  baddr : Nat
  seq : Nat
  deriving DecidableEq, Repr

/-- A result that has yet to appear (02 R84, 03 R104): the result ports it writes, the flags it sets (R75), and
whether it raises the arithmetic event (R117, R123) and whether its unit is busy until it appears (R84). -/
structure Pend where
  g : ResGroup
  seq : Nat
  due : Nat
  ports : List (Nat × Word)
  fl : Option (Bool × Bool × Bool × Bool)
  dz : Bool
  sat : Bool
  arith : Bool
  busy : Bool
  acc : Option (BitVec 72)
  deriving DecidableEq, Repr

/-- An instance operation between its trigger write and its write-back (03 R140). -/
structure IuPend where
  seq : Nat
  changed : List (Nat × Word)
  q : Bool
  q2 : Bool
  et : BitVec 64
  st : Word
  deriving DecidableEq, Repr

/-- An event of a lane's signature (06 R234) in program order; the word is none until its value is known, and a
window's close is an event of its own (06 R236). `tag` is the move's seq and a position inside it. -/
structure SigEv where
  tag : Nat × Nat
  close : Bool
  word : Option (BitVec 64)
  deriving DecidableEq, Repr

/-- A lane (01 R24, R27): lane-local unit ports by move address, flags, branch stack, operand memories, the in-flight
entries, and its signature as Owl-A keeps it and as Owl-B keeps it (06 R233, R247); `flagSeq` is the move whose flags Z, N, C
and V hold (02 R75). -/
structure Lane where
  ports : SMap Word := []
  flags : Flags := {}
  flagSeq : Nat := 0
  bstk : List Bool := []
  acc72 : BitVec 72 := 0
  opX : SMap Word := []
  opY : SMap Word := []
  items : List Item := []
  pend : List Pend := []
  blq : List BlWait := []
  iuq : List IuPend := []
  seq : Nat := 0
  cyc : Nat := 0
  macBusy : Nat := 0
  pc : Nat := 0
  wait : Bool := false
  idleH : Bool := false
  last : Nat := 0
  bcnt : Word := 0
  sig : BitVec 64 := 0xFFFFFFFFFFFFFFFF
  sigB : BitVec 64 := 0xFFFFFFFFFFFFFFFF
  evq : List SigEv := []
  wcnt : Nat := 0
  deriving DecidableEq, Repr

/-- The four states of a logical processor (04 R164). -/
inductive LpState where
  | boot | stop | run | halt
  deriving DecidableEq, Repr

/-- What the sequencer of a logical processor is doing (04 R158, R163). -/
inductive Phase where
  | idle | init | initEnd | latch | exec | taskEnd | commit
  deriving DecidableEq, Repr

/-- One handler on the level record of a target (08 R308, R309). -/
structure Level where
  level : Nat
  src : Nat
  ecnt : BitVec 8
  deriving DecidableEq, Repr

/-- A logical processor and its scan sequencer (04). -/
structure Lp where
  st : LpState := .boot
  hcause : BitVec 6 := 0
  phase : Phase := .idle
  task : Nat := 0
  stopReq : Bool := false
  idleHandler : Bool := false
  latchAt : Nat := 0
  ax : SMap (BitVec 64) := []
  forces : List (Nat × Word) := []
  lseq : Word := 0
  cseq : Word := 0
  taskEcnt : BitVec 8 := 0
  thr : BitVec 4 := 0
  levels : List Level := []
  err : BitVec 16 := 0
  unavail : Bool := false
  deriving DecidableEq, Repr

/-- The scan state of one task (04 R154, R181): `ttf` is its trigger's fire instant, `own` the latest trigger that a
standby in step recorded and did not act on (07 R279, R280, R293). -/
structure TaskSt where
  pend : Bool := false
  ttf : BitVec 64 := 0
  own : Option (BitVec 64) := none
  ovr : BitVec 16 := 0
  ran : Bool := false
  tlast : Word := 0
  tmax : Word := 0
  gap : Bool := false
  prevIn : List Word := []
  deriving DecidableEq, Repr

/-- Coverage of a region (06 R269). -/
inductive Cov where
  | paired | split | splitPend | rejoin | exPrep | handover | exRun | unavail
  deriving DecidableEq, Repr

/-- An entry of the replay FIFO (06 R230) with the lead move that reserved it; the value is none until it is filled. -/
structure REntry where
  seq : Nat
  kind : BitVec 3
  word : BitVec 3
  slot : BitVec 2
  addr : Option (BitVec 22)
  val : Option Word
  deriving DecidableEq, Repr

/-- A signature that a lane has completed for a window (06 R237), and Owl-B's copy of it (06 R247). -/
structure WinSig where
  win : Nat
  sig : BitVec 64
  sigB : BitVec 64
  baddr : Nat
  deriving DecidableEq, Repr

/-- What the trail of a paired region has yet to repeat (06 R226, R232, R243): a bundle (or a control move given as a
command) with or without a tail chain, an interrupt entry, the stack registers that an idle entry loads, a halting fault,
a MAXRUN expiry, and a task start. -/
inductive Repeat where
  | bundle (mv : Option (Nat × Word)) (chained : Bool)
  | entry
  | idleEntry (top lim : Word)
  | fault (mv : Option (Nat × Word))
  | entryFault (idle : Bool) (top lim : Word)
  | maxrun
  | start (entry : Nat) (top lim : Word)
  deriving DecidableEq, Repr

/-- A region (01 R28): coverage, the Owl, the replay FIFO, its code banks and its status record (06 R269); `errs` holds
the bit errors its memories carry: memory code of R244, address, and whether two bits are wrong; `mxWait` says that the lead
has yet to take the two entries of a window that a MAXRUN expiry closed (06 R229). -/
structure Region where
  cov : Cov := .paired
  back : Cov := .paired
  pendReq : Option (Bool × Bool) := none
  owlt : Bool := false
  ran : Bool := false
  w16k : Bool := false
  mkind : BitVec 8 := 0
  mcnt : BitVec 8 := 0
  wins : BitVec 64 := 0
  fhwm : BitVec 10 := 0
  prew : BitVec 16 := 0
  fstall : Word := 0
  splitn : Word := 0
  ucstart : BitVec 64 := 0
  ucend : BitVec 64 := 0
  fifo : List REntry := []
  outstanding : List Repeat := []
  leadSigs : List WinSig := []
  trailSigs : List WinSig := []
  leadWin : Nat := 0
  trailWin : Nat := 0
  active : Bool := false
  onTrail : Bool := false
  leadFault : Option (BitVec 24) := none
  trailFault : Option (BitVec 24) := none
  mxWait : Bool := false
  exStage : Nat := 0
  exKeep : Bool := false
  exForce : Bool := false
  exBytes : List Byte := []
  heldTrig : List (Nat × BitVec 64) := []
  errs : List (Nat × Nat × Bool) := []
  deriving DecidableEq, Repr

end Sys2Proof.Machine
end

