-- ==== Sys2Proof/Machine/StateProg.lean ====
section
/-! DEFINITION. The program a module holds (04 R143-R153, R176), as the house core reads it from an image's bytes. -/

namespace Sys2Proof.Machine

/-- A set entry (04 R150). -/
structure SetEntry where
  cls : Nat
  first : Nat
  count : Nat
  addr : Nat
  deriving DecidableEq, Repr

/-- A task descriptor (04 R153). -/
structure TaskDesc where
  en : Bool := false
  trig : Nat := 0
  prio : Nat := 0
  arg : Nat := 0
  entry : Nat := 0
  stacktop : Word := 0
  stacklim : Word := 0
  maxrun : Nat := 0
  infirst : Nat := 0
  incnt : Nat := 0
  outfirst : Nat := 0
  outcnt : Nat := 0
  gap : Nat := 0
  deriving DecidableEq, Repr

/-- A start-up routine (04 R146, R163). -/
structure InitDesc where
  entry : Nat
  stacktop : Word
  stacklim : Word
  maxrun : Nat
  deriving DecidableEq, Repr

/-- A retentive block (04 R176). -/
structure RetBlock where
  ident : Word
  addr : Nat
  len : Nat
  owner : Nat
  deriving DecidableEq, Repr

/-- The sections of a program image, read (04 R146). Tasks are indexed by 32 × LP + task. -/
structure Prog where
  valid : Bool := false
  minreg : Nat := 0
  modes : Word := 0
  progid : Word := 0
  version : Word := 0
  build : Word := 0
  code : List (Nat × Nat × List (BitVec 192)) := []
  wdata : List (Nat × List Word) := []
  marker : List (Nat × List Word) := []
  tasks : SMap TaskDesc := []
  insets : SMap (List SetEntry) := []
  outsets : SMap (List SetEntry) := []
  retain : List RetBlock := []
  instances : SMap (List Nat) := []
  inits : SMap (Option InitDesc) := []
  field : List Word := []
  axes : List Word := []
  fbus : List Word := []
  rack : List Word := []
  irq : List Word := []
  badger : List Word := []
  sm3 : List Byte := []
  deriving DecidableEq, Repr

/-- A program bank's load in progress (04 R170). -/
inductive LoadPhase where
  | none | transfer | check
  deriving DecidableEq, Repr

/-- A run of words in the retentive log (04 R177); `bad` says that an uncorrectable error stands in it (R178). -/
structure LogRun where
  addr : Nat
  words : List Word
  bad : Bool := false
  deriving DecidableEq, Repr

/-- One commit in the retentive log: its runs, and whether its marker word is complete (04 R177, R178). -/
structure LogCommit where
  runs : List LogRun
  complete : Bool := true
  deriving DecidableEq, Repr

/-- MRAM (04 R141): program banks and their pointer, the retentive log's newest values and its counters, firmware
banks, staging area and boot control block (16 R539-R543), counters kept there. -/
structure Mram where
  bankA : List Byte := []
  bankB : List Byte := []
  curB : Bool := false
  log : List LogCommit := []
  rwl : BitVec 64 := 0
  fw0 : List Byte := []
  fw1 : List Byte := []
  desc0 : List Byte := []
  desc1 : List Byte := []
  staged : List Byte := []
  delta : List Byte := []
  bankptr : Word := 0
  bstate : BitVec 4 := 0
  btry : BitVec 4 := 0
  applyn : BitVec 8 := 0
  next : Word := 0
  dofs : Word := 0
  hostEpoch : BitVec 16 := 0
  bdFcnt : BitVec 16 := 0
  records : SMap (List Word) := []
  deriving DecidableEq, Repr

end Sys2Proof.Machine
end

