-- ==== Sys2Proof/Machine/StateField.lean ====
section
/-! DEFINITION. The state of the field die (05, 09, 10), and the frames of the barrier link (09 R328-R340). -/

namespace Sys2Proof.Machine

/-- An axis descriptor (05 R192). -/
structure AxDesc where
  en : Bool := false
  inv : Bool := false
  zhome : Bool := false
  xid : Bool := false
  ch : Bool := false
  mod : BitVec 64 := 0
  period : Nat := 0
  ident : BitVec 29 := 0
  phofs : Word := 0
  snap : Word := 0
  deriving DecidableEq, Repr

/-- An exact velocity: `num` times 2^−16 counts in `den` ns (05 R196, R198, R199). -/
structure Rate where
  num : Int := 0
  den : Nat := 1
  deriving DecidableEq, Repr

/-- An axis on the field die (05 R189, R199, R207). Positions are 48.16 counts; `pos` stands at the instant `tl` of the
die's timebase; `base` is the velocity without the correction of R196 and R198, which holds until `adjEnd`. `prev` is
MPOS of the latest evaluation (R211); `skipped` is the movement that an axis frozen by OVERSPEED has made. -/
structure Axis where
  desc : AxDesc := {}
  pos : BitVec 64 := 0
  mpos : BitVec 64 := 0
  vel : Rate := {}
  base : Rate := {}
  adjEnd : Nat := 0
  errcnt : BitVec 8 := 0
  overspeed : Bool := false
  reflost : Bool := true
  homep : Bool := false
  homeVal : BitVec 64 := 0
  unkv : Bool := false
  frozen : Bool := false
  stale : Bool := false
  rev : Bool := false
  prev : BitVec 64 := 0
  skipped : Int := 0
  hist : List Nat := []
  lastdir : Bool := false
  lastA : Bool := false
  lastB : Bool := false
  tl : Nat := 0
  lastMsg : Option (BitVec 64 × BitVec 64) := none
  goodRuns : Nat := 0
  openWire : Bool := false
  deriving DecidableEq, Repr

/-- A position event table entry with its state bits (05 R209, R211). -/
structure Entry where
  w0 : Word := 0
  hyst : Word := 0
  posn : BitVec 64 := 0
  armf : Bool := false
  armr : Bool := false
  done : Bool := false
  deriving DecidableEq, Repr

/-- A SCHED_WRITE record (05 R214): seven words with the fields separated. `live` says that REF is the position at
application (R215). -/
structure Rec where
  kind : Nat
  axsel : Nat
  index : Nat
  w0 : Word
  hyst : Word
  value : BitVec 64
  ref : BitVec 64
  live : Bool
  deriving DecidableEq, Repr

/-- A decided action that waits for its fire instant (05 R211, R217): the entry and its words at the decision. -/
structure Decided where
  index : Nat
  w0 : Word
  posn : BitVec 64
  back : Bool
  due : Nat
  deriving DecidableEq, Repr

/-- An event of the field die that waits for the recorder (05 R198, R204, R216; 10 R380-R382). -/
structure FieldEvent where
  code : Nat
  sev : Nat
  source : Nat
  params : List Word
  deriving DecidableEq, Repr

/-- A SCHED_FIRED note (05 R220). -/
structure Note where
  late : Bool
  unreached : Bool
  stale : Bool
  revd : Bool
  action : Nat
  index : Nat
  tf : BitVec 64
  val : Word
  lateness : Word
  deriving DecidableEq, Repr

/-- Commands of OUT_IMAGE (09 R333). -/
inductive OutCmd where
  | safe | run | pdrive | forced
  deriving DecidableEq, Repr

/-- Supply states (09 R355). -/
inductive LState where
  | ok | low | missing
  deriving DecidableEq, Repr

/-- What drives an output switch (09 R345). -/
inductive Switch where
  | off | on | partner
  deriving DecidableEq, Repr

/-- An output channel (09 R345-R354). -/
structure OutCh where
  sw : Switch := .off
  cmd : OutCmd := .safe
  val : Bool := false
  placed : Bool := false
  latched : Bool := false
  latchedAt : Nat := 0
  sccnt : BitVec 8 := 0
  extdrv : Bool := false
  openl : Bool := false
  olCnt : Nat := 0
  wt : Bool := false
  wtp : BitVec 8 := 0
  offAt : Option Nat := none
  onCycles : List Nat := []
  deriving DecidableEq, Repr

/-- An input channel (09 R347, R348). -/
structure InCh where
  lvl : Bool := false
  openw : Bool := false
  owCnt : Nat := 0
  deriving DecidableEq, Repr

/-- A fast counter (09 R349). -/
structure FastCtr where
  cnt : Word := 0
  edges : Nat := 0
  last : Nat := 0
  per : Word := 0xFFFFFFFF
  carry : Bool := false
  deriving DecidableEq, Repr

/-- A DIAG entry (09 R340). -/
structure DiagEnt where
  set : Bool
  code : Nat
  param : BitVec 8
  chan : Nat
  time : BitVec 64
  deriving DecidableEq, Repr

/-- Transmit buffer states (10 R377). -/
inductive BufSt where
  | idle | pend | txing
  deriving DecidableEq, Repr

/-- A transmit buffer (10 R375, R377, R382), or a station's output frame (R388). `due` is the RESULT with which its request
completes when the channel's current attempt ends (R386). -/
structure TxBuf where
  st : BufSt := .idle
  words : List Word := []
  next : Option (List Word) := none
  count : Nat := 0
  again : Bool := false
  clash : Nat := 0
  clashId : Word := 0
  due : Option (BitVec 3) := none
  deriving DecidableEq, Repr

/-- Station states (10 R389). -/
inductive Sts where
  | wait | ok | stale | down
  deriving DecidableEq, Repr

/-- A configured station on the field die (10 R387-R389). -/
structure Station where
  buf : TxBuf := {}
  data : List Word := []
  run : Bool := false
  seq : BitVec 4 := 0
  sts : Sts := .wait
  missed : Nat := 0
  gotInput : Bool := false
  started : Bool := false
  deriving DecidableEq, Repr

/-- A CAN channel on the field die (10). Objects are 18 words each, by object number; `line` is the frame of its attempt on
the bus. -/
structure Can where
  desc : List Word := []
  objs : SMap (List Word) := []
  bufs : SMap TxBuf := []
  stations : SMap Station := []
  tec : Nat := 0
  recn : Nat := 0
  est : BitVec 2 := 3
  noPartner : Bool := false
  idClash : Bool := false
  clxtd : Bool := false
  clashId : BitVec 29 := 0
  bowait : Bool := false
  recovering : Bool := false
  txoff : Bool := false
  stuck : Bool := false
  lec : BitVec 3 := 0
  xdisc : BitVec 16 := 0
  errf : BitVec 16 := 0
  mrg : BitVec 16 := 0
  txabort : BitVec 16 := 0
  ackRun : Nat := 0
  engClash : Nat := 0
  engId : Word := 0
  line : Option CanFrame := none
  deriving DecidableEq, Repr

/-- A record of BUS_TX (10 R376, R395). -/
structure BusTx where
  kind : Nat
  ch : Nat
  send : Bool
  run : Bool
  index : Nat
  words : List Word
  deriving DecidableEq, Repr

/-- A record of BUS_RX_NOTE (10 R371). -/
inductive BusNote where
  | object (ch : Nat) (new : Bool) (nrx index : Nat) (words : List Word)
  | status (ch : Nat) (words : List Word) (sts : List Nat)
  | done (ch : Nat) (index : Nat) (result : BitVec 3) (attempts : Nat)
  deriving DecidableEq, Repr

/-- A record that waits for BUS_RX_NOTE, in order of first change (10 R371): an object's content or STS, a channel
status, a transmit completion. -/
inductive BusPend where
  | obj (ch idx : Nat) (new : Bool) (nrx : Nat)
  | stat (ch : Nat)
  | done (ch idx : Nat) (result : BitVec 3) (attempts : Nat)
  deriving DecidableEq, Repr

/-- A CFG_WRITE record (09 R335): data words of a block from a word offset on, with the words of the whole block. -/
inductive CfgRec where
  | block (blk offset total : Nat) (words : List Word)
  | commit (cfgid : Word)
  deriving DecidableEq, Repr

/-- A message of a host frame (09 R329, R332-R335; 05 R214; 10 R376). -/
inductive HostMsg where
  | heartbeat (ssackn : BitVec 8) (role mstate : BitVec 2) (econ : Bool) (hax0 : BitVec 64) (lbp cfgid : Word)
  | outImage (val : BitVec 16) (cmds : List OutCmd) (crst : BitVec 12) (rst dclr : BitVec 16) (reqn : BitVec 8)
  | cfgWrite (recs : List CfgRec)
  | schedWrite (recs : List Rec)
  | busTx (recs : List BusTx)
  deriving DecidableEq, Repr

/-- A message of a field frame (09 R329, R337-R340; 05 R207, R220; 10 R371). -/
inductive FieldMsg where
  | inImage (di : Word) (ts : BitVec 64) (fstat : BitVec 224) (ctr : List Word) (carry : BitVec 12) (cfgid : Word)
      (reqe sscnt : BitVec 8) (herr : BitVec 16) (safeact cfgok frst : Bool)
  | supply (lstate : LState) (high : Bool) (word1 : Word)
  | axisState (words : List Word) (evs : List FieldEvent)
  | diag (dovf : BitVec 8) (lbe : Word) (ents : List DiagEnt) (sccnt wtp : List (BitVec 8)) (on : BitVec 16)
      (evs : List FieldEvent)
  | schedFired (notes : List Note) (lost : Nat)
  | busRxNote (recs : List BusNote)
  deriving DecidableEq, Repr

/-- A barrier frame: its EPOCH, SEQ and messages (09 R328). -/
structure Frame (μ : Type) where
  epoch : BitVec 16
  seq : Word
  econ : Bool
  msgs : List μ
  deriving DecidableEq, Repr

/-- The receiving end of a link direction (09 R330, 01 R43): the last accepted EPOCH and SEQ, and discarded frames. -/
structure RxEnd where
  epoch : Option (BitVec 16) := none
  seq : Word := 0
  errs : BitVec 16 := 0
  deriving DecidableEq, Repr

/-- The field die. -/
structure Field where
  powered : Bool := false
  epoch : BitVec 16 := 0
  txSeq : Word := 0
  frame : Option (Frame FieldMsg) := none
  rx : RxEnd := {}
  rxMsgs : List HostMsg := []
  frst : Bool := false
  ax0off : BitVec 64 := 0
  ax0set : Bool := false
  mstate : BitVec 2 := 0
  role : BitVec 2 := 0
  econ : Bool := false
  clk : Nat := 0
  rxStart : Nat := 0
  alignAt : Nat := 0
  lbp : Word := 0
  wantCfg : Word := 0
  everCfgMatch : Bool := false
  blocks : List (Nat × Nat × List Word) := []
  cfgid : Word := 0
  cfgok : Bool := false
  cfg : List Word := []
  cfgAxes : List Word := []
  cfgFbus : List Word := []
  sscnt : BitVec 8 := 0
  safeact : Bool := false
  safeWait : Bool := false
  lastAccept : Nat := 0
  lastReqn : BitVec 8 := 0
  ins : SMap InCh := []
  outs : SMap OutCh := []
  ctrs : SMap FastCtr := []
  lstate : LState := .missing
  high : Bool := false
  mv : BitVec 16 := 0
  mvMin : BitVec 16 := 0xFFFF
  diagq : List DiagEnt := []
  dovf : BitVec 8 := 0
  axes : SMap Axis := []
  table : SMap Entry := []
  recq : List Rec := []
  decided : List Decided := []
  notes : List Note := []
  lost : Nat := 0
  evq : List FieldEvent := []
  syncT : List (Nat × Bool) := []
  cans : SMap Can := []
  busPend : List BusPend := []
  deriving DecidableEq, Repr

end Sys2Proof.Machine
end

