-- ==== Sys2Proof/Machine/StateUnits.lean ====
section
/-! DEFINITION. The state of the shared units of the logic die (04, 08, 09, 11, 13, 14, 15) and of the module
(07, 16). Operand and result ports that are kept for each master stand in one table, by master and move address. -/

namespace Sys2Proof.Machine

/-- An interrupt source (08 R304, R305, R318). -/
structure Source where
  cnt : BitVec 8 := 0
  asat : Bool := false
  active : Bool := false
  cfg : Word := 0
  deriving DecidableEq, Repr

/-- A force table entry (04 R173). -/
structure Force where
  addr : Nat := 0
  val : Word := 0
  en : Bool := false
  deriving DecidableEq, Repr

/-- The host-side record of a table entry (05 R223, R225). -/
structure HostEntry where
  w0 : Word := 0
  hyst : Word := 0
  posn : BitVec 64 := 0
  fcnt : BitVec 16 := 0
  pend : Nat := 0
  late : Bool := false
  unreached : Bool := false
  stalef : Bool := false
  done : Bool := false
  tf : BitVec 64 := 0
  val : Word := 0
  deriving DecidableEq, Repr

/-- A staged station output or send request of a master (10 R376, R388). -/
inductive FbStage where
  | txreq (ch buf : Nat) | sput (ch station : Nat) (sbuf : Nat)
  deriving DecidableEq, Repr

/-- A request of CRST, RST and DCLR masks (09 R334). -/
structure Masks where
  rst : BitVec 16 := 0
  crst : BitVec 12 := 0
  dclr : BitVec 16 := 0
  deriving DecidableEq, Repr

/-- A Sett command of a master: staged, sent, or done (12 R452-R454). -/
structure StCmd where
  pend : Bool := false
  sent : Bool := false
  rej : BitVec 3 := 0
  cmd : BitVec 4 := 0
  tag : BitVec 8 := 0
  result : BitVec 8 := 0
  nw : BitVec 8 := 0
  words : List Word := []
  arg : Word := 0
  nonce : List Word := []
  deriving DecidableEq, Repr

/-- A SETT_CMD record on its way (12 R450); `who` is the master's code. -/
structure SettCmd where
  who : Nat
  cmd : BitVec 4
  tag : BitVec 8
  arg : Word
  htime : BitVec 64
  nonce : List Word
  deriving DecidableEq, Repr

/-- A reply of the Sett die (12 R450). -/
structure SettReply where
  cmd : BitVec 4
  tag : BitVec 8
  result : BitVec 8
  words : List Word
  deriving DecidableEq, Repr

/-- A key store operation that waits or runs (13 R466, R468), with what its master's ports held. -/
structure KsOp where
  who : Nat
  code : BitVec 8
  slot : Nat
  slot2 : Nat
  len : Nat
  attr0 : Word
  attr1 : Word
  input : List Word
  gone : Bool
  deriving DecidableEq, Repr

/-- A key store slot (13 R461). -/
structure Slot where
  attr0 : Word := 0
  attr1 : Word := 0
  key : List Byte := []
  deriving DecidableEq, Repr

/-- The key store and the lifecycle (13). -/
structure Ks where
  slots : SMap Slot := []
  lc : BitVec 8 := 1
  tcnt : Word := 0
  pendTo : Option (BitVec 8) := none
  queue : List KsOp := []
  vcnt : Word := 0
  fail : Bool := false
  policy : List Word := []
  fwrbc : Word := 0
  wrongCodes : Nat := 0
  cert : List Byte := []
  ins : SMap Word := []
  outs : SMap Word := []
  stat : SMap Word := []
  deriving DecidableEq, Repr

/-- Badger states (14 R490). -/
inductive BdState where
  | stopped | closed | opened | failed
  deriving DecidableEq, Repr

/-- The Badger (14). `since` is the clock at the interval start; `cfgrej` by master. -/
structure Badger where
  st : BdState := .stopped
  mode : BitVec 2 := 0
  q : BitVec 16 := 0x1234
  since : Nat := 0
  stopC : Nat := 0
  chk : Word := 0
  dup : Word := 0
  erq : Word := 0
  per : Nat := 500000
  cls : Nat := 0
  req : Word := 0
  own : List Word := [0, 0, 0, 0]
  ownEff : List Word := [0, 0, 0, 0]
  smask : Word := 0x18C
  act : Bool := false
  applied : Bool := false
  lastf : BitVec 5 := 0
  scnt : BitVec 8 := 0
  cfgrej : SMap Bool := []
  actionDue : Bool := false
  applyDue : Bool := false
  deriving DecidableEq, Repr

/-- The Badger right after a module reset (14 R489): under hardware start it counts at once. -/
def Badger.afterReset : Badger := { st := if Config.hws then .closed else .stopped }

/-- The clock domain (15 R505-R518); `incAt` is the clock at the latest second increment. -/
structure Rtc where
  secs : Nat := 0
  incAt : Nat := 0
  ticks : Nat := 0
  trim : BitVec 12 := 0
  trimEff : BitVec 12 := 0
  window : Nat := 0
  stat : Word := 0x80000000
  wtim : Word := 0
  wdat : Word := 0
  atim : List Word := [0, 0]
  adat : List Word := [0, 0]
  bkin : Word := 0
  bkout : Word := 0
  clkReset : Bool := false
  deriving DecidableEq, Repr

/-- An event in the recorder's queue with what it carries from its occurrence (15 R522). -/
structure QEvent where
  ev : Event
  time : BitVec 64
  forced : Bool
  tinv : Bool
  occurred : Nat
  deriving DecidableEq, Repr

/-- The recorder's newest record as R523 compares it: its slot, event, and the first occurrence in ns since 2000. -/
structure Newest where
  slot : Nat
  ev : Event
  first : Nat
  deriving DecidableEq, Repr

/-- The event recorder (15 R519-R530); its slots stand in MRAM. -/
structure Recorder where
  queue : List QEvent := []
  nseq : Word := 0
  newest : Option Newest := none
  newestSlot : BitVec 16 := 0
  cnt : Nat := 0
  qdrop : BitVec 16 := 0
  fdrop : BitVec 16 := 0
  bad : BitVec 16 := 0
  scan : Bool := false
  clr : Bool := false
  winNew : SMap Nat := []
  supp : SMap Word := []
  deriving DecidableEq, Repr

/-- A rack board's status (11 R406). -/
inductive BoardSt where
  | ok | missing | wrongid | failed
  deriving DecidableEq, Repr

/-- A rack board as the module sees it (11 R404-R406). -/
structure Board where
  st : BoardSt := .ok
  stale : Bool := false
  fails : Nat := 0
  rescan : Bool := false
  first : Bool := false
  deriving DecidableEq, Repr

/-- One access on the rack bus (11 R397, R398, R402): an access of a parallel personality at a bus address, or an exchange with
a station on the serial link. `sent` is what the module drives, on D the request frame; `expect` counts the bytes that are read. -/
structure RackAccess where
  board : Nat
  pers : Nat
  addr : Nat
  write : Bool
  sent : List Byte
  expect : Nat
  deriving DecidableEq, Repr

/-- The rack bus interface (11 R397-R413). Inputs are the mirror; the snapshot holds the bytes that the output phase writes to
each board; `par` and `ser` are the accesses of the latest cycle on the parallel bus and on the serial link. -/
structure Rack where
  sect : List Word := []
  boards : SMap Board := []
  inBits : SMap Word := []
  inWords : SMap Word := []
  snap : List (Nat × List Byte) := []
  par : List RackAccess := []
  ser : List RackAccess := []
  running : Bool := false
  cycAt : Nat := 0
  cyc : Word := 0
  tc : Word := 0
  tmax : Word := 0
  err : BitVec 16 := 0
  rlost : Bool := false
  rstl : Bool := false
  rreset : Bool := false
  rresetEnd : Nat := 0
  irql : BitVec 8 := 0
  deriving DecidableEq, Repr

/-- An Ethernet port (11 R414). -/
structure EthPort where
  up : Bool := false
  ip : Word := 0
  dhcp : Bool := true
  linkLocal : Bool := false
  deriving DecidableEq, Repr

/-- A session (11 R415-R417): handshaking until `opened`. `ident` is the host key identifier, `key` the public key of
HELLO_H, `trans` the bytes of HELLO_H and HELLO_M, `keys` the session keys (13 R481). -/
structure Session where
  used : Bool := false
  opened : Bool := false
  path : HostPath := .x6
  want : Role := .read
  role : Role := .read
  ident : List Byte := []
  key : List Byte := []
  trans : List Byte := []
  keys : List Byte := []
  rxSeq : Word := 0
  txSeq : Word := 0
  deriving DecidableEq, Repr

/-- Status of a reply (11 R419). -/
inductive RStat where
  | ok | busy | role | badreq | refused | aborted | state
  deriving DecidableEq, Repr

/-- What the host channel sends: a reply, an ALERT, HELLO_M or FIN_M (11 R415-R419). -/
inductive HostOut where
  | reply (s : Nat) (cmd tag : BitVec 16) (st : RStat) (reason : BitVec 16) (payload : List Word)
  | alert (code : BitVec 8)
  | helloM (s : Nat) (eph nonce cert sig : List Byte)
  | finM (s : Nat) (role : Role)
  deriving DecidableEq, Repr

/-- A long operation in progress (11 R424); phase 1 transfer, 2 check, 3 apply. `wait` is CMD and TAG of the request that
its final reply answers, once that request has come. `started`: data has come, or a READ of SETTDUMP is on its way. -/
structure LongOp where
  cmd : BitVec 16
  sess : Nat
  key : List Byte
  phase : BitVec 2
  wait : Option (BitVec 16 × BitVec 16) := none
  bytes : List Byte := []
  forceclr : Bool := false
  region : Nat := 0
  chunk : Nat := 0
  kg : Option KeygenReq := none
  started : Bool := false
  deriving DecidableEq, Repr

/-- The host channel (11 R411, R414-R428). `mbOut` is what the mailbox stream has sent and no block carries yet; `mbReply` is
the reply window: its TOG is that of the latest reply block, its ACK the TOG of the latest request block taken. -/
structure HostCh where
  eth : SMap EthPort := []
  sess : SMap Session := []
  outbox : List HostOut := []
  op : Option LongOp := none
  last : Word := 0
  rej : BitVec 16 := 0
  busy : BitVec 16 := 0
  resetDue : Bool := false
  mbOut : List Byte := []
  mbReply : MailboxWindow := {}
  deriving DecidableEq, Repr

/-- PSTATE (07 R288). -/
inductive PState where
  | unsync | syncing | catchup | sync | ready
  deriving DecidableEq, Repr

/-- A message the module sends on the pair link (07 R278). -/
inductive PairMsg where
  | heartbeat (h : PairHeartbeat)
  | fwd (w : Fwd)
  | iarr (lp : Nat) (lseq : Word) (bcnt : Option Word) (src : Nat)
  | osig (lp : Nat) (lseq : Word) (sig : BitVec 64)
  | cmd (c : PairCmd) (lseq : List Word)
  | state (b : StateBlock)
  | health (h : List Word)
  | relinquish (rc : BitVec 8) (lseq : List Word)
  | joinreq (sm3 : List Byte) (fw : Word) (proto : BitVec 16) (ready : Bool)
  | joinack (refused : BitVec 8)
  deriving DecidableEq, Repr

/-- A frame the module has sent on the pair link: its SEQ, the pair time at sending, its message (07 R277). -/
structure LinkOut where
  seq : Word
  ptime : BitVec 64
  msg : PairMsg
  deriving DecidableEq, Repr

/-- The pair link and the pair rules (07). `rxSeq` is the SEQ of the latest accepted frame; `fwdFill` is what the forward
buffer held at `fwdAt`, in bytes; `takeT` is the instant T of R293. -/
structure Pair where
  own : Bool := false
  sensed : Bool := false
  psel : Bool := false
  waitRun : Option (BitVec 8 × Bool) := none
  waitAt : Nat := 0
  role : BitVec 2 := 0
  link : Bool := false
  lane0 : Bool := false
  lane1 : Bool := false
  ps : PState := .unsync
  pofs : BitVec 64 := 0
  partner : Option PairHeartbeat := none
  phealth : BitVec 64 := 0
  phealthAt : Option Nat := none
  health : BitVec 64 := 0
  hseq : BitVec 8 := 0
  disc : BitVec 8 := 0
  discTotal : Word := 0
  fwdBits : SMap Nat := []
  discRun : SMap Nat := []
  scerr : BitVec 8 := 0
  bistf : BitVec 8 := 0
  owlf : BitVec 8 := 0
  lbf : BitVec 8 := 0
  scrubs : Word := 0
  bists : Word := 0
  owlWins : Word := 0
  loops : Word := 0
  mramok : Bool := true
  /-- instants of the latest failures of the tests of R287: scrub, lane BIST, Owl test, loopback -/
  scrubBad : Option Nat := none
  bistBad : Option Nat := none
  owlBad : Option Nat := none
  loopBad : Option Nat := none
  coldNext : Bool := false
  badgok : Bool := true
  osigmm : Bool := false
  osigN : Nat := 0
  lag : Word := 0
  err : BitVec 16 := 0
  rc : BitVec 8 := 0
  rcIn : Bool := false
  relN : BitVec 16 := 0
  fwds : List Fwd := []
  iarrs : List (Nat × Word × Option Word × Nat) := []
  osigs : List (Nat × Word × BitVec 64) := []
  ownSigs : List (Nat × Word × BitVec 64) := []
  cmds : List (PairCmd × List Word) := []
  outbox : List LinkOut := []
  txSeq : Word := 0
  rxSeq : Option Word := none
  keys : List Byte := []
  fwdFill : Nat := 0
  fwdAt : Nat := 0
  autoDue : Bool := false
  takeT : BitVec 64 := 0
  joining : Bool := false
  joinReady : Bool := false
  rounds : Nat := 0
  hold : Bool := false
  gotFinal : Bool := false
  relPend : Bool := false
  switching : Bool := false
  supok : Bool := true
  joinAxes : List Word := []
  joinSt : SMap Word := []
  oldInst : SMap (List Nat) := []
  oldRet : List RetBlock := []
  presetSent : Bool := false
  lastRel : Option (BitVec 8) := none
  pdrive : Bool := false
  deriving DecidableEq, Repr

/-- A Sett channel (12 R434-R438, R449). -/
structure SettCh where
  gtot : Nat := 0
  qtot : Nat := 0
  atot : Nat := 0
  rtot : Nat := 0
  btot : Nat := 0
  blast : Nat := 0
  frate : Nat := 0
  bcnt : Nat := 0
  errp : Nat := 0
  remn : Nat := 0
  batch : Bool := false
  fidalm : Bool := false
  pherr : Bool := false
  cnterr : Bool := false
  revf : Bool := false
  revNow : Bool := false
  ovrate : Bool := false
  tmax : Bool := false
  bnum : BitVec 16 := 0
  ca : Nat := 0
  cb : Nat := 0
  good : Nat := 0
  per : Option Nat := none
  taPrev : Option Nat := none
  errSince : Bool := false
  gateQ : Nat := 0
  gateN : Nat := 0
  deriving DecidableEq, Repr

/-- Sett states (12 R441). -/
inductive SettSt where
  | boot | meter | service | fault
  deriving DecidableEq, Repr

/-- The Sett die (12). Parameters by PIDX. -/
structure Sett where
  st : SettSt := .boot
  on : Bool := true
  sealed : Bool := false
  params : SMap Nat := []
  chans : SMap SettCh := []
  saved : List (SMap SettCh) := []
  mec : Word := 0
  chk : BitVec 64 := 0
  fver : BitVec 16 := 0
  audit : List (List Word) := []
  ssec : Word := 0
  ms : Nat := 0
  tseq : Word := 0
  nverr : Bool := false
  fwerr : Bool := false
  htime : BitVec 64 := 0
  rx : RxEnd := {}
  cmds : List SettCmd := []
  replies : List SettReply := []
  verify : Option SettCmd := none
  epoch : BitVec 16 := 0
  txSeq : Word := 0
  frame : Option (Frame (List Word × List SettReply)) := none
  svc : List Byte := []
  slots : SMap Slot := []
  savedAt : Nat := 0
  deriving DecidableEq, Repr

/-- The module's boot progress (16 R535). -/
inductive BootSt where
  | running | done | dead
  deriving DecidableEq, Repr

end Sys2Proof.Machine
end

