-- ==== Sys2Proof/Machine/State.lean ====
section
/-! DEFINITION. The state of the whole block as plain data, the reasons a step can stop, and the machine after reset. -/

namespace Sys2Proof.Machine

/-- Why a step stops with a fault. -/
inductive Fault where
  /-- Raised by the meaning of a command whose operand lies outside what the spec gives that operand (WellFormed
  refuses the same commands). Safe: the hardware has no such event. -/
  | operandRange
  deriving DecidableEq, Repr

/-- Why a step is refused. -/
inductive Refusal where
  /-- Raised only by an arm of exec that has no meaning yet. Safe: the run stops. -/
  | notModelled (mnemonic : String)
  deriving DecidableEq, Repr

/-- The state of the KOL-4400 block. -/
structure State where
  /-- time since the latest power-on reset, in twelfths of a nanosecond (00 R7, 05 R190) -/
  time : Nat := 0
  /-- clock mode in effect (01 R58, 16 R534) -/
  warm : Bool := true
  /-- barrier mode in effect (01 R58) -/
  econ : Bool := false
  /-- barrier mode that takes effect at the next 125 µs cycle start (09 R327) -/
  econNext : Bool := false
  /-- boot progress (16 R535) -/
  boot : BootSt := .running
  /-- module HALT (04 R166) -/
  halted : Bool := false
  /-- a reset source waits for its module reset: source code (16 R531) -/
  resetReq : Option ResetSource := none
  /-- lanes 0-7 -/
  lanes : SMap Lane := []
  /-- LP0-LP7 -/
  lps : SMap Lp := []
  /-- tasks by 32 × LP + task -/
  tasks : SMap TaskSt := []
  /-- regions 0-3 -/
  regions : SMap Region := []
  /-- code SRAM: 8 banks, index (2 × region + bank) × 2^18 + bundle address (02 R62, R64) -/
  code : SMap (BitVec 192) := []
  /-- word data, marker, input and output images by move address (02 R68) -/
  mem : SMap Word := []
  /-- the program in effect -/
  prog : Prog := {}
  /-- committed sink values by move address or class index (04 R158, R164) -/
  sinks : SMap Word := []
  /-- MRAM (04 R141) -/
  mram : Mram := {}
  /-- per-master operand and result ports by master × 4096 + move address -/
  mports : SMap Word := []
  /-- shared result ports that one move writes: mr.v, fd.dv, st.rv by move address -/
  sports : SMap Word := []
  /-- force table (04 R173) -/
  force : SMap Force := []
  /-- retentive words written, with the time, in the last 24 h (04 R180, R181) -/
  wlog : List (Nat × Nat) := []
  /-- interrupt controller (08); sources 0x2E and 0x2F always carry TARGET 0x8 (R307) -/
  srcs : SMap Source := [(0x2E, { cfg := 0x08000000 }), (0x2F, { cfg := 0x08000000 })]
  hold : Bool := false
  hcLevels : List Level := []
  hcThr : BitVec 4 := 0
  hcErr : BitVec 16 := 0
  hcEcnt : BitVec 8 := 0
  /-- mirrors (04 R149, R185): field, axes, objects, stations, rack and Sett -/
  mrDi : Word := 0
  mrTs : BitVec 64 := 0
  mrFseq : Word := 0
  mrDiSeq : Word := 0
  mrStat : BitVec 224 := 0
  mrCtr : List Word := []
  mrAx : List Word := []
  mrObj : SMap (List Word) := []
  mrSts : SMap Nat := []
  mrFb : SMap Word := []
  mrSett : List Word := []
  /-- channels whose committed value is a forced one (04 R173, R175) -/
  outForced : BitVec 16 := 0
  flost : Bool := false
  slost : Bool := false
  psrc : Bool := false
  /-- field link, host side (09 R328-R335, R358-R361) -/
  txSeq : Word := 0
  hframe : Option (Frame HostMsg) := none
  hrx : RxEnd := {}
  hrxMsgs : List FieldMsg := []
  lbp : Word := 0
  lbpPrev : Word := 0
  fdIn : Option (Word × BitVec 8 × BitVec 8 × BitVec 16 × Bool × Bool) := none
  fdLs : BitVec 3 := 0
  fdLplus : Word := 0
  fdDovf : BitVec 8 := 0
  fdDiag : SMap Word := []
  ssackn : BitVec 8 := 0
  safeAt : BitVec 64 := 0
  reqn : BitVec 8 := 0
  reqNow : Option Masks := none
  reqNext : Masks := {}
  fdStage : SMap Masks := []
  cfgDue : Bool := false
  cfgQ : List CfgRec := []
  schedOut : List (Nat × Rec) := []
  busOut : List BusTx := []
  /-- staging of the position event table and its host-side records (05 R214-R225) -/
  ptStage : SMap (List Rec) := []
  ptHost : SMap HostEntry := []
  ptGen : BitVec 16 := 0
  ptLost : BitVec 16 := 0
  /-- field bus staging (10 R394) -/
  fbStage : SMap (List FbStage) := []
  fbSent : SMap (List Word) := []
  fbLast : SMap Nat := []
  fbSout : SMap (List Word) := []
  fbTxs : SMap Word := []
  fbRun : SMap Bool := []
  /-- Sett messages of each master (12 R452-R454) -/
  stCmds : SMap StCmd := []
  stOut : List SettCmd := []
  stTag : BitVec 8 := 0
  stSeq : Word := 0
  srx : RxEnd := {}
  /-- the units -/
  bd : Badger := Badger.afterReset
  rtc : Rtc := {}
  er : Recorder := {}
  rk : Rack := {}
  hc : HostCh := {}
  pl : Pair := {}
  ks : Ks := {}
  field : Field := {}
  sett : Sett := {}
  /-- open values drawn so far (the model's own field; notes/assumptions/11.md) -/
  free : Nat := 0
  /-- the commands that wait, first in, first out -/
  pending : List Instr := []
  deriving DecidableEq, Repr

/-- The machine right after reset: every port at its Reset value, memories empty, boot not yet carried out. Registers for
which the spec gives no reset value hold the values that the assumption log names (notes/assumptions/8.md). -/
def State.reset : State := {}

end Sys2Proof.Machine
end

