-- ==== Sys2Proof/Machine/Ops.lean ====
section
/-! DEFINITION. The named operations over the state: time, the tables' entries, memory, free values, the event recorder's
queue, interrupt arrivals and silent violations. -/

namespace Sys2Proof.Machine

/-- SM3 with the Z value of a public key over a message: the digest that an SM2 signature signs (13 R466, R475, R476, R480;
16 R540; notes/assumptions/1310.md). -/
def sm3Z (pub msg : List Byte) : List Byte := Config.sm3 (Config.zValue pub ++ msg)

/-! ### Entries of the tables -/

def State.lane (s : State) (l : Nat) : Lane := s.lanes.get (fun _ => {}) l
def State.setLane (s : State) (l : Nat) (x : Lane) : State := { s with lanes := s.lanes.set (fun _ => {}) l x }
def State.modLane (s : State) (l : Nat) (f : Lane → Lane) : State := s.setLane l (f (s.lane l))

/-- The lane-local ports that hold a value (02 R87, 03). -/
def Lane.port (x : Lane) (a : Nat) : Word := x.ports.get portDefault a
def Lane.setPort (x : Lane) (a : Nat) (v : Word) : Lane := { x with ports := x.ports.set portDefault a v }
def Lane.setPorts (x : Lane) (ps : List (Nat × Word)) : Lane := ps.foldl (fun x e => x.setPort e.1 e.2) x

def State.lp (s : State) (p : Nat) : Lp := s.lps.get (fun _ => {}) p
def State.setLp (s : State) (p : Nat) (x : Lp) : State := { s with lps := s.lps.set (fun _ => {}) p x }
def State.modLp (s : State) (p : Nat) (f : Lp → Lp) : State := s.setLp p (f (s.lp p))

/-- Task t of LP p. -/
def State.task (s : State) (p t : Nat) : TaskSt := s.tasks.get (fun _ => {}) (32 * p + t)
def State.modTask (s : State) (p t : Nat) (f : TaskSt → TaskSt) : State :=
  { s with tasks := s.tasks.set (fun _ => {}) (32 * p + t) (f (s.task p t)) }

def State.region (s : State) (r : Nat) : Region := s.regions.get (fun _ => {}) r
def State.setRegion (s : State) (r : Nat) (x : Region) : State := { s with regions := s.regions.set (fun _ => {}) r x }
def State.modRegion (s : State) (r : Nat) (f : Region → Region) : State := s.setRegion r (f (s.region r))

def State.src (s : State) (q : Nat) : Source := s.srcs.get (fun _ => {}) q
def State.modSrc (s : State) (q : Nat) (f : Source → Source) : State :=
  { s with srcs := s.srcs.set (fun _ => {}) q (f (s.src q)) }

def Prog.task (g : Prog) (p t : Nat) : TaskDesc := g.tasks.get (fun _ => {}) (32 * p + t)
def Prog.inset (g : Prog) (p : Nat) : List SetEntry := g.insets.get (fun _ => []) p
def Prog.outset (g : Prog) (p : Nat) : List SetEntry := g.outsets.get (fun _ => []) p
def Prog.init (g : Prog) (p : Nat) : Option InitDesc := g.inits.get (fun _ => none) p

/-- The input set entries of a task. -/
def Prog.taskIn (g : Prog) (p t : Nat) : List SetEntry :=
  ((g.inset p).drop (g.task p t).infirst).take (g.task p t).incnt
/-- The output set entries of a task. -/
def Prog.taskOut (g : Prog) (p t : Nat) : List SetEntry :=
  ((g.outset p).drop (g.task p t).outfirst).take (g.task p t).outcnt

/-! ### Ports kept for each master, and shared result ports -/

/-- What a per-master port reads before its master writes it: er.fslot 0xFFFF_FFFF, every other port 0 (15 R530). -/
def mportDefault (k : Nat) : Word := if k % 4096 = 0xB45 then 0xFFFFFFFF else 0

def State.mport (s : State) (m : Master) (a : Nat) : Word := s.mports.get mportDefault (m.code * 4096 + a)
def State.setMport (s : State) (m : Master) (a : Nat) (v : Word) : State :=
  { s with mports := s.mports.set mportDefault (m.code * 4096 + a) v }
def State.sport (s : State) (a : Nat) : Word := s.sports.get (fun _ => 0) a
def State.setSport (s : State) (a : Nat) (v : Word) : State := { s with sports := s.sports.set (fun _ => 0) a v }

/-! ### Free values -/

def State.draw (s : State) : State := { s with free := s.free + 1 }

/-! ### Time -/

/-- One lane cycle in twelfths of a nanosecond: 1.25 ns in Cool mode, 1.667 ns in Warm mode (00 R7). -/
def State.cycleUnits (s : State) : Nat := if s.warm then 20 else 15
/-- The block with an empty queue: time advances by one lane cycle (00 R7; notes/assumptions/1.md). -/
def State.idle (s : State) : State := { s with time := s.time + s.cycleUnits }

/-- AX0 in ns (05 R190). -/
def State.ns (s : State) : Nat := s.time / 12
def State.ax0 (s : State) : BitVec 64 := BitVec.ofNat 64 s.ns
/-- Pair time (07). -/
def State.pairTime (s : State) : BitVec 64 := s.ax0 + s.pl.pofs

/-- A saturating increment. -/
def satInc {n : Nat} (x : BitVec n) : BitVec n := if x = BitVec.allOnes n then x else x + 1
/-- A saturating addition of an amount. -/
def satAdd {n : Nat} (x : BitVec n) (k : Nat) : BitVec n :=
  if x.toNat + k ≥ 2 ^ n then BitVec.allOnes n else BitVec.ofNat n (x.toNat + k)

/-! ### Coverage and logical processors -/

/-- The region runs checked: its trail follows its lead and the Owl compares (06 R226, R249, R259). -/
def State.paired (s : State) (r : Nat) : Bool :=
  match (s.region r).cov with
  | .paired | .splitPend | .exPrep => true
  | _ => false

/-- LP p exists: its region is enabled, and an odd LP only while its region is split (01 R29, 04 R168, 06 R248). -/
def State.lpExists (s : State) (p : Nat) : Bool :=
  decide (p < 8) && regionPresent (p / 2) && (p % 2 == 0 ||
    (match (s.region (p / 2)).cov with
     | .split => true
     | .rejoin => decide ((s.region (p / 2)).back = .split)
     | _ => false))

/-- The lane that executes LP p: the odd lane for an odd LP and while an exchange left it executing (06 R260). -/
def State.laneOf (s : State) (p : Nat) : Nat :=
  if p % 2 = 0 ∧ (s.region (p / 2)).onTrail then p + 1 else p

/-- The LP that lane l executes as its lead or only lane; none for the trail of a paired region and for a lane that
executes nothing (01 R29). -/
def State.lpOfLane (s : State) (l : Nat) : Option Nat :=
  if s.lpExists l ∧ s.laneOf l = l then some l
  else if l % 2 = 1 ∧ s.lpExists (l - 1) ∧ s.laneOf (l - 1) = l then some (l - 1) else none

/-- The place of lane l's next bundle or move in the order of issue: the lanes of a split region count together, since
the stores of one region become visible in the order in which the region issued them (01 R35). -/
def State.nextSeq (s : State) (l : Nat) : Nat :=
  let o := if l % 2 = 0 then l + 1 else l - 1
  (if s.paired (l / 2) then (s.lane l).seq else max (s.lane l).seq (s.lane o).seq) + 1

/-- The code bank that lane l executes from: the active bank, or the load bank while an exchange runs (01 R30). -/
def State.bankOf (s : State) (l : Nat) : Nat :=
  let r := s.region (l / 2)
  let act := if r.active then 1 else 0
  if r.onTrail ∧ (r.cov = .exRun ∨ r.cov = .handover) ∧ l % 2 = 1 then 1 - act else act

/-- The bundle at a bundle address of lane l's bank. -/
def State.bundleAt (s : State) (l b : Nat) : BitVec 192 :=
  s.code.get (fun _ => 0) ((2 * (l / 2) + s.bankOf l) * 2 ^ 18 + b)

/-- Module state (04 R166, R182). -/
inductive MState where
  | boot | stop | run | halt
  deriving DecidableEq, Repr

def MState.code : MState → BitVec 2
  | .boot => 0 | .stop => 1 | .run => 2 | .halt => 3

/-- Some LP is in RUN. -/
def State.anyRun (s : State) : Bool := (List.range 8).any (fun p => s.lpExists p && decide ((s.lp p).st = .run))

/-- The module state (04 R166). -/
def State.mstate (s : State) : MState :=
  if s.boot ≠ .done then .boot else if s.halted then .halt else if s.anyRun then .run else .stop

/-- The code of an LP state (04 R184). -/
def LpState.code : LpState → BitVec 2
  | .boot => 0 | .stop => 1 | .run => 2 | .halt => 3

/-! ### Forces -/

/-- Force entry i (04 R173). -/
def State.forceAt (s : State) (i : Nat) : Force := s.force.get (fun _ => {}) i
/-- The number of active force entries (04 R174). -/
def State.forceCount (s : State) : Nat := (s.force.filter (fun e => e.2.en)).length
/-- At least one force entry is active (04 R175). -/
def State.forced (s : State) : Bool := s.force.any (fun e => e.2.en)

/-! ### Memory -/

/-- The word or bit at a move address (02 R68, R69; notes/assumptions/7.md). -/
def State.memGet (s : State) (a : Nat) : Word := s.mem.get (fun _ => 0) a
/-- A stored value: a bit place takes bit 0 (02 R69). -/
def storedValue (a : Nat) (v : Word) : Word := if (place a).isBit then v &&& 1 else v
/-- Write a memory place. -/
def State.memSet (s : State) (a : Nat) (v : Word) : State :=
  { s with mem := s.mem.set (fun _ => 0) a (storedValue a v) }
/-- Write consecutive memory places. -/
def State.memSetList (s : State) (a : Nat) : List Word → State
  | [] => s
  | v :: vs => (s.memSet a v).memSetList (a + 1) vs
/-- Read consecutive memory places. -/
def State.memGetList (s : State) (a n : Nat) : List Word := SMap.getList (fun _ => 0) s.mem a n

/-! ### Event records -/

/-- The record time format (15 R510): binary seconds, and the ns since the latest second increment, capped. -/
def State.recTime (s : State) : BitVec 64 :=
  BitVec.ofNat 64 (s.rtc.secs % 2 ^ 34 * 2 ^ 30 + min (s.ns - s.rtc.incAt) 999999999)

/-- TIME_INVALID (15 R518). -/
def Rtc.invalid (c : Rtc) : Bool := c.stat.getLsbD 31

/-- An event joins the recorder's queue of 64; a full queue drops it (15 R522). -/
def State.enqueue (s : State) (q : QEvent) : State :=
  if s.er.queue.length < 64 then { s with er := { s.er with queue := s.er.queue ++ [q] } }
  else { s with er := { s.er with qdrop := satInc s.er.qdrop } }

/-- An event enters the recorder's queue with its time, FORCED and TINV (15 R522). -/
def State.record (s : State) (e : Event) : State :=
  s.enqueue { ev := e, time := s.recTime, forced := s.forced, tinv := s.rtc.invalid, occurred := s.ns }

/-- An event with the parameters its home chapter gives; the others are open (15 R519; notes/assumptions/16.md). -/
def State.event (s : State) (code sev source : Nat) (ps : List Word) : State :=
  let p := fun k => ps.getD k (Config.recParam code k)
  s.record { code := BitVec.ofNat 16 code, source := BitVec.ofNat 8 source, sev := BitVec.ofNat 3 sev
             p0 := p 0, p1 := p 1, p2 := p 2 }

/-! ### Interrupt arrivals -/

/-- Sources that never arrive (08 R303). -/
def reservedSource (q : Nat) : Bool :=
  q == 0x17 || decide (0x3C ≤ q ∧ q ≤ 0x3F) || decide (0x41 ≤ q ∧ q ≤ 0x7F) || decide (256 ≤ q)

/-- One arrival of a source: CNT counts up to 255 and ASAT marks a loss; nothing is counted in BOOT (08 R304). -/
def State.arrive (s : State) (q : Nat) : State :=
  if reservedSource q ∨ s.boot ≠ .done then s
  else s.modSrc q (fun x => if x.cnt = 255 then { x with asat := true } else { x with cnt := x.cnt + 1 })

/-- k arrivals of a source. -/
def State.arriveN (s : State) (q : Nat) : Nat → State
  | 0 => s
  | k + 1 => (s.arrive q).arriveN q k

/-! ### Silent violations (13 R484-R486) -/

/-- What a violation breaks: a check of R465, or an item of R484's list; its coding in the record is open. -/
inductive Viol where
  | world | dirOrReserved | imm | unitStore | icCfg | sett | master | worlds | lcmask | usage | occ | ktype | slotLow
  deriving DecidableEq, Repr

def Viol.index : Viol → Nat
  | .world => 0 | .dirOrReserved => 1 | .imm => 2 | .unitStore => 3 | .icCfg => 4 | .sett => 5 | .master => 6
  | .worlds => 7 | .lcmask => 8 | .usage => 9 | .occ => 10 | .ktype => 11 | .slotLow => 12

/-- A violating access is counted and recorded, and has no other effect (13 R485, R486; notes/assumptions/1308.md). -/
def State.violation (s : State) (m : Master) (place : Nat) (v : Viol) : State :=
  { s with ks := { s.ks with vcnt := satInc s.ks.vcnt } }.record
    { code := 0x0803, source := 0x3B, sev := 3, p0 := Config.violWho m.code m.world.bit,
      p1 := BitVec.ofNat 32 place, p2 := Config.violWhat v.index }

/-- The master is there: a logical processor that exists, and every other master (00 R4; 04 R168). -/
def State.masterExists (s : State) (m : Master) : Bool :=
  match m with
  | .lp p => s.lpExists p.val
  | _ => true

/-- A trigger move of a master reaches a shared port: it acts if the port's row lets the master's world move into it,
and is a silent violation otherwise (00 R9, 13 R484); a logical processor that is absent makes no move. -/
def State.guarded (s : State) (m : Master) (a : Nat) (f : State → State) : State :=
  if s.masterExists m = false then s
  else if mayWrite m.world a then f s
  else s.violation m a (if (portRow a).any (fun r => decide (r.dir ≠ .res)) then .world else .dirOrReserved)

/-- Take the low nibble list of a word list as a function: word i of a list, 0 beyond its end. -/
def wordAt (ws : List Word) (i : Nat) : Word := ws.getD i 0

/-- A 64-bit value from its low and high word. -/
def long (lo hi : Word) : BitVec 64 := hi ++ lo
/-- The low and the high word of a 64-bit value. -/
def loWord (x : BitVec 64) : Word := x.extractLsb' 0 32
def hiWord (x : BitVec 64) : Word := x.extractLsb' 32 32

/-- 0 or 1. -/
def bit (b : Bool) : Word := if b then 1 else 0
/-- A field of a word at bit k. -/
def at_ (k : Nat) (v : Nat) : Word := BitVec.ofNat 32 (v * 2 ^ k)
/-- A flag at bit k. -/
def flagAt (k : Nat) (b : Bool) : Word := if b then BitVec.ofNat 32 (2 ^ k) else 0
/-- Bits hi to lo of a word as a number. -/
def fld (w : Word) (hi lo : Nat) : Nat := w.toNat / 2 ^ lo % 2 ^ (hi - lo + 1)

/-- Little-endian words of bytes, the last word filled with zeros. -/
def wordsOfBytes : List Byte → List Word
  | [] => []
  | [a] => [(0 : BitVec 24) ++ a]
  | [a, b] => [(0 : BitVec 16) ++ b ++ a]
  | [a, b, c] => [(0 : BitVec 8) ++ c ++ b ++ a]
  | a :: b :: c :: d :: t => (d ++ c ++ b ++ a) :: wordsOfBytes t

/-- The four bytes of a word, little-endian. -/
def bytesOfWord (w : Word) : List Byte :=
  [w.extractLsb' 0 8, w.extractLsb' 8 8, w.extractLsb' 16 8, w.extractLsb' 24 8]
def bytesOfWords (ws : List Word) : List Byte := ws.flatMap bytesOfWord

end Sys2Proof.Machine
end

