-- ==== Sys2Proof/Machine/Recorder.lean ====
section
/-! DEFINITION. The event recorder: records, repeats, rate limits, the full area, reading, user records (15 R519-R530). -/

namespace Sys2Proof.Machine

/-- CRC-16 of one byte: polynomial 0x1021, most significant bit first (11 R398). -/
def crcBits : Nat → BitVec 16 → BitVec 16
  | 0, c => c
  | n + 1, c => crcBits n (if c.msb then (c <<< 1) ^^^ 0x1021 else c <<< 1)
def crc16 (bs : List Byte) : BitVec 16 := bs.foldl (fun c b => crcBits 8 (c ^^^ (b ++ (0 : Byte)))) 0xFFFF

/-- Record r of the area: eight words, empty where its CODE is 0 (15 R519). -/
def State.recordAt (s : State) (i : Nat) : List Word := s.mram.records.get (fun _ => []) i
def recCode (ws : List Word) : Nat := fld (wordAt ws 1) 31 16
def recSev (ws : List Word) : Nat := fld (wordAt ws 1) 7 5

/-- Words 0-7 of a record with its CRC (15 R519). -/
def recordWords (seq : Word) (e : Event) (forced tinv : Bool) (time : BitVec 64) (repeats : BitVec 16) : List Word :=
  let body := [seq, at_ 16 e.code.toNat ||| at_ 8 e.source.toNat ||| at_ 5 e.sev.toNat ||| flagAt 4 forced ||| flagAt 2 tinv,
               loWord time, hiWord time, e.p0, e.p1, e.p2]
  body ++ [at_ 16 repeats.toNat ||| (crc16 (bytesOfWords body ++ [repeats.extractLsb' 0 8, repeats.extractLsb' 8 8])).setWidth 32]

/-- A record's event, read back. -/
def recEvent (ws : List Word) : Event :=
  let w := wordAt ws 1
  { code := w.extractLsb' 16 16, source := w.extractLsb' 8 8, sev := w.extractLsb' 5 3
    p0 := wordAt ws 4, p1 := wordAt ws 5, p2 := wordAt ws 6 }

/-- Nanoseconds since 2000 of a time in the record time format (15 R510). -/
def timeNs (t : BitVec 64) : Nat := t.toNat / 2 ^ 30 * 1000000000 + t.toNat % 2 ^ 30

/-- The codes with a rate limit (15 R524). -/
def rateCodes : List Nat := [0x0202, 0x0505, 0x0707, 0x0803]

/-- Among the records with SEV at most s, the slot of the lowest SEV and then the lowest SEQ (15 R525). -/
def victim (s : Nat) (recs : SMap (List Word)) : Option Nat :=
  (recs.foldl (fun (best : Option (Nat × Nat × Nat)) e =>
    let k := (recSev e.2, (wordAt e.2 0).toNat, e.1)
    if recCode e.2 = 0 ∨ recSev e.2 > s then best
    else match best with
      | none => some k
      | some b => if k.1 < b.1 ∨ (k.1 = b.1 ∧ k.2.1 < b.2.1) then some k else best) none).map (fun b => b.2.2)

/-- The slot of a new record of severity s (15 R525); none where every slot is taken by a higher severity. -/
def State.newSlot (s : State) (sev : Nat) : Option Nat :=
  if s.er.cnt = 0 then some 0
  else if s.er.cnt < 65536 then some ((s.er.newestSlot.toNat + 1) % 65536)
  else victim sev s.mram.records

/-- Write a new record (15 R522, R525). -/
def State.newRecord (s : State) (q : QEvent) : State :=
  match s.newSlot q.ev.sev.toNat with
  | none => { s with er := { s.er with fdrop := satInc s.er.fdrop } }
  | some i =>
    let recs := s.mram.records.set (fun _ => []) i (recordWords s.er.nseq q.ev q.forced q.tinv q.time 0)
    { s with
      mram := { s.mram with records := recs }
      er := { s.er with nseq := s.er.nseq + 1, newestSlot := BitVec.ofNat 16 i
                        cnt := if s.er.cnt < 65536 then s.er.cnt + 1 else s.er.cnt
                        newest := some { slot := i, ev := q.ev, first := timeNs q.time } } }

/-- Update the newest record for a repeat (15 R523): REPEAT counts up to 65,535, TIME bits [29:0] hold LDELTA in ms,
FORCED gathers. -/
def State.repeatRecord (s : State) (n : Newest) (q : QEvent) : State :=
  let ws := s.recordAt n.slot
  let w1 := wordAt ws 1
  let delta := min ((timeNs q.time - n.first) / 1000000) 0x3FFFFFFF
  let time := BitVec.ofNat 64 ((long (wordAt ws 2) (wordAt ws 3)).toNat / 2 ^ 30 * 2 ^ 30 + delta)
  let out := recordWords (wordAt ws 0) n.ev (w1.getLsbD 4 || q.forced) (w1.getLsbD 2) time
    (satInc ((wordAt ws 7).extractLsb' 16 16))
  { s with mram := { s.mram with records := s.mram.records.set (fun _ => []) n.slot out } }

/-- What the recorder does with the head of its queue (15 R522-R525): a repeat of the newest record, a suppression in a
full rate window, or a new record. -/
def State.writeEntry (s : State) (q : QEvent) : State :=
  let c := q.ev.code.toNat
  match s.er.newest with
  | some n =>
    if n.ev = q.ev then s.repeatRecord n q
    else if rateCodes.contains c then
      if s.er.winNew.get (fun _ => 0) c < 8 then
        { s with er := { s.er with winNew := s.er.winNew.set (fun _ => 0) c (s.er.winNew.get (fun _ => 0) c + 1) } }.newRecord q
      else { s with er := { s.er with supp := s.er.supp.set (fun _ => 0) c (satInc (s.er.supp.get (fun _ => 0) c)) } }
    else s.newRecord q
  | none =>
    if rateCodes.contains c then
      { s with er := { s.er with winNew := s.er.winNew.set (fun _ => 0) c (s.er.winNew.get (fun _ => 0) c + 1) } }.newRecord q
    else s.newRecord q

/-- RECORD_WRITE (15 R522): nothing while the boot scan or a clear runs, or while the queue is empty. -/
def recordWrite (s : State) : State :=
  if s.er.scan ∨ s.er.clr then s
  else match s.er.queue with
    | [] => s
    | q :: t => { s with er := { s.er with queue := t } }.writeEntry q

/-- One RATE_SUMMARY for a code with suppressed events (15 R524). -/
def State.rateSummary (s : State) (k : Nat) (c : Nat) : State :=
  let n := s.er.supp.get (fun _ => 0) c
  if n = 0 then s
  else { s with er := { s.er with supp := s.er.supp.set (fun _ => 0) c 0 } }.record
    { code := 0x0002, source := 0x3E, sev := 2, p0 := BitVec.ofNat 32 c, p1 := n, p2 := BitVec.ofNat 32 k }

/-- RATE_WINDOW_END (15 R524): the window that has just ended is k; its counts start again. -/
def rateWindowEnd (s : State) : State :=
  let k := (s.ns - 1) / 1000000000
  let s' := rateCodes.foldl (fun t c => t.rateSummary k c) s
  { s' with er := { s'.er with winNew := [] } }

/-- ER_RD (15 R526). -/
def erRead (m : Master) (s : State) : State :=
  s.setMport m 0xB43 (wordAt (s.recordAt (s.mport m 0xB40).toNat) (s.mport m 0xB41).toNat)

/-- The slot of the record with the smallest (SEQ − n) mod 2^32 below (er.nseq − n) mod 2^32 (15 R526). -/
def findRecord (recs : SMap (List Word)) (n nseq : Word) : Option Nat :=
  (recs.foldl (fun (best : Option (Nat × Nat)) e =>
    let d := (wordAt e.2 0 - n).toNat
    if recCode e.2 = 0 ∨ d ≥ (nseq - n).toNat then best
    else match best with
      | none => some (d, e.1)
      | some b => if d < b.1 then some (d, e.1) else best) none).map (fun b => b.2)

/-- ER_FIND (15 R526). -/
def erFindOp (m : Master) (v : Word) (s : State) : State :=
  s.setMport m 0xB45 (match findRecord s.mram.records v s.er.nseq with
    | some i => BitVec.ofNat 32 i
    | none => 0xFFFFFFFF)

/-- ER_LOG (15 R527): a user record of the master, if the code is a user code and bits [15:3] are 0. -/
def erLogOp (m : Master) (v : Word) (s : State) : State :=
  let c := fld v 31 16
  if 0xF000 ≤ c ∧ c ≤ 0xFFFE ∧ fld v 15 3 = 0 then
    s.record { code := BitVec.ofNat 16 c, source := m.source, sev := v.extractLsb' 0 3
               p0 := s.mport m 0xB50, p1 := s.mport m 0xB51, p2 := s.mport m 0xB52 }
  else s

/-- What a slot with a stored record holds after the boot scan (15 R528): a failed CRC empties it, WIP becomes 0. -/
def scanSlot (ws : List Word) : List Word :=
  let w1 := wordAt ws 1
  if recCode ws = 0 then [] else
  let body := [wordAt ws 0, w1 &&& ~~~(8 : Word), wordAt ws 2, wordAt ws 3, wordAt ws 4, wordAt ws 5, wordAt ws 6]
  let rep := (wordAt ws 7).extractLsb' 16 16
  if (wordAt ws 7).extractLsb' 0 16 = crc16 (bytesOfWords body ++ [rep.extractLsb' 0 8, rep.extractLsb' 8 8]) then
    body ++ [wordAt ws 7] else []

/-- The newest slot: the record that no other follows within half of the SEQ range (15 R528). -/
def newestOf (recs : SMap (List Word)) : Option (Nat × List Word) :=
  recs.foldl (fun best e =>
    match best with
    | none => some e
    | some b => if (wordAt e.2 0 - wordAt b.2 0).toNat < 2 ^ 31 then some e else some b) none

/-- The boot scan (15 R528): the ports show what it found; nothing found leaves SEQ 0 and slot 0 (notes/assumptions/1501.md). -/
def State.bootScan (s : State) : State :=
  let recs := (s.mram.records.map (fun e => (e.1, scanSlot e.2))).filter (fun e => e.2 ≠ [])
  let bad := (s.mram.records.filter (fun e => recCode e.2 ≠ 0 ∧ scanSlot e.2 = [])).length
  let s := { s with mram := { s.mram with records := recs } }
  let er := { s.er with scan := false, bad := BitVec.ofNat 16 (min bad 65535), cnt := recs.length }
  match newestOf recs with
  | none => { s with er := { er with nseq := 0, newestSlot := 0, newest := none } }
  | some (i, ws) =>
    let t := long (wordAt ws 2) (wordAt ws 3)
    let first := if fld (wordAt ws 7) 31 16 = 0 then timeNs t
                 else t.toNat / 2 ^ 30 * 1000000000 + Config.freeNat s.free % 1000000000
    { s.draw with er := { er with nseq := wordAt ws 0 + 1, newestSlot := BitVec.ofNat 16 i
                                  newest := some { slot := i, ev := recEvent ws, first := first } } }

/-- The reads of the recorder's ports (15 R530). -/
def erPort (s : State) (m : Master) (a : Nat) : Word :=
  match a with
  | 0xB48 => s.er.nseq
  | 0xB49 => s.er.newestSlot.setWidth 32
  | 0xB4A => BitVec.ofNat 32 s.er.cnt
  | 0xB4B => s.er.qdrop ++ s.er.fdrop
  | 0xB4C => flagAt 31 s.er.scan ||| flagAt 30 s.er.clr ||| flagAt 29 (decide (s.er.cnt = 65536)) ||| s.er.bad.setWidth 32
  | _ => s.mport m a

end Sys2Proof.Machine
end

