-- ==== Sys2Proof/Machine/Clock.lean ====
section
/-! DEFINITION. The clock: calendar, snapshot, set, trim, alarms, backup supply (15 R505-R518). -/

namespace Sys2Proof.Machine

/-- The day count of 400 Gregorian years (15 R509). -/
def daysIn400 : Nat := 146097
/-- Seconds until the rollover after 2399-12-31 23:59:59 (15 R512). -/
def secondsIn400 : Nat := daysIn400 * 86400

/-- A leap year, by its offset from 2000 (15 R509). -/
def leap (y : Nat) : Bool := decide (y % 4 = 0 ∧ (y % 100 ≠ 0 ∨ y % 400 = 0))
/-- The days of a month (15 R509). -/
def monthDays (y m : Nat) : Nat := if m = 2 then (if leap y then 29 else 28) else if m = 4 ∨ m = 6 ∨ m = 9 ∨ m = 11 then 30 else 31
/-- Days before year y since 2000-01-01. -/
def daysBeforeYear (y : Nat) : Nat := 365 * y + (y + 3) / 4 - (y + 99) / 100 + (y + 399) / 400
/-- Days before month m in year y. -/
def daysBeforeMonth (y m : Nat) : Nat := ((List.range (m - 1)).map (fun k => monthDays y (k + 1))).sum

/-- A calendar date and time. -/
structure Cal where
  y : Nat
  mon : Nat
  day : Nat
  wday : Nat
  hour : Nat
  min : Nat
  sec : Nat
  deriving DecidableEq, Repr

/-- The binary seconds of a calendar time (15 R509). -/
def Cal.secs (c : Cal) : Nat :=
  (daysBeforeYear c.y + daysBeforeMonth c.y c.mon + (c.day - 1)) * 86400 + c.hour * 3600 + c.min * 60 + c.sec

/-- The largest k below n, at least 0, with f k at most d. -/
def lastLe (f : Nat → Nat) (d : Nat) : Nat → Nat
  | 0 => 0
  | n + 1 => if f n ≤ d then n else lastLe f d n

/-- The calendar time of binary seconds (15 R509); weekdays count from Monday = 1, and 2000-01-01 was a Saturday. -/
def calOf (t : Nat) : Cal :=
  let d := t / 86400 % daysIn400
  let r := t % 86400
  let y := lastLe daysBeforeYear d (min 400 (d / 365 + 1))
  let dy := d - daysBeforeYear y
  let mon := lastLe (fun k => daysBeforeMonth y (k + 1)) dy 12 + 1
  { y := y, mon := mon, day := dy - daysBeforeMonth y mon + 1, wday := (d + 5) % 7 + 1
    hour := r / 3600, min := r / 60 % 60, sec := r % 60 }

/-- The time and date words (15 R517). -/
def Cal.timeWord (c : Cal) : Word := at_ 24 c.wday ||| at_ 16 c.hour ||| at_ 8 c.min ||| at_ 0 c.sec
def Cal.dateWord (c : Cal) : Word := at_ 16 c.y ||| at_ 8 c.mon ||| at_ 0 c.day

/-- The fields of a time word and a date word (15 R517). -/
def calFields (t d : Word) : Cal :=
  { y := fld d 24 16, mon := fld d 11 8, day := fld d 4 0, wday := fld t 26 24
    hour := fld t 20 16, min := fld t 13 8, sec := fld t 5 0 }

/-- A time that a set accepts (15 R509, R511). -/
def Cal.ok (c : Cal) : Bool :=
  decide (c.y ≤ 399 ∧ 1 ≤ c.mon ∧ c.mon ≤ 12 ∧ 1 ≤ c.day ∧ c.day ≤ monthDays c.y c.mon ∧ c.hour ≤ 23 ∧ c.min ≤ 59 ∧ c.sec ≤ 59)

/-! ### Trim (15 R514) -/

/-- The ticks of a trim window. -/
def windowTicks : Nat := 4194304

/-- How many ticks before position p of a window the trim adjusts: those at ⌊k × 4,194,304 / |t|⌋. -/
def trimmedBefore (t : BitVec 12) (p : Nat) : Nat := (p * t.toInt.natAbs + (windowTicks - 1)) / windowTicks

/-- What n ticks from position p of a window advance the count by: an added tick by 2, a skipped one by 0. -/
def trimCount (t : BitVec 12) (p n : Nat) : Nat :=
  let k := trimmedBefore t (p + n) - trimmedBefore t p
  if t.msb then n - k else n + k

/-- What the next n ticks advance the count by; a written trim takes effect at the next window start. -/
def Rtc.countOf (c : Rtc) (n : Nat) : Nat :=
  let left := windowTicks - c.window
  if n ≤ left then trimCount c.trimEff c.window n else trimCount c.trimEff c.window left + trimCount c.trim 0 (n - left)

/-- The clock after n ticks of its window. -/
def Rtc.ticked (c : Rtc) (n : Nat) : Rtc :=
  let p := c.window + n
  { c with window := p % windowTicks, trimEff := if p < windowTicks then c.trimEff else c.trim }

/-- The ticks until the second is full: the trim adjusts at most 17 of them. -/
def Rtc.ticksToSecond (c : Rtc) : Nat :=
  let need := 32768 - c.ticks
  need - 40 + (((List.range 80).find? (fun k => decide (need ≤ c.countOf (need - 40 + k)))).getD 0)

/-! ### Snapshot, set and alarms (15 R511, R513, R515) -/

/-- DATE_REJ := 1 (15 R518). -/
def State.dateRej (s : State) : State := { s with rtc := { s.rtc with stat := s.rtc.stat ||| 0x40000000 } }

/-- RT_SNAP (15 R513): the master's four snapshot ports take one instant. -/
def rtSnapOp (m : Master) (s : State) : State :=
  let c := calOf s.rtc.secs
  let t := s.recTime
  (((s.setMport m 0xB01 c.timeWord).setMport m 0xB02 c.dateWord).setMport m 0xB03 (loWord t)).setMport m 0xB04 (hiWord t)

/-- RT_SET (15 R511): checked whole; an accepted set restarts the tick counter and clears TIME_INVALID, and the trim window
runs on: how far it has run since the latest second is open (notes/assumptions/1504.md). -/
def rtSetOp (m : Master) (s : State) : State :=
  let c := calFields s.rtc.wtim s.rtc.wdat
  if c.ok then
    let run := Config.freeNat s.free % 32768
    { s.draw with rtc := { s.rtc.ticked run with secs := c.secs, ticks := 0, stat := s.rtc.stat &&& 0x7FFFFFFF } }.record
      { code := 0x0004, source := 0x08, sev := 3, p0 := BitVec.ofNat 32 s.rtc.secs, p1 := BitVec.ofNat 32 c.secs
        p2 := m.source.setWidth 32 }
  else s.dateRej

/-- An alarm time or date field set within the ranges of R509 (15 R515). -/
def alarmOk (date : Bool) (v : Word) : Bool :=
  if date then decide (1 ≤ fld v 11 8 ∧ fld v 11 8 ≤ 12 ∧ 1 ≤ fld v 4 0 ∧ fld v 4 0 ≤ 31)
  else decide (1 ≤ fld v 26 24 ∧ fld v 26 24 ≤ 7 ∧ fld v 20 16 ≤ 23 ∧ fld v 13 8 ≤ 59 ∧ fld v 5 0 ≤ 59)

/-- ALARM_WRITE at rt.a0tim, rt.a0dat, rt.a1tim or rt.a1dat (15 R515, R517): reserved bits and YOFS read 0. -/
def alarmOp (a : Nat) (v : Word) (s : State) : State :=
  let k := (a - 0xB10) / 2
  if a % 2 = 0 then
    if alarmOk false v then { s with rtc := { s.rtc with atim := s.rtc.atim.set k (v &&& 0x071F3F3F) } } else s.dateRej
  else
    if alarmOk true v then { s with rtc := { s.rtc with adat := s.rtc.adat.set k (v &&& 0xFE000F1F) } } else s.dateRej

/-- Whether alarm k matches a time (15 R515): every field whose mask bit is 1 is equal. -/
def Rtc.alarmMatch (c : Rtc) (k : Nat) (t : Cal) : Bool :=
  let d := wordAt c.adat k
  let w := wordAt c.atim k
  d.getLsbD 31 &&
  (!d.getLsbD 30 || decide (fld w 26 24 = t.wday)) && (!d.getLsbD 29 || decide (fld d 11 8 = t.mon)) &&
  (!d.getLsbD 28 || decide (fld d 4 0 = t.day)) && (!d.getLsbD 27 || decide (fld w 20 16 = t.hour)) &&
  (!d.getLsbD 26 || decide (fld w 13 8 = t.min)) && (!d.getLsbD 25 || decide (fld w 5 0 = t.sec))

/-- Alarm k sets its flag and raises its source (15 R515). -/
def State.alarm (s : State) (k : Nat) : State :=
  if s.rtc.alarmMatch k (calOf s.rtc.secs) then
    { s with rtc := { s.rtc with stat := s.rtc.stat ||| (if k = 0 then 0x10000000 else 0x20000000) } }.arrive (0x15 + k)
  else s

/-- SECOND_INCREMENT (15 R509, R512, R514, R515): the ticks of a second pass, and the count that an added tick brings above it
stays. -/
def secondIncrementOp (s : State) : State :=
  let roll := decide (s.rtc.secs + 1 ≥ secondsIn400)
  let n := s.rtc.ticksToSecond
  let t := { s with rtc := { s.rtc.ticked n with
    secs := if roll then 0 else s.rtc.secs + 1, incAt := s.ns, ticks := s.rtc.ticks + s.rtc.countOf n - 32768
    stat := if roll then s.rtc.stat ||| 0x80000000 else s.rtc.stat } }
  (t.alarm 0).alarm 1

/-! ### Supply (15 R506-R508) -/

/-- BSRC and CELLLOW for voltages in mV: the higher of VBAK and the cell is the backup source (15 R506, R518). -/
def backupFlags (vcell vbak : Nat) : Word := flagAt 25 (decide (vcell < vbak)) ||| flagAt 24 (decide (vcell < 2500))

/-- SWITCH_TO_BACKUP (15 R506, R507, R518): with voltages in mV that meet the switch condition. -/
def switchToBackupOp (vmain vcell vbak : Nat) (s : State) : State :=
  let c := s.rtc
  let stat := (c.stat &&& 0xFCFFFFFF) ||| backupFlags vcell vbak
  if !c.stat.getLsbD 27 ∧ (vmain + 50 < max vcell vbak ∨ vmain < 2700) then
    { s with rtc := { c with stat := stat ||| 0x0C000000, bkin := BitVec.ofNat 32 c.secs } }
  else { s with rtc := { c with stat := stat } }

/-- RETURN_TO_MAIN (15 R506, R507, R518): with voltages in mV that meet the return condition. -/
def returnToMainOp (vmain vcell vbak : Nat) (s : State) : State :=
  let c := s.rtc
  let stat := (c.stat &&& 0xFCFFFFFF) ||| backupFlags vcell vbak
  if c.stat.getLsbD 27 ∧ max vcell vbak + 100 < vmain ∧ 2900 < vmain then
    { s with rtc := { c with stat := stat &&& 0xF7FFFFFF, bkout := BitVec.ofNat 32 c.secs } }
  else { s with rtc := { c with stat := stat } }

/-- CLOCK_DOMAIN_RESET (15 R505, R508): every clock domain port at its Reset value; the next boot records it. -/
def clockDomainResetOp (s : State) : State :=
  { s with rtc := { incAt := s.ns, clkReset := true } }

/-- A move into rt.stat clears the flags written as 1 (15 R518). -/
def rtStatWrite (v : Word) (s : State) : State :=
  { s with rtc := { s.rtc with stat := s.rtc.stat &&& ~~~(v &&& 0x74000000) } }

/-- The reads of the clock's ports (15 R516). -/
def rtPort (s : State) (m : Master) (a : Nat) : Word :=
  match a with
  | 0xB06 => s.rtc.stat
  | 0xB0C => s.rtc.trim.setWidth 32
  | 0xB10 => wordAt s.rtc.atim 0
  | 0xB11 => wordAt s.rtc.adat 0
  | 0xB12 => wordAt s.rtc.atim 1
  | 0xB13 => wordAt s.rtc.adat 1
  | 0xB18 => s.rtc.bkin
  | 0xB19 => s.rtc.bkout
  | _ => s.mport m a

/-- The moves into the clock's ports that are no trigger (15 R516). -/
def rtWrite (a : Nat) (v : Word) (s : State) : State :=
  match a with
  | 0xB06 => rtStatWrite v s
  | 0xB08 => { s with rtc := { s.rtc with wtim := v } }
  | 0xB09 => { s with rtc := { s.rtc with wdat := v } }
  | 0xB0C => { s with rtc := { s.rtc with trim := v.setWidth 12 } }
  | _ => alarmOp a v s

end Sys2Proof.Machine
end

