-- ==== Sys2Proof/Machine/Intc.lean ====
section
/-! DEFINITION. The interrupt controller: configuration, delivery decisions, completion, hold and ports (08). -/

namespace Sys2Proof.Machine

/-- The fields of a configuration word (08 R305). -/
def Source.level (x : Source) : Nat := fld x.cfg 31 28
def Source.target (x : Source) : Nat := fld x.cfg 27 24
def Source.taskMode (x : Source) : Bool := x.cfg.getLsbD 23
def Source.vector (x : Source) : Nat := fld x.cfg 17 0

/-- The running level of a level record (08 R308). -/
def runningLevel (ls : List Level) : Nat := (ls.head?.map (fun l => l.level)).getD 0

/-- The level record and the threshold of a target (08 R308). -/
def State.levelsOf (s : State) (t : Nat) : List Level := if t < 8 then (s.lp t).levels else s.hcLevels
def State.thrOf (s : State) (t : Nat) : Nat := if t < 8 then (s.lp t).thr.toNat else s.hcThr.toNat
def State.setLevels (s : State) (t : Nat) (ls : List Level) : State :=
  if t < 8 then s.modLp t (fun p => { p with levels := ls }) else { s with hcLevels := ls }

/-- Source q can be delivered as a handler to target t above level `rl` (08 R308). -/
def State.handlerReady (s : State) (t rl q : Nat) : Bool :=
  let x := s.src q
  decide (x.cnt ≠ 0) && !x.taskMode && decide (x.target = t) && decide (s.thrOf t < x.level) && decide (rl < x.level) &&
  !x.active && !s.hold

/-- The source that is delivered first to target t above level `rl`: the highest LEVEL, then the lowest number
(08 R308). -/
def State.bestSource (s : State) (t rl : Nat) : Option Nat :=
  (List.range 256).foldl (fun best q =>
    if s.handlerReady t rl q then
      match best with
      | none => some q
      | some b => if (s.src b).level < (s.src q).level then some q else some b
    else best) none

/-- At delivery CNT is latched as the entry count and cleared, the source becomes ACTIVE and its level running
(08 R309). -/
def State.deliver (s : State) (t q : Nat) : State :=
  let x := s.src q
  (s.modSrc q (fun y => { y with cnt := 0, active := true })).setLevels t
    ({ level := x.level, src := q, ecnt := x.cnt } :: s.levelsOf t)

/-- The top of a target's level record leaves it (08 R316). -/
def State.popLevel (s : State) (t : Nat) : State := s.setLevels t (s.levelsOf t).tail

/-- When LP p leaves RUN its level record empties and its ACTIVE sources become inactive (08 R319). -/
def State.dropActive (s : State) (p : Nat) : State :=
  (List.range 256).foldl (fun s q => if (s.src q).target = p then s.modSrc q (fun x => { x with active := false }) else s)
    (s.setLevels p [])

/-- The configuration that source q takes: reserved bits read 0, and 0x2E and 0x2F stay with the house core
(00 R12; 08 R305, R307). -/
def cfgWord (q : Nat) (v : Word) : Word :=
  let w := v &&& 0xFF83FFFF
  if q = 0x2E ∨ q = 0x2F then (w &&& 0xF0FFFFFF) ||| 0x08000000 else w

/-- IC_CFG (08 R305, R307): a PROGRAM-world write acts only within its own target; a change of TARGET or MODE of an
ACTIVE source is ignored whole. -/
def icCfgOp (m : Master) (v : Word) (s : State) : State :=
  let q := (s.mport m 0x400).toNat % 256
  let x := s.src q
  let w := cfgWord q v
  if m.world = .program ∧ (x.target ≠ m.target ∨ fld w 27 24 ≠ m.target) then s.violation m 0x401 .icCfg
  else if reservedSource q then s
  else if x.active ∧ (fld w 27 24 ≠ x.target ∨ w.getLsbD 23 ≠ x.taskMode) then s
  else s.modSrc q (fun y => { y with cfg := w })

/-- A completion error of a target (08 R318). -/
def State.doneError (s : State) (t : Nat) : State :=
  if t < 8 then s.modLp t (fun p => { p with err := satInc p.err }) else { s with hcErr := satInc s.hcErr }

/-- IC_DONE (08 R318). The house core's own level record falls with its completion (notes/assumptions/801.md). -/
def icDoneOp (m : Master) (v : Word) (s : State) : State :=
  let q := fld v 7 0
  if fld v 31 8 = 0 ∧ (s.src q).active ∧ (s.src q).target = m.target then
    let s := s.modSrc q (fun y => { y with active := false })
    if m.target = 8 then { s with hcLevels := s.hcLevels.filter (fun l => l.src ≠ q) } else s
  else s.doneError m.target

/-- IC_RAISE (08 R324). -/
def icRaiseOp (v : Word) (s : State) : State := if fld v 31 8 = 0 ∧ 0x80 ≤ fld v 7 0 then s.arrive (fld v 7 0) else s

/-- IC_CLR (08 R324). -/
def icClrOp (v : Word) (s : State) : State :=
  if fld v 31 8 = 0 then s.modSrc (fld v 7 0) (fun y => { y with cnt := 0, asat := false }) else s

/-- IC_HOLD (08 R320). -/
def icHoldOp (v : Word) (s : State) : State := { s with hold := v.getLsbD 0 }

/-- A move into ic.thr (08 R308, R318). -/
def icThrOp (m : Master) (v : Word) (s : State) : State :=
  if m.target < 8 then s.modLp m.target (fun p => { p with thr := v.setWidth 4 }) else { s with hcThr := v.setWidth 4 }

/-- The pending sources 32k to 32k + 31 (08 R324). -/
def State.pmap (s : State) (k : Nat) : Word :=
  (List.range 32).foldl (fun w j => w ||| flagAt j (decide ((s.src (32 * k + j)).cnt ≠ 0))) 0

/-- The reads of the controller's ports (08 R324-R326). -/
def icPort (s : State) (m : Master) (a : Nat) : Word :=
  let q := (s.mport m 0x400).toNat % 256
  let x := s.src q
  match a with
  | 0x401 => x.cfg
  | 0x402 => flagAt 9 x.active ||| flagAt 8 x.asat ||| x.cnt.setWidth 32
  | 0x408 => BitVec.ofNat 32 (s.thrOf m.target)
  | 0x409 => bit s.hold
  | 0x40A =>
    match (s.levelsOf m.target).head? with
    | some l => flagAt 16 true ||| at_ 8 l.src ||| at_ 0 l.level
    | none => 0
  | 0x40B =>
    match (s.levelsOf m.target).head? with
    | some l => l.ecnt.setWidth 32
    | none => if m.target < 8 then (s.lp m.target).taskEcnt.setWidth 32 else s.hcEcnt.setWidth 32
  | 0x40C => if m.target < 8 then (s.lp m.target).err.setWidth 32 else s.hcErr.setWidth 32
  | _ => s.pmap (a - 0x410)

end Sys2Proof.Machine
end

