-- ==== Sys2Proof/Machine/RackBase.lean ====
section
/-! DEFINITION. What the module state needs of the rack bus: its section, its boards, mastership and RLOST (11 R399,
R406, R408). -/

namespace Sys2Proof.Machine

/-! ### The RACK section (11 R399, R400) -/

/-- Word k of board b's entry. -/
def boardWord (sect : List Word) (b k : Nat) : Word := wordAt sect (8 * b + k)
def boardOn (sect : List Word) (b : Nat) : Bool := decide (1 ≤ b ∧ b ≤ 20) && (boardWord sect b 0).getLsbD 31
def boardOpt (sect : List Word) (b : Nat) : Bool := (boardWord sect b 0).getLsbD 30

def Rack.board (r : Rack) (b : Nat) : Board := r.boards.get (fun _ => {}) b
/-- The enabled boards. -/
def Rack.enabled (r : Rack) : List Nat := (List.range 21).filter (fun b => boardOn r.sect b)

/-- Rack master (11 R408). -/
def State.rackMaster (s : State) : Bool := s.pl.own && decide (s.rk.sect ≠ [])

/-- RLOST follows mastership and the boards that may not be absent; a change raises RLOSTCH (11 R406). -/
def State.refreshRlost (s : State) : State :=
  let v := s.rackMaster && s.rk.enabled.any (fun b => !boardOpt s.rk.sect b && decide ((s.rk.board b).st ≠ .ok))
  if v = s.rk.rlost then s else { s with rk := { s.rk with rlost := v } }.arrive 0x1F

/-! ### The control-token line and the role (07 R270) -/

def Slot.occ (x : Slot) : Bool := x.attr0.getLsbD 31
def State.slot (s : State) (k : Nat) : Slot := s.ks.slots.get (fun _ => {}) k
/-- The module is pair-provisioned: K4 and K5 are occupied (07 R270, 13 R462). -/
def State.provisioned (s : State) : Bool := (s.slot 4).occ && (s.slot 5).occ

/-- The role follows the pair key slots and the line: SOLO, ACTIVE or STANDBY (07 R270). -/
def State.refreshRole (s : State) : State :=
  { s with pl := { s.pl with role := if s.provisioned then (if s.pl.own then 1 else 2) else 0 } }

/-- The module releases the control-token line: it is no longer rack master, writes no board outputs and drives no rack line (01 R53; 07 R270;
11 R406, R408). -/
def State.dropToken (s : State) : State :=
  ({ s with pl := { s.pl with own := false }, rk := { s.rk with running := false, rreset := false } }.refreshRole).refreshRlost

end Sys2Proof.Machine
end

