-- ==== Sys2Proof/Machine/Logical.lean ====
section
/-! DEFINITION. Logical processors: triggers, leaving RUN, halting, module HALT, and the end of a long host operation
(04 R154, R165, R166; 06 R265; 11 R424-R426). -/

namespace Sys2Proof.Machine

/-! ### The end of a long operation -/

/-- The code of a reply status (11 R419). -/
def RStat.code : RStat → BitVec 16
  | .ok => 0 | .busy => 1 | .role => 2 | .badreq => 3 | .refused => 4 | .aborted => 5 | .state => 6

def State.session (s : State) (i : Nat) : Session := s.hc.sess.get (fun _ => {}) i
def State.setSession (s : State) (i : Nat) (x : Session) : State :=
  { s with hc := { s.hc with sess := s.hc.sess.set (fun _ => {}) i x } }

/-- The header of a record with n bytes after it (11 R415). -/
def recordHeader (rtype : Byte) (n : Nat) (seq : Word) : List Byte :=
  [rtype, 1, BitVec.ofNat 8 n, BitVec.ofNat 8 (n / 256)] ++ bytesOfWord seq

/-- The text of a reply before it is sealed (11 R418, R419). -/
def replyText (cmd tag : BitVec 16) (st : RStat) (reason : BitVec 16) (payload : List Word) : List Byte :=
  bytesOfWords [tag ++ cmd, st.code.setWidth 32] ++
    (if st = .refused then (bytesOfWord (reason.setWidth 32)).take 2 else bytesOfWords payload)

/-- The bytes of what the module sends on a session: a DATA record is sealed with the module's key, its salt and SEQ, the
header being the authenticated data; the other records are plain (11 R415, R416; 13 R481; notes/assumptions/1114.md). -/
def hostRecord (x : Session) : HostOut → List Byte
  | .reply _ cmd tag st reason payload =>
    let text := replyText cmd tag st reason payload
    let h := recordHeader 0x10 (text.length + 16) x.txSeq
    h ++ Config.sm4Seal ((x.keys.drop 16).take 16) ((x.keys.drop 40).take 8 ++ bytesOfWord x.txSeq) h text
  | .alert code => recordHeader 0x7F 1 0 ++ [code]
  | .helloM _ eph nonce cert sig =>
    let b := eph ++ nonce ++ cert ++ sig
    recordHeader 2 b.length 0 ++ b
  | .finM _ role => recordHeader 4 1 0 ++ [match role with | .read => 0 | .operate => 1 | .owner => 2]

/-- Send something on the stream of session x; on the mailbox its bytes wait for the reply window (11 R411). -/
def State.send (s : State) (x : Session) (o : HostOut) : State :=
  { s with hc := { s.hc with outbox := s.hc.outbox ++ [o]
                             mbOut := if x.path = .mailbox then s.hc.mbOut ++ hostRecord x o else s.hc.mbOut } }
/-- A reply on an open session takes the next SEQ of its direction (11 R415, R418). -/
def State.reply (s : State) (i : Nat) (cmd tag : BitVec 16) (st : RStat) (reason : BitVec 16) (payload : List Word) : State :=
  let x := s.session i
  if x.opened then (s.setSession i { x with txSeq := x.txSeq + 1 }).send x (.reply i cmd tag st reason payload) else s

/-- The little-endian word of the first four bytes of a host key identifier (11 R426, 15 R529). -/
def keyWord (k : List Byte) : Word := wordAt (wordsOfBytes (k.take 4)) 0

/-- A long operation ends: LASTOP and hc.last, a HOST_OP record, and the final reply to the request that waits
for it, if the session is open (11 R424, R426). -/
def State.finishOp (s : State) (st : RStat) (reason : BitVec 16) (payload : List Word) : State :=
  match s.hc.op with
  | none => s
  | some o =>
    let t := { s with hc := { s.hc with op := none, last := o.cmd ++ st.code } }
    let t := t.record { code := 0x0602, source := 0x39, sev := 3, p0 := o.cmd ++ st.code, p1 := reason.setWidth 32
                        p2 := keyWord o.key }
    match o.wait with
    | some w => t.reply o.sess w.1 w.2 st reason payload
    | none => t

/-- The free program bank is marked empty (04 R170, 06 R265). -/
def State.emptyFreeBank (s : State) : State :=
  if s.mram.curB then { s with mram := { s.mram with bankA := [] } } else { s with mram := { s.mram with bankB := [] } }

/-- The load code bank of region r is marked empty: every bundle reads 0 (04 R170, 06 R265). -/
def State.emptyLoadBank (s : State) (r : Nat) : State :=
  let k := 2 * r + (if (s.region r).active then 0 else 1)
  { s with code := s.code.filter (fun e => e.1 / 2 ^ 18 ≠ k) }

/-- An exchange of region r that has not handed over ends without effect; the host receives ABORTED (06 R265). -/
def State.abortExchange (s : State) (r : Nat) : State :=
  if (s.region r).cov = .exPrep then
    ((s.modRegion r (fun x => { x with cov := .paired, exStage := 0, exBytes := [] })).emptyFreeBank.emptyLoadBank r).finishOp
      .aborted 0 []
  else s

/-! ### Staged items -/

/-- What a master has staged and not released is discarded (04 R162; 05 R215; 09 R359; 10 R376, R388; 12 R454). -/
def State.discardStaged (s : State) (m : Nat) : State :=
  let c := s.stCmds.get (fun _ => {}) m
  let c' := if c.pend ∧ !c.sent then { c with pend := false, result := 6, nw := 0, words := [] } else c
  { s with ptStage := s.ptStage.erase m, fdStage := s.fdStage.erase m, fbStage := s.fbStage.erase m
           stCmds := s.stCmds.set (fun _ => {}) m c' }

/-! ### Triggers -/

/-- The standby executes only forwarded latches (07 R280). -/
def State.inStep (s : State) : Bool := decide (s.pl.role = 2 ∧ s.pl.ps = .sync)

/-- A trigger of task t of LP p with its fire instant (04 R154): ignored for a disabled task and outside RUN, recorded
only on a standby in step (07 R280), held during a hand-over (06 R262), PEND for a task that is not pending, otherwise
an overrun. -/
def State.trigger (s : State) (p t : Nat) (tf : BitVec 64) : State :=
  let d := s.prog.task p t
  if !d.en ∨ (s.lp p).st ≠ .run ∨ s.lpExists p = false then s
  else if s.inStep then s.modTask p t (fun x => { x with own := some tf })
  else if (s.region (p / 2)).cov = .handover then
    s.modRegion (p / 2) (fun x => { x with heldTrig := x.heldTrig ++ [(t, tf)] })
  else if (s.task p t).pend then
    (s.modTask p t (fun x => { x with ovr := satInc x.ovr })).record
      { code := 0x0103, source := BitVec.ofNat 8 p, sev := 3, p0 := BitVec.ofNat 32 t
        p1 := at_ 16 d.trig ||| BitVec.ofNat 32 d.arg, p2 := 0 }
  else s.modTask p t (fun x => { x with pend := true, ttf := tf })

/-- Every task of LP p whose descriptor names a trigger kind and argument receives one trigger. -/
def State.triggerArg (s : State) (p kind arg : Nat) (tf : BitVec 64) : State :=
  (List.range 32).foldl (fun s t =>
    if (s.prog.task p t).trig = kind ∧ (s.prog.task p t).arg = arg then s.trigger p t tf else s) s

/-- Every enabled free-running task of LP p receives one trigger (04 R155). -/
def State.triggerFree (s : State) (p : Nat) : State :=
  (List.range 32).foldl (fun s t => if (s.prog.task p t).trig = 0 then s.trigger p t 0 else s) s

/-- TASK_TRIGGER (04 R154): a trigger arrives now. -/
def taskTriggerOp (p t : Nat) (s : State) : State :=
  s.trigger p t (if (s.prog.task p t).trig = 0 then 0 else s.pairTime)

/-- GAP_EXPIRY (04 R154, R155): a running GAP interval of a free-running task ends. -/
def gapExpiryOp (p t : Nat) (s : State) : State :=
  if (s.task p t).gap then (s.modTask p t (fun x => { x with gap := false })).trigger p t 0 else s

/-! ### Leaving RUN -/

/-- The owner of check-in bit k under owner words (14 R503). -/
def ownerOf (own : List Word) (k : Nat) : Nat := fld (wordAt own (k / 8)) (k % 8 * 4 + 3) (k % 8 * 4)
/-- A word whose bit k is set where `f k` holds. -/
def maskOf (f : Nat → Bool) : Word := (List.range 32).foldl (fun w k => if f k then w ||| at_ k 1 else w) 0
/-- The check-in bits of owner p leave ERQ (14 R497). -/
def State.erqDrop (s : State) (p : Nat) : State :=
  { s with bd := { s.bd with erq := s.bd.erq &&& ~~~maskOf (fun k => ownerOf s.bd.ownEff k == p) } }

/-- LP p leaves RUN: no task stays pending, GAP intervals are cancelled, its level record empties, and an exchange that
waits for its boundary ends, and its check-ins are no longer due (04 R155, R165; 06 R265; 08 R319; 14 R497). -/
def State.leaveRun (s : State) (p : Nat) : State :=
  let s := (List.range 32).foldl (fun s t => s.modTask p t (fun x => { x with pend := false, own := none, gap := false })) s
  let s := (s.dropActive p).modLp p (fun x => { x with phase := .idle, stopReq := false, idleHandler := false, forces := [] })
  let s := (s.modLane (s.laneOf p) (fun x => { x with wait := false, idleH := false })).erqDrop p
  if p % 2 = 0 then s.abortExchange (p / 2) else s

/-- A lane whose signature part starts empty. -/
def Lane.freshSig (x : Lane) : Lane := { x with sig := 0xFFFFFFFFFFFFFFFF, sigB := 0xFFFFFFFFFFFFFFFF, evq := [], wcnt := 0 }

/-- The windows and the FIFO of region r start empty (06 R242, R250, R253). -/
def State.freshOwl (s : State) (r : Nat) : State :=
  let s := s.modRegion r (fun x => { x with fifo := [], outstanding := [], leadSigs := [], trailSigs := [], leadFault := none
                                            trailFault := none, mxWait := false, trailWin := x.leadWin })
  (s.modLane (2 * r) Lane.freshSig).modLane (2 * r + 1) Lane.freshSig

/-- The trail of LP p repeats nothing more once its LP has halted (06 R241, R243). -/
def State.stopTrail (s : State) (p : Nat) : State :=
  if p % 2 = 0 then
    s.modRegion (p / 2) (fun x => { x with outstanding := [], leadFault := none, trailFault := none, mxWait := false })
  else s

/-- LP p enters HALT with a cause (04 R165, R184): nothing it staged is released (04 R162). -/
def State.haltLp (s : State) (p : Nat) (cause : BitVec 6) : State :=
  match (s.lp p).st with
  | .run => (((s.leaveRun p).discardStaged (2 + p)).modLp p (fun x => { x with st := .halt, hcause := cause })).stopTrail p
  | .stop => s.modLp p (fun x => { x with st := .halt, hcause := cause })
  | _ => s

/-- Module HALT (04 R165, R166): every LP in STOP or RUN halts with cause 0x05, the control-token line is
released, and a standby is out of step (16 R536). -/
def State.moduleHalt (s : State) : State :=
  let s := (List.range 8).foldl (fun s p => if s.lpExists p then s.haltLp p 0x05 else s) s
  { s with halted := true, pl := { s.pl with waitRun := none, ps := if s.pl.role = 2 then .unsync else s.pl.ps } }.dropToken

/-- LP p enters STOP from RUN (04 R165). -/
def State.stopLp (s : State) (p : Nat) : State :=
  if (s.lp p).st = .run then (s.leaveRun p).modLp p (fun x => { x with st := .stop }) else s

/-- A halting cause of an LP raises its program-fault source (02 R97, R100; 03 R134). -/
def State.programFault (s : State) (p : Nat) (e : Event) : State := (s.record e).arrive p

/-- TASK_DELIVERY (08 R310): the count is latched and cleared, and every task that names the source is triggered; a
standby in step ignores the delivery (07 R280). -/
def taskDeliveryOp (q : Nat) (s : State) : State :=
  let x := s.src q
  if x.cnt ≠ 0 ∧ s.hold = false ∧ x.taskMode ∧ x.level ≠ 0 ∧ x.target ≤ 8 then
    let s := s.modSrc q (fun y => { y with cnt := 0 })
    if x.target = 8 then { s with hcEcnt := x.cnt }
    else
      let s := s.modLp x.target (fun y => { y with taskEcnt := x.cnt })
      s.triggerArg x.target 2 q s.pairTime
  else s

/-! ### A reset is asserted (16 R531-R533) -/

/-- The code of a reset source (16 R531). -/
def resetCode : ResetSource → Nat
  | .powerOn => 1 | .brownOut => 2 | .badger => 3 | .hostCommand => 4 | .pairCommand => 5 | .rackReset => 6

/-- A long operation in progress ends; one that would end ABORTED leaves its target area empty (16 R533, 11 R426; 06 R265;
04 R170). A FWSTAGE that has taken no data has no target area yet (16 R543). -/
def State.resetOp (s : State) : State :=
  match s.hc.op with
  | none => s
  | some o =>
    if o.cmd = 0x10 then s.emptyFreeBank
    else if o.cmd = 0x11 then (if (s.region o.region).cov = .exPrep ∨ (s.region o.region).cov = .handover then s.emptyFreeBank else s)
    else if o.cmd = 0x12 ∧ o.phase = 1 ∧ o.started then { s with mram := { s.mram with staged := [], delta := [] } }
    else s

/-- The logic die stops with every port at its Reset value (00 R10; 16 R532): MRAM, the key store's non-volatile array, the
clock domain, the field die and the Sett die keep theirs; AX0 restarts at power-on only (05 R190), and the field die's copy
of it counts on. The sensed level of the control-token line and the waiting commands are outside the die. -/
def State.dieReset (s : State) (src : ResetSource) : State :=
  let k := { s.ks with queue := [], vcnt := 0, wrongCodes := 0, ins := [], outs := [], stat := [] }
  let f := { s.field with frame := none, clk := if src = .powerOn then s.field.clk + s.ns else s.field.clk }
  let c := if src = .powerOn then { s.rtc with incAt := 0 } else s.rtc
  let d := { s.sett with frame := none }
  let now := if src = .powerOn then 0 else s.time
  { time := now, mram := s.mram, ks := k, field := f, rtc := c, sett := d, bd := { Badger.afterReset with since := now }
    pl := { sensed := s.pl.sensed }, free := s.free, pending := s.pending }

/-- A reset source occurs (16 R531, R533): the die stops, and of several sources the lowest code is recorded. Each reset
has an EPOCH of its own (09 R330; notes/assumptions/1602.md). -/
def State.assertReset (s : State) (src : ResetSource) : State :=
  match (if s.boot = .running then s.resetReq else none) with
  | some q => { s.dieReset src with resetReq := some (if resetCode q ≤ resetCode src then q else src) }
  | none =>
    let s := s.resetOp
    { { s with mram := { s.mram with hostEpoch := s.mram.hostEpoch + 1 } }.dieReset src with resetReq := some src }

end Sys2Proof.Machine
end

