-- ==== Sys2Proof/Machine/KeyStore.lean ====
section
/-! DEFINITION. The key store: slots, operations, destruction, and the lifecycle transition (13 R456-R488). -/

namespace Sys2Proof.Machine

/-! ### Attribute words (13 R461) -/

def Slot.ktype (x : Slot) : Nat := fld x.attr0 30 28
def Slot.persist (x : Slot) : Bool := x.attr0.getLsbD 20
/-- LCMASK names a lifecycle state, by its code 1-5. -/
def Slot.inLc (x : Slot) (lc : Nat) : Bool := x.attr1.getLsbD (26 + lc)
def Slot.hasPar (x : Slot) : Bool := x.attr1.getLsbD 15
def Slot.parent (x : Slot) : Nat := fld x.attr1 13 8
def Slot.depth (x : Slot) : Nat := fld x.attr1 7 4

/-- A slot takes its content; the pair key slots fix the role (07 R270). -/
def State.setSlot (s : State) (k : Nat) (x : Slot) : State :=
  let s := { s with ks := { s.ks with slots := s.ks.slots.set (fun _ => {}) k x } }
  if k = 4 ∨ k = 5 then s.refreshRole else s

/-- The public half of a slot's SM2 key. -/
def Slot.pub (x : Slot) : List Byte := if x.ktype = 1 then Config.sm2Pub x.key else x.key

/-- The fixed attribute words of K0-K23 (13 R462). -/
def fixedAttrs (k : Nat) : Word × Word :=
  if k = 0 then (0x9910018C, 0xF0000000)
  else if k = 1 then (0xC0300108, 0x10000000)
  else if k = 2 then (0xA410018C, 0xF8000000)
  else if k = 4 then (0x99140008, 0x20000000)
  else if k = 5 then (0xA4140008, 0x20000000)
  else (0xA4100108, 0x20000000)

/-! ### Operations (13 R466) -/

/-- The key store operations. -/
inductive KsCode where
  | info | sign | verify | readpub | generate | derive | agree | encrypt | decrypt | mac | destroy | attest | hash
  deriving DecidableEq, Repr

def KsCode.code : KsCode → BitVec 8
  | .info => 1 | .sign => 2 | .verify => 3 | .readpub => 4 | .generate => 5 | .derive => 6 | .agree => 7
  | .encrypt => 8 | .decrypt => 9 | .mac => 10 | .destroy => 11 | .attest => 12 | .hash => 13

def ksCodeOf (c : BitVec 8) : Option KsCode :=
  [.info, .sign, .verify, .readpub, .generate, .derive, .agree, .encrypt, .decrypt, .mac, .destroy, .attest,
    .hash].find? (fun k => k.code == c)

/-- The USAGE bit an operation needs; none for an operation of any usage. -/
def KsCode.usage : KsCode → Option Nat
  | .sign => some 27 | .verify => some 26 | .derive => some 25 | .agree => some 24 | .encrypt => some 23
  | .decrypt => some 22 | .mac => some 21 | _ => none

/-- The KTYPEs that suit an operation (13 R465; notes/assumptions/1301.md). -/
def KsCode.suits (c : KsCode) (t : Nat) : Bool :=
  match c with
  | .sign | .agree => t == 1
  | .verify | .readpub => t == 1 || t == 2
  | .derive => t == 1 || t == 3 || t == 4
  | .encrypt | .decrypt => t == 3
  | .mac => t == 4
  | _ => true

/-- An operation names `ks.slot`. -/
def KsCode.namesSlot : KsCode → Bool
  | .generate | .attest | .hash => false
  | _ => true

/-- An operation creates `ks.slot2`. -/
def KsCode.creates : KsCode → Bool
  | .generate | .derive | .agree => true
  | _ => false

/-- The input limit of an operation in bytes; none for an operation without input (13 R466, R488). -/
def KsCode.limit : KsCode → Option Nat
  | .sign => some 32 | .verify => some 96 | .derive => some 256 | .agree => some 256 | .encrypt => some 240
  | .decrypt => some 256 | .mac => some 256 | .attest => some 32 | .hash => some 256 | _ => none

/-- The output bytes of an operation (13 R466, R488). -/
def KsOp.outLen (o : KsOp) (c : KsCode) : Nat :=
  match c with
  | .sign | .readpub => 64
  | .verify => 4
  | .generate => if fld o.attr0 30 28 = 1 then 64 else 0
  | .encrypt => o.len - 12 + 16
  | .decrypt => o.len - 28
  | .mac | .hash => 32
  | .attest => 216
  | _ => 0

/-- The bytes of an operation's input. -/
def KsOp.bytes (o : KsOp) : List Byte := (bytesOfWords o.input).take o.len
/-- Bytes lo to lo + n of the input buffer. -/
def KsOp.field (o : KsOp) (lo n : Nat) : List Byte := ((bytesOfWords o.input).drop lo).take n

/-- The checks of R465 on a slot, in order, and the ones R463 and R466 name as violations; KSFAIL makes every operation on
a slot a violation (R473). -/
def State.ksCheck (s : State) (o : KsOp) (c : KsCode) : Option Viol :=
  let m := masterOf o.who
  let x := s.slot o.slot
  let target : Option Viol :=
    if c.creates ∧ ((s.slot o.slot2).occ ∨ o.slot2 < 24) then some .slotLow else none
  if c = .hash then none
  else if s.ks.fail then some .occ
  else if c = .attest then
    (if o.who = 1 ∨ o.who = 10 then (if (s.slot 0).occ then none else some .occ) else some .master)
  else if !c.namesSlot then target
  else if !x.attr0.getLsbD (7 + o.who) then some .master
  else if !x.attr0.getLsbD m.world.bit then some .worlds
  else if !x.inLc s.ks.lc.toNat then some .lcmask
  else if (match c.usage with | some b => !x.attr0.getLsbD b | none => false : Bool) then some .usage
  else if !x.occ then some .occ
  else if !c.suits x.ktype then some .ktype
  else if c = .destroy ∧ o.slot < 24 then some .slotLow
  else target

/-- Every bit of `a` between lo and hi is set in `b`. -/
def subField (a b : Word) (hi lo : Nat) : Bool :=
  let m := BitVec.ofNat 32 (2 ^ (hi + 1) - 2 ^ lo)
  decide ((a &&& m) &&& ~~~(b &&& m) = 0)

/-- The conditions of R463 on new attributes; `par` is the parent for DERIVE and AGREE. A KTYPE that is no key the
operation can make breaks them too (notes/assumptions/1301.md). -/
def State.attrsOk (s : State) (who : Nat) (a0 a1 : Word) (par : Option Slot) : Bool :=
  a0.getLsbD (7 + who) && a0.getLsbD (masterOf who).world.bit && a1.getLsbD (26 + s.ks.lc.toNat)
    && !a1.getLsbD 27 && !a1.getLsbD 31 && !a0.getLsbD 19 && !a0.getLsbD 6
    && (match par with
        | none => true
        | some x => subField a0 x.attr0 27 21 && subField a0 x.attr0 19 7 && subField a0 x.attr0 6 2
            && subField a1 x.attr1 31 27 && (x.persist || !a0.getLsbD 20) && decide (x.depth ≤ 3) : Bool)

def makesKey (a0 : Word) : Bool := fld a0 30 28 == 1 || fld a0 30 28 == 3 || fld a0 30 28 == 4
/-- The key length of a KTYPE in bytes. -/
def keyLen (t : Nat) : Nat := if t = 3 then 16 else if t = 2 then 64 else 32

/-- The slot a creation makes (13 R461, R463, R467): OCC set, PARENT and DEPTH set by the key store. -/
def madeSlot (a0 a1 : Word) (par : Option (Nat × Slot)) (key : List Byte) : Slot :=
  { attr0 := (a0 &&& 0x7FFFFFFC) ||| 0x80000000
    attr1 := (a1 &&& 0xF8000000) ||| (match par with
      | none => 0
      | some (k, x) => 0x8000 ||| at_ 8 k ||| at_ 4 (x.depth + 1))
    key := key }

/-! ### Destruction (13 R470-R473) -/

/-- The PARENT chain of slot i leads to k, k included. -/
def State.leadsTo (s : State) (k : Nat) : Nat → Nat → Bool
  | 0, i => i == k
  | fuel + 1, i => i == k || ((s.slot i).occ && (s.slot i).hasPar && s.leadsTo k fuel (s.slot i).parent)

/-- The slots that destroying the slots of a list destroys. -/
def State.doomed (s : State) (ks : List Nat) : List Nat :=
  (List.range 64).filter (fun i => (s.slot i).occ && ks.any (fun k => s.leadsTo k 5 i))

/-- Zeros over the key material and both attribute words of the slots and their descendants; an operation that runs on
one of them loses its key (R470). -/
def State.destroySlots (s : State) (ks : List Nat) : State :=
  let d := s.doomed ks
  let q := match s.ks.queue with
    | [] => []
    | o :: t =>
      let hit := match ksCodeOf o.code with
        | some c => c.namesSlot && d.contains o.slot && (s.ksCheck o c).isNone
        | none => false
      (if hit then { o with gone := true } else o) :: t
  let s := d.foldl (fun s k => s.setSlot k {}) s
  { s with ks := { s.ks with queue := q } }

/-- The read-back after destruction is not zero: KSFAIL, HALT and the record (R473). -/
def State.zeroFail (s : State) (slot : Word) : State :=
  ({ s with ks := { s.ks with fail := true } }.moduleHalt).event 0x0802 7 0x3B [slot]

/-! ### Running an operation -/

/-- Output words of a master from the start of its buffer, and its status word. -/
def State.ksDone (s : State) (who : Nat) (result : Nat) (out : List Byte) : State :=
  { s with ks := { s.ks with
      outs := SMap.setList (fun _ => 0) s.ks.outs (who * 64) (wordsOfBytes out)
      stat := s.ks.stat.set (fun _ => 0) who (at_ 16 result ||| BitVec.ofNat 32 out.length) } }

/-- The program SM3 of an image (13 R479): up to the first byte of its SIG section, or whole. -/
def programSm3 (img : List Byte) (sig : Option Nat) : List Byte :=
  Config.sm3 (match sig with | some o => img.take o | none => img)

/-- The image of the current program bank, and of the firmware bank in use. -/
def State.curImage (s : State) : List Byte := if s.mram.curB then s.mram.bankB else s.mram.bankA

/-- Word 0 of the identity record (11 R423). -/
def identWord0 : Word :=
  at_ 16 regionCount ||| (match Config.variant with | .k4410 => 0x4410 | .k4420 => 0x4420 | .k4440 => 0x4440)

/-- The firmware bank in use is bank 1 (16 R540). -/
def State.fwBank1 (s : State) : Bool := decide (s.mram.bankptr = 1)

/-- The descriptor of the firmware bank in use (16 R539), a copy of its manifest. -/
def State.fwDesc (s : State) : List Byte := if s.fwBank1 then s.mram.desc1 else s.mram.desc0
/-- The new SM3 of the manifest of the firmware bank in use (13 R475, 16 R540). -/
def State.fwSm3 (s : State) : List Byte := (s.fwDesc.drop 0x40).take 32
/-- A little-endian word of bytes at an offset. -/
def wordAtByte (bs : List Byte) (o : Nat) : Word := wordAt (wordsOfBytes ((bs.drop o).take 4)) 0
/-- The firmware version in use and its pair protocol version (16 R540). -/
def State.fwVersion (s : State) : Word := wordAtByte s.fwDesc 8
def State.fwProto (s : State) : BitVec 16 := (wordAtByte s.fwDesc 4).extractLsb' 16 16

/-- The body of an attestation report (13 R475). -/
def State.attestBody (s : State) (nonce : List Byte) : List Byte :=
  let zero := List.replicate 32 (0 : Byte)
  let g := s.prog
  let conf := if g.valid then
      Config.sm3 (bytesOfWords (g.modes :: (g.field ++ g.axes ++ g.fbus ++ g.rack ++ g.irq ++ g.badger))) else zero
  let chk := if s.slost then [0, 0] else [wordAt s.mrSett 2, wordAt s.mrSett 3]
  bytesOfWords [identWord0, s.ks.lc.setWidth 32] ++ nonce.take 32 ++ s.fwSm3.take 32
    ++ (if g.valid then g.sm3 else zero) ++ bytesOfWords chk ++ conf ++ Config.serial.take 8

/-- What an operation that passed its checks gives: RESULT, output bytes, and the state with what it creates or
destroys (R466, R467, R470). -/
def State.ksPerform (s : State) (o : KsOp) (c : KsCode) : Nat × List Byte × State :=
  let x := s.slot o.slot
  let create := fun (par : Option (Nat × Slot)) (key out : List Byte) =>
    (0, out, s.setSlot o.slot2 (madeSlot o.attr0 o.attr1 par key))
  let kt := fld o.attr0 30 28
  if (match c.limit with | some n => decide (n < o.len) | none => false : Bool) then (5, [], s)
  else match c with
    | .info => (0, [], (s.setMport (masterOf o.who) 0xACA x.attr0).setMport (masterOf o.who) 0xACB x.attr1)
    | .sign => (0, Config.sm2Sign x.key (o.field 0 32) s.free, s.draw)
    | .verify =>
      (0, bytesOfWord (bit (Config.sm2Verify x.pub (o.field 0 32) (o.field 32 64))), s)
    | .readpub => (0, x.pub, s)
    | .generate =>
      if s.attrsOk o.who o.attr0 o.attr1 none && makesKey o.attr0 then
        let key := (Config.random s.free).take (keyLen kt)
        let r := create none key (if kt = 1 then Config.sm2Pub key else [])
        (r.1, r.2.1, r.2.2.draw)
      else (3, [], s)
    | .derive =>
      if s.attrsOk o.who o.attr0 o.attr1 (some x) && makesKey o.attr0 then
        create (some (o.slot, x)) (Config.kdf x.key o.bytes (keyLen kt)) []
      else (3, [], s)
    | .agree =>
      if !(s.attrsOk o.who o.attr0 o.attr1 (some x) && makesKey o.attr0) then (3, [], s)
      else if !Config.sm2Point (o.field 0 64) then (4, [], s)
      else
        let shared := Config.sm2Agree x.key (o.field 0 64) []
        create (some (o.slot, x)) (Config.kdf shared (o.bytes.drop 64) (keyLen kt)) []
    | .encrypt => (0, Config.sm4Enc x.key (o.field 0 12) (o.bytes.drop 12), s)
    | .decrypt =>
      match Config.sm4Dec x.key (o.field 0 12) (o.bytes.drop 12) with
      | some p => (0, p, s)
      | none => (2, List.replicate (o.outLen .decrypt) 0, s)
    | .mac => (0, Config.hmac x.key o.bytes, s)
    | .destroy => (0, [], s.destroySlots [o.slot])
    | .attest =>
      let body := s.attestBody (o.field 0 32)
      (0, body ++ Config.sm2Sign (s.slot 0).key (sm3Z (s.slot 0).pub body) s.free, s.draw)
    | .hash => (0, Config.sm3 o.bytes, s)

/-- The state without the operation at the head of the queue. -/
def State.ksPop (s : State) : State := { s with ks := { s.ks with queue := s.ks.queue.tail } }

/-- KS_OP_COMPLETE (13 R465-R473, R485): the operation that runs finishes; `readBack` says whether the zeros of a
destruction read back. -/
def ksOpCompleteOp (readBack : Bool) (s : State) : State :=
  match s.ks.queue with
  | [] => s
  | o :: _ =>
    match ksCodeOf o.code with
    | none => s.ksPop
    | some c =>
      let zero := List.replicate (o.outLen c) (0 : Byte)
      let s := s.ksPop
      if o.gone then s.ksDone o.who 1 zero
      else match s.ksCheck o c with
        | some v =>
          let s := if c = .info then
              (s.setMport (masterOf o.who) 0xACA 0).setMport (masterOf o.who) 0xACB 0 else s
          (s.violation (masterOf o.who) (if c.namesSlot then o.slot else o.slot2) v).ksDone o.who 0 zero
        | none =>
          let r := s.ksPerform o c
          let t := r.2.2.ksDone o.who r.1 r.2.1
          if c = .destroy ∧ !readBack then t.zeroFail (BitVec.ofNat 32 o.slot) else t

/-- The master has an operation that waits or runs (13 R468, R488). -/
def State.ksBusy (s : State) (m : Master) : Bool := s.ks.queue.any (fun o => o.who == m.code)

/-- The operation of a code with what the master's ports and buffer hold (13 R466, R487). -/
def State.ksOpOf (s : State) (m : Master) (c : BitVec 8) : KsOp :=
  { who := m.code, code := c, slot := (s.mport m 0xAC0).toNat % 64, slot2 := (s.mport m 0xAC2).toNat % 64
    len := min (s.mport m 0xAC3).toNat 256, attr0 := s.mport m 0xAC8, attr1 := s.mport m 0xAC9
    input := SMap.getList (fun _ => 0) s.ks.ins (m.code * 64) 64, gone := false }

/-- A move of an operation's code into ks.op (13 R466, R468): it stalls while the master's BUSY is set, and otherwise takes
its place in the order, with what the master's ports and buffer hold. -/
def ksStartOp (m : Master) (c : BitVec 8) (s : State) : State :=
  if s.ksBusy m then s
  else s.guarded m 0xAC1 fun s =>
    if (ksCodeOf c).isNone then s
    else { s with ks := { s.ks with queue := s.ks.queue ++ [s.ksOpOf m c] } }

/-- The index port moves on (13 R487). -/
def State.ksNext (s : State) (m : Master) : State :=
  s.setMport m 0xAC4 (BitVec.ofNat 32 (((s.mport m 0xAC4).toNat + 1) % 64))

/-- KS_BW (13 R487). -/
def ksBwOp (m : Master) (v : Word) (s : State) : State :=
  s.guarded m 0xAC5 fun s =>
    let i := m.code * 64 + (s.mport m 0xAC4).toNat % 64
    { s with ks := { s.ks with ins := s.ks.ins.set (fun _ => 0) i v } }.ksNext m

/-- KS_BR (13 R487); it reads the output buffer, so it waits for the master's operation (R468). -/
def ksBrOp (m : Master) (s : State) : State :=
  if s.ksBusy m then s
  else s.guarded m 0xAC6 fun s =>
    let i := m.code * 64 + (s.mport m 0xAC4).toNat % 64
    (s.setMport m 0xAC7 (s.ks.outs.get (fun _ => 0) i)).ksNext m

/-- A read of a key store port (13 R487, R488). -/
def State.ksPort (s : State) (m : Master) (a : Nat) : Word :=
  if a = 0xACC then flagAt 31 (s.ksBusy m) ||| s.ks.stat.get (fun _ => 0) m.code
  else if a = 0xAD0 then at_ 8 (s.ks.tcnt.toNat % 2 ^ 24) ||| s.ks.lc.setWidth 32
  else if a = 0xAD1 then s.ks.vcnt
  else s.mport m a

/-! ### The lifecycle (13 R456-R459) -/

/-- The lifecycle state lets programs run (R456). -/
def State.lcRuns (s : State) : Bool := s.ks.lc == 2 || s.ks.lc == 3

/-- Step 1 of R459: every logical processor that is not in STOP enters STOP. -/
def State.stopAll (s : State) : State :=
  (List.range 8).foldl (fun s p =>
    match (s.lp p).st with
    | .run => ((s.leaveRun p).discardStaged (2 + p)).modLp p (fun x => { x with st := .stop })
    | .halt => s.modLp p (fun x => { x with st := .stop })
    | _ => s) s

/-- The slots whose LCMASK excludes a state (R472). -/
def State.excluded (s : State) (lc : Nat) : List Nat :=
  (List.range 64).filter (fun k => (s.slot k).occ && !(s.slot k).inLc lc)

/-- Steps 3 to 5 of R459 towards a state; `readBack` as in R473. -/
def State.lcSteps (s : State) (dest : BitVec 8) (readBack : Bool) : State :=
  let doomed := s.doomed (s.excluded dest.toNat)
  let s := s.destroySlots (s.excluded dest.toNat)
  if !readBack ∧ doomed ≠ [] then s.zeroFail (BitVec.ofNat 32 (doomed.headD 0))
  else
    let old := s.ks.lc
    let s := { s with ks := { s.ks with lc := dest, tcnt := s.ks.tcnt + 1, pendTo := none,
                                        policy := if dest = 3 then s.ks.policy else [] } }
    let s := if dest = 4 ∨ dest = 5 then
        { s with mram := { s.mram with bankA := [], bankB := [], log := [] }, prog := {} } else s
    s.event 0x0801 6 0x3B [old.setWidth 32, dest.setWidth 32, s.ks.tcnt]

/-- LC_TRANSITION (13 R459): the transition whose pending record stands is carried out, and its reply is sent; a KSFAIL
stops it before step 4. -/
def lcTransitionOp (readBack : Bool) (s : State) : State :=
  match s.ks.pendTo with
  | none => s
  | some dest =>
    let t := s.lcSteps dest readBack
    if t.ks.fail then t.finishOp .aborted 0 [] else t.finishOp .ok 0 (wordsOfBytes (s.slot 0).pub)

end Sys2Proof.Machine
end

