-- ==== Sys2Proof/Machine/Flags.lean ====
section
/-! DEFINITION. The flag computations of the arithmetic units (02 R75, R76; 03 R103, R114, R117, R119, R123, R124). -/

namespace Sys2Proof.Machine

/-- What an operation of ia, im, cp, fp or mac gives: values for result ports, the flags it sets, whether it sets DZ or
SAT (02 R75). -/
structure UnitRes where
  ports : List (Nat × Word)
  z : Bool
  n : Bool
  c : Bool
  v : Bool
  dz : Bool := false
  sat : Bool := false
  deriving DecidableEq, Repr

/-- A signed value that fits w bits. -/
def fitsSigned (w : Nat) (x : Int) : Bool := decide (-(2 : Int) ^ (w - 1) ≤ x ∧ x < (2 : Int) ^ (w - 1))

/-- A signed value clamped to w bits (03 R124). -/
def clampSigned (w : Nat) (x : Int) : Int :=
  if x < -(2 : Int) ^ (w - 1) then -(2 : Int) ^ (w - 1)
  else if x ≥ (2 : Int) ^ (w - 1) then (2 : Int) ^ (w - 1) - 1 else x

/-- 0 or 1 as an integer. -/
def carryIn (c : Bool) : Nat := if c then 1 else 0

/-- Sum, carry out of the top bit, signed overflow (03 R114). -/
def addC {w : Nat} (a b : BitVec w) (c : Bool) : BitVec w × Bool × Bool :=
  (a + b + BitVec.ofNat w (carryIn c), decide (a.toNat + b.toNat + carryIn c ≥ 2 ^ w),
   !fitsSigned w (a.toInt + b.toInt + (carryIn c : Int)))

/-- Difference, borrow, signed overflow (03 R114). -/
def subC {w : Nat} (a b : BitVec w) (c : Bool) : BitVec w × Bool × Bool :=
  (a - b - BitVec.ofNat w (carryIn c), decide (a.toNat < b.toNat + carryIn c),
   !fitsSigned w (a.toInt - b.toInt - (carryIn c : Int)))

/-- The sign extension of a word (03 R103). -/
def signWord (w : Word) : Word := if w.msb then 0xFFFFFFFF else 0

/-- The flags word (02 R76); BSD is the depth of the branch stack. -/
def Lane.flagsWord (x : Lane) : Word :=
  at_ 16 x.bstk.length ||| flagAt 9 x.flags.bsu ||| flagAt 8 x.flags.bso ||| flagAt 7 x.flags.acc |||
  flagAt 5 x.flags.sat ||| flagAt 4 x.flags.dz ||| flagAt 3 x.flags.v ||| flagAt 2 x.flags.c |||
  flagAt 1 x.flags.n ||| flagAt 0 x.flags.z

/-- A move into cu.flags: V, C, N, Z take the value, a 1 clears DZ, SAT, BSO or BSU, the rest is read-only (02 R76). -/
def Flags.write (f : Flags) (w : Word) : Flags :=
  { f with v := w.getLsbD 3, c := w.getLsbD 2, n := w.getLsbD 1, z := w.getLsbD 0
           sat := f.sat && !w.getLsbD 5, dz := f.dz && !w.getLsbD 4
           bso := f.bso && !w.getLsbD 8, bsu := f.bsu && !w.getLsbD 9 }

/-- A flag-setting operation's flags as its result appears (02 R75): Z, N, C, V are written, DZ and SAT are sticky. -/
def Flags.setArith (f : Flags) (fl : Option (Bool × Bool × Bool × Bool)) (dz sat : Bool) : Flags :=
  match fl with
  | some (z, n, c, v) => { f with z := z, n := n, c := c, v := v, dz := f.dz || dz, sat := f.sat || sat }
  | none => { f with dz := f.dz || dz, sat := f.sat || sat }

/-- Whether a guard code lets its move take effect (02 R72). -/
def Flags.guard (f : Flags) (g : Nat) : Bool :=
  match g with
  | 0x0 => true | 0x1 => false | 0x2 => f.acc | 0x3 => !f.acc
  | 0x4 => f.z | 0x5 => !f.z | 0x6 => f.n | 0x7 => !f.n
  | 0x8 => f.c | 0x9 => !f.c | 0xA => f.v | 0xB => !f.v
  | 0xC => f.dz | 0xD => !f.dz | 0xE => f.sat | _ => !f.sat

end Sys2Proof.Machine
end

