-- ==== Sys2Proof/Machine/FieldBase.lean ====
section
/-! DEFINITION. Accessors of the field die's state and its configuration in effect (09 R336, 05 R191). -/

namespace Sys2Proof.Machine

def State.modField (s : State) (f : Field → Field) : State := { s with field := f s.field }

/-- The field die's copy of AX0 at an instant of its timebase; frozen until the first HEARTBEAT after a reset (05 R190). -/
def Field.ax0At (f : Field) (now : Nat) : BitVec 64 := if f.ax0set then BitVec.ofNat 64 now + f.ax0off else 0
/-- The present instant on the field die's 125 MHz timebase, in ns; it runs on through a power-on of the logic die
(05 R190; notes/assumptions/515.md). -/
def State.fieldNs (s : State) : Nat := s.ns + s.field.clk
def State.fieldAx0 (s : State) : BitVec 64 := s.field.ax0At s.fieldNs

/-- The field die acts only while L+ feeds it (01 R47; 09 R344). -/
def State.onField (s : State) (f : State → State) : State := if s.field.powered then f s else s

/-- An event of the field die: the recorder takes it with the next field frame (01 R41; notes/assumptions/514.md). -/
def State.fieldEvent (s : State) (code sev source : Nat) (params : List Word) : State :=
  s.modField (fun f => { f with evq := f.evq ++ [⟨code, sev, source, params⟩] })

/-- The records at the front of a queue that a message carries: up to its limit, and as long as the frame's room lasts
(09 R329). -/
def takeFit {α : Type} (size : α → Nat) : Nat → Nat → List α → List α
  | 0, _, _ => []
  | _, _, [] => []
  | n + 1, room, x :: t => if size x ≤ room then x :: takeFit size n (room - size x) t else []

/-- The bytes that records take in a frame, with the header of their message. -/
def recordBytes {α : Type} (size : α → Nat) (xs : List α) : Nat := if xs.isEmpty then 0 else 4 + (xs.map size).sum

/-- The largest frame, header and CRC included (09 R327). -/
def frameRoom (econ : Bool) : Nat := if econ then 6016 else 1472

/-! ### The configuration in effect (09 R336, 05 R191) -/

def Field.cfgWord (f : Field) (i : Nat) : Word := if f.cfgok then wordAt f.cfg i else 0
/-- The leader of the group of DOn (09 R336, R345). -/
def Field.leader (f : Field) (n : Nat) : Nat :=
  match fld (f.cfgWord 4) (2 * (n / 4) + 1) (2 * (n / 4)) with
  | 1 => n - n % 2
  | 2 => n - n % 4
  | _ => n
/-- The channels of the group that channel n belongs to. -/
def Field.groupOf (f : Field) (n : Nat) : List Nat := (List.range 16).filter (fun k => f.leader k = f.leader n)
def Field.shared (f : Field) (n : Nat) : Bool := (f.cfgWord 3).getLsbD (16 + n)
def Field.olen (f : Field) (n : Nat) : Bool := (f.cfgWord 3).getLsbD n
def Field.owen (f : Field) (n : Nat) : Bool := (f.cfgWord 2).getLsbD n
/-- Safe value of DOn: 0 off, 1 on, 2 hold. -/
def Field.safeOf (f : Field) (n : Nat) : Nat := fld (f.cfgWord 5) (2 * n + 1) (2 * n)
def Field.cmode (f : Field) (k : Nat) : Nat := fld (f.cfgWord 7) (2 * k + 1) (2 * k)
def Field.isPlaced (f : Field) (n : Nat) : Bool := f.cfgok && (wordAt f.cfgAxes 1).getLsbD n

def Field.out (f : Field) (n : Nat) : OutCh := f.outs.get (fun _ => {}) n
def Field.modOut (f : Field) (n : Nat) (g : OutCh → OutCh) : Field := { f with outs := f.outs.set (fun _ => {}) n (g (f.out n)) }
def Field.inp (f : Field) (n : Nat) : InCh := f.ins.get (fun _ => {}) n
def Field.modInp (f : Field) (n : Nat) (g : InCh → InCh) : Field := { f with ins := f.ins.set (fun _ => {}) n (g (f.inp n)) }
def Field.ctr (f : Field) (k : Nat) : FastCtr := f.ctrs.get (fun _ => {}) k
def Field.modCtr (f : Field) (k : Nat) (g : FastCtr → FastCtr) : Field := { f with ctrs := f.ctrs.set (fun _ => {}) k (g (f.ctr k)) }
def Field.axis (f : Field) (x : Nat) : Axis := f.axes.get (fun _ => {}) x
def Field.modAxis (f : Field) (x : Nat) (g : Axis → Axis) : Field := { f with axes := f.axes.set (fun _ => {}) x (g (f.axis x)) }

end Sys2Proof.Machine
end

