-- ==== Sys2Proof/Machine/Axis.lean ====
section
/-! DEFINITION. The axes on the field die: motion, prediction, steps, loss and recovery (05 R187-R207). -/

namespace Sys2Proof.Machine

/-! ### Modular differences (05 R211) -/

/-- umod: a difference reduced into [0, M); without a modulo length the signed 64-bit value. -/
def umod (d : BitVec 64) (m : BitVec 64) : Int := if m = 0 then d.toInt else (d.toInt % (m.toNat : Int))

/-- smod: a difference reduced into [−M/2, M/2); without a modulo length the signed 64-bit value. -/
def smod (d : BitVec 64) (m : BitVec 64) : Int :=
  if m = 0 then d.toInt
  else
    let u := d.toInt % (m.toNat : Int)
    if 2 * u ≥ (m.toNat : Int) then u - (m.toNat : Int) else u

/-- A position reduced into [0, M) (05 R189). -/
def reduceMod (v : BitVec 64) (m : BitVec 64) : BitVec 64 := if m = 0 then v else BitVec.ofInt 64 (v.toInt % (m.toNat : Int))

/-! ### Velocities (05 R196, R198, R199) -/

/-- A velocity of `n` 2^−16 counts in `d` ns. -/
def Rate.of (n d : Int) : Rate := ⟨if d < 0 then -n else n, d.natAbs⟩
/-- A velocity given in 2^−16 counts per µs (05 R197). -/
def Rate.ofWord (v : Int) : Rate := ⟨v, 1000⟩
/-- The path in 2^−16 counts over a time in ns. -/
def Rate.travel (r : Rate) (ns : Int) : Int := r.num * ns / (r.den : Int)
/-- The velocity that goes a distance further in a time of `t` ns (05 R196, R198). -/
def Rate.plus (r : Rate) (e : Int) (t : Nat) : Rate := ⟨r.num * t + e * r.den, r.den * t⟩
/-- VEL: 2^−16 counts per µs, saturating (05 R207; notes/assumptions/506.md). -/
def Rate.word (r : Rate) : Word := BitVec.ofInt 32 (clampSigned 32 ((r.num * 1000).tdiv r.den))

/-! ### The position at an instant -/

/-- The latest interval between counted edges in ns; 0 where there is none (05 R199). -/
def Axis.lastInterval (a : Axis) : Nat :=
  match a.hist with
  | t :: u :: _ => t - u
  | _ => 0

/-- The velocity of an encoder axis at an instant: it falls while no edge comes (05 R199). -/
def Axis.speedAt (a : Axis) (now : Nat) : Rate :=
  let g := now - a.tl
  if g ≥ 100000000 then {}
  else if g > a.lastInterval ∧ 65536 * a.vel.den < a.vel.num.natAbs * g then ⟨if a.vel.num < 0 then -65536 else 65536, g⟩
  else a.vel

/-- What an encoder axis adds to its counted position at an instant (05 R199). -/
def Axis.predict (a : Axis) (now : Nat) : Int :=
  max (-65535) (min 65535 ((a.speedAt now).travel ((now - a.tl : Nat) : Int)))

/-- What an extrapolating axis adds to its position at an instant (05 R196, R198, R203). -/
def Axis.extrapolate (a : Axis) (now : Nat) : Int :=
  let e := max a.tl (min now a.adjEnd)
  a.vel.travel ((e : Int) - (a.tl : Int)) + a.base.travel ((now : Int) - (e : Int))

/-- How far the axis has moved from its stored position: an encoder that is not STALE by R199, every other by its
velocity; a FROZEN or disabled axis holds (05 R203). -/
def Axis.drift (a : Axis) (encoder : Bool) (now : Nat) : Int :=
  if a.frozen ∨ !a.desc.en then 0
  else if encoder ∧ !a.stale then a.predict now
  else a.extrapolate now

/-- AX1-AX4. -/
def isEncoder (x : Nat) : Bool := decide (1 ≤ x ∧ x ≤ 4)

/-- POS of axis x at an instant of the timebase (05 R189, R190). -/
def Field.posAt (f : Field) (x now : Nat) : BitVec 64 :=
  let a := f.axis x
  if x = 0 then f.ax0At now else a.pos + BitVec.ofInt 64 (a.drift (isEncoder x) now)

/-- MPOS of axis x at an instant (05 R189, R207). -/
def Field.mposAt (f : Field) (x now : Nat) : BitVec 64 :=
  let a := f.axis x
  if x = 0 then (if a.desc.mod = 0 then f.ax0At now else BitVec.ofNat 64 ((f.ax0At now).toNat % a.desc.mod.toNat))
  else reduceMod (a.mpos + BitVec.ofInt 64 (a.drift (isEncoder x) now)) a.desc.mod

/-- The velocity of axis x at an instant; AX0 runs 1 ns per ns (05 R207; notes/assumptions/506.md). -/
def Field.rateAt (f : Field) (x now : Nat) : Rate :=
  let a := f.axis x
  if x = 0 then ⟨65536, 1⟩ else if a.frozen then {}
  else if isEncoder x ∧ !a.stale then a.speedAt now
  else if now > a.adjEnd then a.base else a.vel
/-- VEL of axis x at an instant (05 R207). -/
def Field.velAt (f : Field) (x now : Nat) : Word := (f.rateAt x now).word

/-- Axis x is enabled; AX0 always is (05 R192). -/
def Field.axisOn (f : Field) (x : Nat) : Bool := x == 0 || (f.axis x).desc.en

/-- FROZEN; AX0 also until the first HEARTBEAT (05 R190). -/
def Field.axisFrozen (f : Field) (x : Nat) : Bool := (x == 0 && !f.ax0set) || (f.axis x).frozen

/-! ### Steps -/

/-- The axis stands at its position at the instant: movement up to it is kept. -/
def Axis.advance (a : Axis) (encoder : Bool) (now : Nat) : Axis :=
  let d := a.drift encoder now
  { a with pos := a.pos + BitVec.ofInt 64 d, mpos := reduceMod (a.mpos + BitVec.ofInt 64 d) a.desc.mod, tl := now }

/-- The axis moves by an amount (05 R189). -/
def Axis.move (a : Axis) (d : Int) : Axis :=
  { a with pos := a.pos + BitVec.ofInt 64 d, mpos := reduceMod (a.mpos + BitVec.ofInt 64 d) a.desc.mod }

/-- A step to a position: the evaluation's prev follows, and no entry fires for the distance (05 R205). -/
def Axis.stepTo (a : Axis) (p : BitVec 64) (now : Nat) : Axis :=
  let m := reduceMod p a.desc.mod
  { a with pos := p, mpos := m, prev := m, tl := now }

/-! ### Loss and recovery (05 R202-R206) -/

/-- An axis event record: the axis and POS. -/
def State.axisRecord (s : State) (code sev x : Nat) (pos : BitVec 64) : State :=
  s.fieldEvent code sev (0x28 + x) [BitVec.ofNat 32 x, loWord pos, hiWord pos]

def State.setAxis (s : State) (x : Nat) (a : Axis) : State := s.modField (fun f => f.modAxis x (fun _ => a))

/-- An axis loses its source, and goes on with its last velocity (05 R202, R203); one frozen by OVERSPEED holds. -/
def State.axisLost (s : State) (x : Nat) : State :=
  let a := s.field.axis x
  let v := s.field.rateAt x s.fieldNs
  if x = 0 ∨ !a.desc.en ∨ a.stale ∨ (a.frozen ∧ !a.overspeed) then s
  else
    let b := { (a.advance (isEncoder x) s.fieldNs) with stale := true, vel := v, base := v, goodRuns := 0 }
    (s.setAxis x b).axisRecord 0x0301 4 x b.pos

/-- AXIS_FROZEN: E has passed without recovery (05 R203). -/
def State.axisFreeze (s : State) (x : Nat) : State :=
  let a := s.field.axis x
  if a.stale ∧ !a.frozen ∧ a.desc.en ∧ x ≠ 0 then
    let b := { (a.advance (isEncoder x) s.fieldNs) with frozen := true, vel := {}, base := {} }
    (s.setAxis x b).axisRecord 0x0302 5 x b.pos
  else s

/-- AXIS_RECOVERED (05 R204). -/
def State.axisRecovered (s : State) (x : Nat) (a : Axis) : State :=
  (s.setAxis x { a with stale := false, frozen := false, overspeed := false }).axisRecord 0x0303 3 x a.pos

/-- The movement of one tick, by the unreduced position, reaches M/4 (05 R206). -/
def overspeeds (d : Int) (m : BitVec 64) : Bool := decide (m ≠ 0 ∧ 4 * d.natAbs ≥ m.toNat)

/-- An axis becomes FROZEN with OVERSPEED (05 R206; notes/assumptions/508.md). -/
def State.axisOverspeed (s : State) (x : Nat) : State :=
  let a := s.field.axis x
  let b := { (a.advance (isEncoder x) s.fieldNs) with frozen := true, overspeed := true, vel := {}, base := {}, skipped := 0 }
  (s.setAxis x b).axisRecord 0x0302 5 x b.pos

/-- The movement per 8 ns tick at a velocity has fallen below M/8 (05 R206). -/
def calm (v : Rate) (m : BitVec 64) : Bool := decide (64 * v.num.natAbs < m.toNat * v.den)

/-! ### Encoder edges (05 R193, R194, R199) -/

/-- The place of an A/B level pair in the forward sequence, A leading. -/
def quadrature (a b : Bool) : Nat := match a, b with
  | false, false => 0 | true, false => 1 | true, true => 2 | false, true => 3

/-- A counted edge at an instant (05 R199): history of 257 timestamps, newest first, and the velocity estimate (notes/assumptions/513.md). -/
def Axis.counted (a : Axis) (back : Bool) (te : Nat) : Axis :=
  let a := (a.move (if back then -65536 else 65536))
  if back ≠ a.lastdir ∨ a.hist = [] then
    { a with hist := [te], vel := {}, unkv := true, lastdir := back, rev := back, tl := te }
  else
    let h := (te :: a.hist).take 257
    let k := match h.findIdx? (fun t => decide (t + 4000 ≤ te)) with
      | some i => i
      | none => h.length - 1
    { a with hist := h, vel := ⟨if back then -(65536 * k : Nat) else (65536 * k : Nat), te - h.getD k te⟩, unkv := false, rev := back, tl := te }

/-- ENCODER_EDGE (05 R194, R199, R204, R206): the levels of A and B of encoder x at a sample tick. An axis that OVERSPEED
has frozen goes on counting and steps by what it has counted once it is calm. -/
def encoderEdgeOp (x : Nat) (a b : Bool) (s : State) : State :=
  let ax := s.field.axis x
  let i := 3 * (x - 1)
  let s := s.modField (fun f => ((f.modInp i (fun c => { c with lvl := a })).modInp (i + 1) (fun c => { c with lvl := b })).modAxis x
    (fun y => { y with lastA := a, lastB := b }))
  let dif := (quadrature a b + 4 - quadrature ax.lastA ax.lastB) % 4
  if !ax.desc.en ∨ dif = 0 then s
  else if dif = 2 then (s.modField (fun f => f.modAxis x (fun y => { y with errcnt := satInc y.errcnt }))).axisLost x
  else if ax.stale ∧ ax.openWire then s
  else
    let te := s.fieldNs
    let old := s.field.axis x
    let back := (dif == 3) != ax.desc.inv
    let lost := ax.stale || ax.frozen
    let held := if ax.stale ∧ !ax.frozen then old.advance true te else old
    let new := held.counted back te
    if ax.overspeed then
      let n := old.skipped + (if back then -65536 else 65536)
      let kept := { old with hist := new.hist, lastdir := new.lastdir, unkv := new.unkv, rev := back, tl := te, skipped := n
                             stale := false, reflost := old.reflost || ax.stale }
      if calm new.vel new.desc.mod then
        s.axisRecovered x { (kept.stepTo (old.pos + BitVec.ofInt 64 n) te) with vel := new.vel, skipped := 0 }
      else s.setAxis x kept
    else if lost then s.axisRecovered x { new with reflost := true }
    else s.setAxis x new

/-- HOME: a rising edge of Z with a home request pending (05 R195). -/
def homeOp (x : Nat) (s : State) : State :=
  let a := s.field.axis x
  if a.desc.en ∧ a.homep then
    s.setAxis x { (a.stepTo a.homeVal s.fieldNs) with homep := false, reflost := false }
  else s

/-! ### The mains phase axis (05 R196) -/

/-- The latest earlier crossing of the same direction. -/
def lastCrossing (h : List (Nat × Bool)) (rising : Bool) : Option Nat :=
  (h.find? (fun c => c.2 == rising)).map (fun c => c.1)

/-- A period of 45 Hz to 66 Hz in ns. -/
def mainsInRange (t : Nat) : Bool := decide (t * 66 ≥ 1000000000 ∧ t * 45 ≤ 1000000000)

/-- SYNC_CROSSING (05 R196, R204): the velocity follows the span of the latest two rising crossings, and the phase error
is removed by the velocity over the next half cycle, never in reverse; a STALE or FROZEN axis steps after two crossings in range (notes/assumptions/504.md). -/
def syncCrossingOp (rising : Bool) (s : State) : State :=
  let f := s.field
  let a := f.axis 5
  let te := s.fieldNs
  let h := f.syncT
  let s := s.modField (fun f => { f with syncT := ((te, rising) :: h).take 4 })
  if !a.desc.en then s
  else match lastCrossing h rising with
    | none => s
    | some t0 =>
      let t := te - t0
      let good := mainsInRange t
      let base : Rate := if rising ∧ t ≠ 0 then ⟨65536 * 65536, t⟩ else a.base
      let want := BitVec.ofInt 64 (((if rising then 0 else 32768) - a.desc.phofs.toInt) * 65536)
      let b := a.advance false te
      let e := smod (want - b.mpos) 0x100000000
      if good = false then (s.setAxis 5 { b with goodRuns := 0 }).axisLost 5
      else if a.stale ∨ a.frozen then
        if a.goodRuns + 1 < 2 then s.setAxis 5 { a with goodRuns := a.goodRuns + 1 }
        else s.axisRecovered 5 { (b.stepTo (b.pos + BitVec.ofInt 64 e) te) with
                                 goodRuns := 0, vel := base, base := base, adjEnd := te }
      else
        let v := base.plus e (t / 2)
        s.setAxis 5 { b with base := base, vel := if v.num < 0 then {} else v, adjEnd := te + t / 2, goodRuns := a.goodRuns + 1 }

/-! ### Virtual axes (05 R197, R198) -/

/-- Whether a frame carries axis x's position messages. -/
def AxDesc.matchesFrame (d : AxDesc) (ch : Nat) (c : CanFrame) : Bool :=
  d.en && decide (d.ch = decide (ch = 1)) && decide (d.xid = c.ext) && decide (d.ident = c.id)

def wordOfBytes (bs : List Byte) (i : Nat) : Word := wordAt (wordsOfBytes bs) i

/-- A frame of axis x's identifier: rejected with ERRCNT, or a valid message (05 R197, R198, R204, R206; notes/assumptions/502.md). -/
def State.virtualFrame (s : State) (x : Nat) (c : CanFrame) : State :=
  let a := s.field.axis x
  let age := (wordOfBytes c.data 3).toNat
  if !c.fdf ∨ c.data.length < 16 ∨ age > a.desc.period * 1000 then
    s.setAxis x { a with errcnt := satInc a.errcnt }
  else
    let now := s.fieldNs
    let p := long (wordOfBytes c.data 0) (wordOfBytes c.data 1)
    let at0 := c.sof - BitVec.ofNat 64 age
    let given := wordOfBytes c.data 2
    let v : Rate :=
      if given ≠ 0x80000000 then .ofWord given.toInt
      else match a.lastMsg with
        | some (t0, p0) => if t0 = at0 then .ofWord (Config.freeWord s.free).toInt else .of (p - p0).toInt (at0 - t0).toInt
        | none => .ofWord (Config.freeWord s.free).toInt
    let free := decide (given = 0x80000000) && (match a.lastMsg with
      | some (t0, _) => decide (t0 = at0)
      | none => true)
    let s := if free then s.draw else s
    let target := p + BitVec.ofInt 64 (v.travel (s.fieldAx0 - at0).toInt)
    let b := { (a.advance false now) with lastMsg := some (at0, p), rev := if v.num = 0 then a.rev else decide (v.num < 0) }
    let e := (target - b.pos).toInt
    let stepped := { (b.stepTo target now) with vel := v, base := v, adjEnd := now }
    if a.overspeed then
      if calm v a.desc.mod then s.axisRecovered x stepped else s.setAxis x { a with lastMsg := b.lastMsg, stale := false }
    else if a.stale ∨ a.frozen then s.axisRecovered x stepped
    else if e.natAbs ≤ a.desc.snap.toNat then
      s.setAxis x { b with base := v, vel := v.plus e (a.desc.period * 1000), adjEnd := now + a.desc.period * 1000 }
    else
      (s.setAxis x stepped).fieldEvent 0x0304 3 (0x28 + x) [BitVec.ofNat 32 x, loWord (BitVec.ofInt 64 e), hiWord (BitVec.ofInt 64 e)]

/-- The virtual axes take a received frame (05 R197). -/
def State.virtualAxes (s : State) (ch : Nat) (c : CanFrame) : State :=
  [6, 7].foldl (fun s x => if (s.field.axis x).desc.matchesFrame ch c then s.virtualFrame x c else s) s

/-- The eight words of an axis' state at an instant (05 R207). -/
def Field.axisWords (f : Field) (x now : Nat) : List Word :=
  let a := f.axis x
  let p := f.posAt x now
  let m := f.mposAt x now
  let ts := f.ax0At now
  [loWord p, hiWord p, loWord m, hiWord m, f.velAt x now,
   at_ 24 a.errcnt.toNat ||| flagAt 7 (f.axisOn x) ||| flagAt 6 a.overspeed ||| flagAt 5 a.reflost |||
     flagAt 4 a.homep ||| flagAt 3 a.unkv ||| flagAt 2 (f.axisFrozen x) ||| flagAt 1 a.stale ||| flagAt 0 a.rev,
   loWord ts, hiWord ts]

end Sys2Proof.Machine
end

