-- ==== Sys2Proof/Machine/FieldDie.lean ====
section
/-! DEFINITION. The field die's inputs, outputs, counters, diagnosis, supply and safe state (09 R342-R356). -/

namespace Sys2Proof.Machine

/-! ### Diagnosis (09 R340) -/

/-- Queue a DIAG entry; a full queue of 256 drops it. -/
def Field.diagnose (f : Field) (set : Bool) (code : Nat) (param : BitVec 8) (chan : Nat) (time : BitVec 64) : Field :=
  if f.diagq.length < 256 then { f with diagq := f.diagq ++ [⟨set, code, param, chan, time⟩] }
  else { f with dovf := satInc f.dovf }

/-! ### Output switches (09 R345) -/

/-- The switch of DOn by the first row of R345 that applies; a safe value of hold keeps the level before. -/
def Field.switchOf (f : Field) (n : Nat) : Switch :=
  let o := f.out n
  let l := f.out (f.leader n)
  let level := fun (b : Bool) => if b then Switch.on else Switch.off
  let safe := match f.safeOf n with
    | 1 => Switch.on
    | 2 => if f.everCfgMatch ∧ o.sw = .on then Switch.on else .off
    | _ => .off
  let cmd := if f.everCfgMatch then l.cmd else .safe
  if o.latched then .off
  else if f.lstate = .missing then .off
  else if f.shared n ∧ (cmd = .pdrive ∨ f.safeact) then .partner
  else if f.safeact then safe
  else match cmd with
    | .safe => safe
    | .pdrive => safe
    | .forced => level l.val
    | .run => if f.isPlaced (f.leader n) then level l.placed else level l.val

/-- The barrier cycle of an instant of the timebase, by the latest alignment with pair time (09 R327). -/
def Field.barrierCycle (f : Field) (now : Nat) : Nat :=
  (BitVec.ofNat 64 now + f.ax0off).toNat / (if f.econ then 125000 else 31250)

/-- A barrier cycle in which a switch turned on, newest first; R354 looks back 100 µs. -/
def addCycle (c : Nat) (cs : List Nat) : List Nat := if cs.head? = some c then cs else (c :: cs).take 8

/-- One channel's switch follows the table; turning on clears EXTDRV (09 R353). -/
def State.refreshOut (s : State) (n : Nat) : State :=
  let f := s.field
  let o := f.out n
  let w := f.switchOf n
  if w = o.sw then s
  else
    let f := f.modOut n (fun x => { x with sw := w, offAt := if o.sw = .on then some s.fieldNs else x.offAt
                                           onCycles := if w = .on then addCycle (f.barrierCycle s.fieldNs) x.onCycles else x.onCycles })
    let f := if w = .on ∧ o.extdrv then
        (f.modOut n (fun x => { x with extdrv := false })).diagnose false 0x04 0 (0x20 + f.leader n) s.fieldAx0 else f
    { s with field := f }

/-- Every switch follows the table. -/
def State.refreshOuts (s : State) : State := (List.range 16).foldl (fun s n => s.refreshOut n) s

/-! ### Latch-off, external drive, diagnostic slots -/

/-- LATCH_OFF (09 R350, R351): the whole group latches off, every channel's SCCNT counts, SHORT stands on the leader. -/
def latchOffOp (d : Nat) (overtemp : Bool) (s : State) : State :=
  let f := s.field
  let o := f.out d
  if o.latched ∨ (overtemp = false ∧ o.sw ≠ .on) then s
  else
    let wired := (f.groupOf d).any (fun n => (f.out n).wt && decide ((f.out ((f.out n).wtp.toNat % 64 - 0x20)).sw = .on))
    let param : BitVec 8 := if overtemp then 1 else if wired then 2 else 0
    let g := (f.groupOf d).foldl (fun g n => g.modOut n (fun x =>
      { x with latched := true, latchedAt := s.fieldNs, sccnt := satInc x.sccnt })) f
    State.refreshOuts { s with field := g.diagnose true 0x02 param (0x20 + f.leader d) s.fieldAx0 }

/-- The candidates for a wired partner of channel x: switches outside its group that turned on in the barrier cycle in
which x's pin first read 10 V, 100 µs before EXTDRV sets (09 R354). -/
def State.wiredTo (s : State) (x : Nat) : List Nat :=
  let f := s.field
  (List.range 16).filter (fun y => decide (f.leader y ≠ f.leader x) &&
    (f.out y).onCycles.contains (f.barrierCycle (s.fieldNs - 100000)))

/-- EXTDRV (09 R351, R353, R354): decided for a group on its leader (notes/assumptions/905.md). -/
def extdrvOp (n : Nat) (s : State) : State :=
  let f := s.field
  let d := f.leader n
  let o := f.out d
  if o.extdrv ∨ o.sw = .on ∨ (o.sw = .partner ∧ f.role = 2) then s
  else
    let g := (f.modOut d (fun x => { x with extdrv := true })).diagnose true 0x04 0 (0x20 + d) s.fieldAx0
    match s.wiredTo d with
    | [] => { s with field := g }
    | y :: rest =>
      let par : BitVec 8 := BitVec.ofNat 8 (0x20 + y) ||| (if rest = [] then 0 else 0x80)
      { s with field := (g.modOut d (fun x => { x with wt := true, wtp := BitVec.ofNat 8 (0x20 + y) })).diagnose true 0x05 par (0x20 + d) s.fieldAx0 }

/-- EXTDRV_CLEAR (09 R351, R353). -/
def extdrvClearOp (n : Nat) (s : State) : State :=
  let f := s.field
  let d := f.leader n
  if (f.out d).extdrv then
    { s with field := (f.modOut d (fun x => { x with extdrv := false })).diagnose false 0x04 0 (0x20 + d) s.fieldAx0 }
  else s

/-- The axis and input of an encoder triple: DI3k is A, DI3k + 1 is B of AX(k + 1) (05 R193). -/
def encoderOf (i : Nat) : Option Nat := if i < 12 ∧ i % 3 < 2 then some (i / 3 + 1) else none

/-- One evaluation of open-wire detection on DIi (09 R348): two in a row change the state; OPENW on A or B of an enabled
encoder axis makes it STALE (05 R202). -/
def State.openWire (s : State) (low : Bool) (i : Nat) : State :=
  let f := s.field
  if !f.owen i then s
  else
    let c := f.inp i
    if low = c.openw then { s with field := f.modInp i (fun x => { x with owCnt := 0 }) }
    else if c.owCnt = 0 then { s with field := f.modInp i (fun x => { x with owCnt := 1 }) }
    else
      let f := (f.modInp i (fun x => { x with openw := low, owCnt := 0 })).diagnose low 0x01 0 i s.fieldAx0
      match encoderOf i with
      | none => { s with field := f }
      | some x =>
        let f' := f.modAxis x (fun a => { a with openWire := (f.inp (3 * (x - 1))).openw || (f.inp (3 * (x - 1) + 1)).openw })
        if low then State.axisLost { s with field := f' } x else { s with field := f' }

/-- One evaluation of open-load detection on DOn (09 R351, R352): on a group's leader, switch off for at least 1 ms, L+
not MISSING. A pin at 10 V or more counts toward neither state (notes/assumptions/906.md). -/
def State.openLoad (s : State) (band high : Bool) (n : Nat) : State :=
  let f := s.field
  let o := f.out n
  if !f.olen n ∨ f.leader n ≠ n ∨ o.sw ≠ .off ∨ f.lstate = .missing ∨ o.offAt.any (fun t => s.fieldNs < t + 1000000) then s
  else if high ∨ band = o.openl then { s with field := f.modOut n (fun x => { x with olCnt := 0 }) }
  else if o.olCnt = 0 then { s with field := f.modOut n (fun x => { x with olCnt := 1 }) }
  else { s with field := (f.modOut n (fun x => { x with openl := band, olCnt := 0 })).diagnose band 0x03 0 (0x20 + n) s.fieldAx0 }

/-- DIAGNOSTIC_SLOT (09 R346): bit i of `low` says that DIi draws less than 0.35 mA, bit n of `band` that DOn's pin
reads from 4 V to below 10 V, bit n of `high` that it reads 10 V or more. -/
def diagnosticSlotOp (low : BitVec 32) (band high : BitVec 16) (s : State) : State :=
  let s := (List.range 32).foldl (fun s i => s.openWire (low.getLsbD i) i) s
  (List.range 16).foldl (fun s n => s.openLoad (band.getLsbD n) (high.getLsbD n) n) s

/-! ### Inputs and fast counters -/

/-- FILTER_CHANGE (09 R347): the standard inputs are DI12-DI31. -/
def filterChangeOp (i : Nat) (level : Bool) (s : State) : State :=
  if 12 ≤ i then s.modField (fun f => f.modInp i (fun x => { x with lvl := level })) else s

/-- A counted edge of a fast counter at a field AX0 instant (09 R349). -/
def FastCtr.edge (c : FastCtr) (now : Nat) : FastCtr :=
  { c with cnt := c.cnt + 1, carry := c.carry || decide (c.cnt = 0xFFFFFFFF), edges := min (c.edges + 1) 2, last := now
           per := if c.edges = 0 then 0xFFFFFFFF else BitVec.ofNat 32 (min (now - c.last) 0xFFFFFFFF) }

/-- FAST_COUNTER_EDGE (09 R349): the input takes its level, and a selected edge counts. -/
def fastCounterEdgeOp (k : Nat) (rising : Bool) (s : State) : State :=
  s.modField (fun f =>
    let f := f.modInp k (fun x => { x with lvl := rising })
    let m := f.cmode k
    if m = 3 ∨ (m = 1 ∧ rising) ∨ (m = 2 ∧ !rising) then f.modCtr k (fun c => c.edge s.fieldNs) else f)

/-- PERk at an instant (09 R349). -/
def FastCtr.period (c : FastCtr) (now : Nat) : Word :=
  if c.edges < 2 then 0xFFFFFFFF else BitVec.ofNat 32 (min (max c.per.toNat (now - c.last)) 0xFFFFFFFF)

/-- The 24 counter words (09 R349). -/
def State.counterWords (s : State) : List Word :=
  (List.range 12).map (fun k => (s.field.ctr k).cnt) ++ (List.range 12).map (fun k => (s.field.ctr k).period s.fieldNs)

/-! ### Supply and safe state -/

/-- SUPPLY_TRANSITION (09 R355): a transition that the present state leaves. -/
def supplyTransitionOp (c : SupplyChange) (s : State) : State :=
  let f := s.field
  let f' := match c with
    | .toOk => if f.lstate = .low then { f with lstate := .ok } else f
    | .toLow => if f.lstate = .ok ∨ f.lstate = .missing then { f with lstate := .low } else f
    | .toMissing => { f with lstate := .missing }
    | .highOn => { f with high := true }
    | .highOff => { f with high := false }
  State.refreshOuts { s with field := f' }

end Sys2Proof.Machine
end

