-- ==== Sys2Proof/Machine/BusDie.lean ====
section
/-! DEFINITION. The field bus channels on the field die: receive objects, transmit buffers, errors and the station
engine (10 R362-R389). -/

namespace Sys2Proof.Machine

def Field.can (f : Field) (c : Nat) : Can := f.cans.get (fun _ => {}) c
def Field.modCan (f : Field) (c : Nat) (g : Can → Can) : Field := { f with cans := f.cans.set (fun _ => {}) c (g (f.can c)) }
def Can.buf (k : Can) (b : Nat) : TxBuf := k.bufs.get (fun _ => {}) b
def Can.modBuf (k : Can) (b : Nat) (g : TxBuf → TxBuf) : Can := { k with bufs := k.bufs.set (fun _ => {}) b (g (k.buf b)) }
def Can.station (k : Can) (n : Nat) : Station := k.stations.get (fun _ => {}) n
def Can.modStation (k : Can) (n : Nat) (g : Station → Station) : Can :=
  { k with stations := k.stations.set (fun _ => {}) n (g (k.station n)) }
def Can.obj (k : Can) (i : Nat) : List Word := k.objs.get (fun _ => List.replicate 18 0) i
def Can.setObj (k : Can) (i : Nat) (ws : List Word) : Can := { k with objs := k.objs.set (fun _ => List.replicate 18 0) i ws }

/-! ### The channel descriptor (10 R366, R367) -/

def Can.on (k : Can) : Bool := (wordAt k.desc 0).getLsbD 31
def Can.fd (k : Can) : Bool := (wordAt k.desc 0).getLsbD 30
def Can.brs (k : Can) : Bool := (wordAt k.desc 0).getLsbD 29
def Can.byNumber (k : Can) : Bool := (wordAt k.desc 0).getLsbD 27
def Can.autoRecover (k : Can) : Bool := (wordAt k.desc 0).getLsbD 26
def Can.rlim (k : Can) : Nat := fld (wordAt k.desc 0) 25 21
/-- The termination of channel c is switched on: only while the field die is powered and configured with TERM = 1 (10 R363, R366). -/
def Field.terminated (f : Field) (c : Nat) : Bool := f.powered && f.cfgok && (wordAt (f.can c).desc 0).getLsbD 28
/-- The two words of station n of channel c (10 R365, R367). -/
def stationEntry (fbus : List Word) (c n : Nat) : Word := wordAt fbus (136 + 126 * c + 2 * (n - 1))
def Field.stationOn (f : Field) (c n : Nat) : Bool := decide (1 ≤ n ∧ n ≤ 63) && (stationEntry f.cfgFbus c n).getLsbD 31
def stationToc (w : Word) : Nat := if fld w 26 23 = 0 then 3 else fld w 26 23

/-! ### The status record (10 R384) -/

/-- EST: disabled, bus-off, error passive or error active (10 R380, R384). -/
def Can.estate (k : Can) : Nat :=
  if !k.on then 3 else if k.est = 2 then 2 else if k.tec > 127 ∨ k.recn > 127 then 1 else 0

def Can.status0 (k : Can) : Word :=
  at_ 24 (min k.tec 255) ||| at_ 16 (min k.recn 255) ||| at_ 14 k.estate ||| flagAt 13 k.noPartner ||| flagAt 12 k.idClash |||
  flagAt 11 k.bowait ||| flagAt 10 k.txoff ||| flagAt 9 k.stuck ||| k.lec.setWidth 32

/-- The four words of the channel's status record. -/
def Can.statusWords (k : Can) : List Word :=
  [k.status0, flagAt 31 k.clxtd ||| k.clashId.setWidth 32, k.xdisc ++ k.errf, k.mrg ++ k.txabort]

/-! ### Records that wait for BUS_RX_NOTE (10 R371) -/

/-- At most one record waits for each object; a later frame updates it in place. -/
def noteObj (ps : List BusPend) (c i : Nat) (new : Bool) (nrx : Nat) : List BusPend :=
  match ps with
  | [] => [.obj c i new nrx]
  | .obj c' i' new' nrx' :: t =>
    if c' = c ∧ i' = i then .obj c i (new' || new) (min (nrx' + nrx) 255) :: t else .obj c' i' new' nrx' :: noteObj t c i new nrx
  | p :: t => p :: noteObj t c i new nrx

def Field.noteObject (f : Field) (c i : Nat) (new : Bool) (nrx : Nat) : Field :=
  { f with busPend := noteObj f.busPend c i new nrx }
def Field.noteStatus (f : Field) (c : Nat) : Field :=
  if f.busPend.contains (.stat c) then f else { f with busPend := f.busPend ++ [.stat c] }
def Field.noteDone (f : Field) (c i : Nat) (r : BitVec 3) (n : Nat) : Field :=
  { f with busPend := f.busPend ++ [.done c i r n] }

/-- A change of the channel; a change of word 0 sends the status record. -/
def Field.channel (f : Field) (c : Nat) (g : Can → Can) : Field :=
  let f' := f.modCan c g
  if (f'.can c).status0 = (f.can c).status0 then f' else f'.noteStatus c

def State.channel (s : State) (c : Nat) (g : Can → Can) : State := s.modField (fun f => f.channel c g)

/-- An event of channel c. -/
def State.busEvent (s : State) (c code sev : Nat) (ps : List Word) : State := s.fieldEvent code sev (0x30 + c) ps

/-! ### Transmit buffers (10 R375-R379, R386) -/

def validFdLen (n : Nat) : Nat :=
  if n ≤ 8 then n else if n ≤ 12 then 12 else if n ≤ 16 then 16 else if n ≤ 20 then 20 else if n ≤ 24 then 24
  else if n ≤ 32 then 32 else if n ≤ 48 then 48 else 64

/-- A content that completes with BADFMT (10 R375). -/
def Can.badFormat (k : Can) (ws : List Word) : Bool :=
  let w := wordAt ws 0
  let i := wordAt ws 1
  let len := fld w 6 0
  (decide (len > 8) && !w.getLsbD 27) || (w.getLsbD 27 && !k.fd) || (w.getLsbD 25 && w.getLsbD 27) || decide (len > 64) ||
  (!i.getLsbD 31 && decide (fld i 28 0 > 0x7FF))

/-- A waiting request whose content cannot be sent completes (10 R375, R379). -/
def Field.settle (f : Field) (c b : Nat) : Field :=
  let k := f.can c
  let t := k.buf b
  if t.st = .pend ∧ k.badFormat t.words then
    (f.modCan c (fun k => k.modBuf b (fun t => { t with st := .idle, again := false }))).noteDone c b 3 t.count
  else f

/-- Transmission is stopped: SAFE before its acknowledgement, STBY on a standby (10 R386). -/
def Field.stopResult (f : Field) : Option (BitVec 3) :=
  if f.safeact then some 4 else if f.role = 2 then some 6 else none

/-- An attempt is on the bus. -/
def Can.busy (k : Can) : Bool :=
  (List.range 3).any (fun b => decide ((k.buf b).st = .txing)) || k.stations.any (fun e => decide (e.2.buf.st = .txing))

/-- A send request for buffer b of channel c (10 R377, R386). -/
def Field.request (f : Field) (c b : Nat) : Field :=
  match f.stopResult with
  | some r => f.noteDone c b r 0
  | none =>
    match ((f.can c).buf b).st with
    | .idle => (f.modCan c (fun k => k.modBuf b (fun t => { t with st := .pend, count := 0 }))).settle c b
    | .pend => f.modCan c (fun k => { k with mrg := satInc k.mrg })
    | .txing => f.modCan c (fun k => k.modBuf b (fun t => { t with again := true }))

/-- A content for buffer b of channel c (10 R377). -/
def Field.content (f : Field) (c b : Nat) (ws : List Word) : Field :=
  match ((f.can c).buf b).st with
  | .txing => f.modCan c (fun k => k.modBuf b (fun t => { t with next := some ws }))
  | _ => (f.modCan c (fun k => k.modBuf b (fun t => { t with words := ws }))).settle c b

/-- A request ends with a result (10 R379). -/
def Field.finish (f : Field) (c b : Nat) (r : BitVec 3) : Field :=
  let t := (f.can c).buf b
  (f.modCan c (fun k => k.modBuf b (fun t =>
    { t with st := .idle, again := false, due := none, words := t.next.getD t.words, next := none }))).noteDone c b r t.count

/-- The channel's transmission stops or resumes with the safe state and the role; its requests complete once the current
attempt has ended (10 R386). -/
def Field.refreshTx (f : Field) (c : Nat) : Field :=
  match f.stopResult with
  | none => f.channel c (fun k => { k with txoff := false })
  | some r =>
    let f := f.channel c (fun k => { k with txoff := true })
    (List.range 3).foldl (fun f b =>
      if ((f.can c).buf b).st = .idle then f
      else if (f.can c).busy then f.modCan c (fun k => k.modBuf b (fun t => { t with due := some (t.due.getD r) }))
      else f.finish c b r) f

/-- The requests that waited for the end of the attempt to complete (10 R386). -/
def Field.finishDue (f : Field) (c : Nat) : Field :=
  (List.range 3).foldl (fun f b =>
    match ((f.can c).buf b).due with
    | some r => f.finish c b r
    | none => f) f

/-! ### Errors and bus-off (10 R380, R381, R383) -/

/-- Entry of bus-off: every PEND or TXING buffer completes with BOFF, and a station's frame waits (10 R380). -/
def State.busOff (s : State) (c : Nat) : State :=
  let s := s.channel c (fun k => { k with est := 2, bowait := !k.autoRecover, recovering := k.autoRecover, line := none })
  let s := s.modField (fun f =>
    let f := (List.range 3).foldl (fun f b => if ((f.can c).buf b).st = .idle then f else f.finish c b 5) f
    f.modCan c (fun k => { k with stations := k.stations.map (fun e =>
      (e.1, if e.2.buf.st = .txing then
        { e.2 with buf := { e.2.buf with st := .pend, words := e.2.buf.next.getD e.2.buf.words, next := none } } else e.2)) }))
  s.busEvent c 0x0501 5 []

/-- The error counters after an error (10 R380, R381; notes/assumptions/1002.md). An error-passive transmitter does not count
an ACK error. -/
def Can.counted (k : Can) (lec : BitVec 3) : ErrorStep → Can
  | .receiver n => { k with recn := min (k.recn + 1 + 8 * n) 255 }
  | .transmitter n => if lec = 3 ∧ k.estate = 1 then k else { k with tec := k.tec + 8 + 8 * n }
  | .excepted => k

/-- A bus error or an error frame on an enabled channel: counters, LEC, event, and bus-off at a transmit error counter of 256
(10 R380, R383). -/
def State.errorSeen (s : State) (c : Nat) (lec : BitVec 3) (e : ErrorStep) : State :=
  let s := (s.channel c (fun k => { k.counted lec e with errf := satInc k.errf, lec := lec })).busEvent c 0x0505 2 []
  if (s.field.can c).tec ≥ 256 then s.busOff c else s

/-- ERROR_FRAME (10 R380, R383). -/
def errorFrameOp (c : Nat) (lec : BitVec 3) (e : ErrorStep) (s : State) : State :=
  if !(s.field.can c).on ∨ (s.field.can c).est = 2 then s else s.errorSeen c lec e

/-! ### Reception (10 R369, R370) -/

/-- The object that takes a frame: by standard identifier, or by the extended-identifier list. -/
def Field.objectFor (f : Field) (c : Nat) (fr : CanFrame) : Option Nat :=
  if !fr.ext then some fr.id.toNat
  else ((List.range 64).find? (fun k =>
    let w := wordAt f.cfgFbus (8 + 64 * c + k)
    w.getLsbD 31 && decide (w.extractLsb' 0 29 = fr.id))).map (fun k => 2048 + k)

/-- The 18 words of an object that a frame overwrites; UCNT counts, STS stays. -/
def objectWords (old : List Word) (fr : CanFrame) : List Word :=
  let ucnt := (fld (wordAt old 0) 23 16 + 1) % 256
  let data := wordsOfBytes fr.data
  [flagAt 29 true ||| flagAt 28 fr.fdf ||| flagAt 27 fr.brs ||| flagAt 26 fr.esi ||| flagAt 25 fr.rtr ||| at_ 16 ucnt |||
     (wordAt old 0 &&& 0x300) ||| at_ 0 fr.len,
   flagAt 31 fr.ext ||| fr.id.setWidth 32] ++ data ++ List.replicate (16 - data.length) 0

/-- The receive error counter after a good frame: from above 127 the standard sets a value between 119 and 127 (notes/assumptions/1001.md). -/
def recAfterGood (r free : Nat) : Nat := if r > 127 then 119 + free % 9 else r - 1

/-- A station's input frame is stored (10 R387, R389). -/
def Field.stationInput (f : Field) (c i : Nat) : Field :=
  if 0x101 ≤ i ∧ i ≤ 0x13F ∧ f.stationOn c (i - 0x100) then
    f.modCan c (fun k => k.modStation (i - 0x100) (fun n => { n with gotInput := true }))
  else f

/-- CAN_FRAME_RECEIVE (10 R362, R369, 05 R197): an error-free frame of another node on an enabled channel. A channel with
FD = 0 answers an FD frame with an error frame (notes/assumptions/1010.md). -/
def canFrameReceiveOp (c : Nat) (fr : CanFrame) (s : State) : State :=
  let k := s.field.can c
  if !k.on ∨ k.est = 2 then s
  else if fr.fdf ∧ !k.fd then s.errorSeen c 2 (.receiver 0)
  else
    let s := s.draw.channel c (fun k => { k with recn := recAfterGood k.recn (Config.freeNat s.free) })
    let s := match s.field.objectFor c fr with
      | some i => s.modField (fun f =>
          ((f.modCan c (fun k => k.setObj i (objectWords (k.obj i) fr))).noteObject c i true 1).stationInput c i)
      | none => s.modField (fun f => f.modCan c (fun k => { k with xdisc := satInc k.xdisc }))
    s.virtualAxes c fr

/-! ### Arbitration and attempts (10 R377, R378, R380-R382) -/

/-- The arbitration priority of a frame; lower wins. -/
def arbKey (ws : List Word) : Nat :=
  let i := wordAt ws 1
  let rtr := if (wordAt ws 0).getLsbD 25 then 1 else 0
  if i.getLsbD 31 then fld i 28 18 * 2 ^ 21 + 2 ^ 20 + 2 ^ 19 + (fld i 17 0) * 2 + rtr
  else fld i 10 0 * 2 ^ 21 + rtr * 2 ^ 20

/-- A frame that waits for the bus: a station's (true) or a buffer's, with its number and words. -/
def Can.waiting (k : Can) : List (Bool × Nat × List Word) :=
  ((List.range 64).filter (fun n => decide ((k.station n).buf.st = .pend))).map (fun n => (true, n, (k.station n).buf.words)) ++
  ((List.range 3).filter (fun b => decide ((k.buf b).st = .pend))).map (fun b => (false, b, (k.buf b).words))

/-- The frame offered (10 R378): the station engine first among equals, then the lower number (notes/assumptions/1004.md). -/
def Can.offered (k : Can) : Option (Bool × Nat) :=
  let best := fun (xs : List (Bool × Nat × List Word)) =>
    xs.foldl (fun (b : Option (Bool × Nat × List Word)) x =>
      match b with
      | none => some x
      | some y => if arbKey x.2.2 < arbKey y.2.2 then some x else some y) none
  let pick := if k.byNumber then
      (match best (k.waiting.filter (fun x => x.1)) with
       | some x => some x
       | none => k.waiting.head?)
    else best k.waiting
  pick.map (fun x => (x.1, x.2.1))

/-- The frame sent from transmit words (10 R362, R375): an FD frame with its length raised to a valid one and padded, its bit
rate switched only on a channel with BRS = 1, its ESI the channel's error state. -/
def Can.frameOf (k : Can) (ws : List Word) (sof : BitVec 64) : CanFrame :=
  let w := wordAt ws 0
  let i := wordAt ws 1
  let len := fld w 6 0
  let fdf := w.getLsbD 27
  let sent := if fdf then validFdLen len else len
  { ext := i.getLsbD 31, fdf := fdf, brs := fdf && w.getLsbD 26 && k.brs, esi := fdf && decide (k.estate = 1), rtr := w.getLsbD 25
    id := i.extractLsb' 0 29, len := sent, sof := sof
    data := if w.getLsbD 25 then [] else (bytesOfWords (ws.drop 2)).take len ++ List.replicate (sent - len) 0 }

/-- ARBITRATION_START (10 R378). -/
def arbitrationStartOp (c : Nat) (s : State) : State :=
  let k := s.field.can c
  if !k.on ∨ k.est = 2 ∨ k.txoff ∨ k.busy then s
  else match k.offered with
    | none => s
    | some (true, n) => s.channel c (fun k =>
        { k.modStation n (fun x => { x with buf := { x.buf with st := .txing } }) with
          line := some (k.frameOf (k.station n).buf.words s.fieldAx0) })
    | some (false, b) => s.channel c (fun k =>
        { k.modBuf b (fun t => { t with st := .txing }) with line := some (k.frameOf (k.buf b).words s.fieldAx0) })

/-- What an attempt's end says of the channel's error bookkeeping (10 R381, R382): the run of ACK errors, the clash
count of its sender, and LEC. -/
def lecOf : Attempt → Option (BitVec 3)
  | .ackError => some 3
  | .bitError _ l => some l
  | .otherError l => some l
  | _ => none

/-- The clash count after an attempt of identifier `i` (10 R382; notes/assumptions/1003.md). -/
def clashCount (count : Nat) (last i : Word) : Attempt → Nat
  | .bitError true _ => (if last = i then count else 0) + 1
  | .success => 0
  | _ => if last = i then count else 0

/-- The last-error code an attempt leaves (10 R381). -/
def State.noteLec (s : State) (c : Nat) (r : Attempt) : State :=
  match lecOf r with
  | some l => s.channel c (fun k => { k with lec := l })
  | none => s

/-- An ACK error: the sixteenth in a row sets NO_PARTNER, with its event (10 R381). -/
def State.ackError (s : State) (c : Nat) : State :=
  let n := (s.field.can c).ackRun + 1
  let report := n ≥ 16 ∧ !(s.field.can c).noPartner
  let s1 := s.channel c (fun k => { k with ackRun := min n 16, noPartner := k.noPartner || decide (n ≥ 16) })
  if report then s1.busEvent c 0x0503 4 [BitVec.ofNat 32 c] else s1

/-- The channel's own counters at an attempt's end: 16 ACK errors set NO_PARTNER, a success clears it (10 R381). -/
def State.attemptAck (s : State) (c : Nat) (r : Attempt) : State :=
  match r with
  | .ackError => (s.noteLec c r).ackError c
  | .success => (s.noteLec c r).channel c (fun k => { k with ackRun := 0, noPartner := false, tec := k.tec - 1 })
  | _ => (s.noteLec c r).channel c (fun k => { k with ackRun := 0 })

/-- Eight attempts that end in a bit error set ID_CLASH (10 R382). -/
def State.clash (s : State) (c count : Nat) (i : Word) (r : Attempt) : State :=
  match r with
  | .bitError true _ =>
    if count = 8 then
      (s.channel c (fun k => { k with idClash := true, clashId := i.extractLsb' 0 29, clxtd := i.getLsbD 31 })).busEvent c 0x0504 5
        [BitVec.ofNat 32 c, i &&& 0x9FFFFFFF]
    else s
  | _ => s

/-- A failed attempt of a buffer (10 R377, R379). -/
def Field.bufferFails (f : Field) (c b : Nat) : Field :=
  let k := f.can c
  let t := k.buf b
  let f := f.modCan c (fun k => k.modBuf b (fun t => { t with count := t.count + 1 }))
  if t.count + 1 ≤ k.rlim then
    (f.modCan c (fun k => { k.modBuf b (fun t => { t with st := .pend, again := false, words := t.next.getD t.words, next := none })
      with mrg := if t.again then satInc k.mrg else k.mrg })).settle c b
  else (f.modCan c (fun k => { k with txabort := satInc k.txabort })).finish c b 2

/-- The end of a buffer's attempt (10 R377, R386); a request that a stop ends counts this attempt too (R371). -/
def Field.bufferEnds (f : Field) (c b : Nat) (r : Attempt) : Field :=
  let t := (f.can c).buf b
  if t.due.isSome then f.modCan c (fun k => k.modBuf b (fun t => { t with count := t.count + (if r = .lostArbitration then 0 else 1) }))
  else match r with
    | .success =>
      let f := f.modCan c (fun k => k.modBuf b (fun t => { t with count := t.count + 1 }))
      let f := f.finish c b 1
      if t.again then (f.modCan c (fun k => k.modBuf b (fun t => { t with st := .pend, count := 0 }))).settle c b else f
    | .lostArbitration =>
      (f.modCan c (fun k => k.modBuf b (fun t => { t with st := .pend, words := t.next.getD t.words, next := none }))).settle c b
    | _ => f.bufferFails c b

/-- The end of a station frame's attempt (10 R388): it ends on a success or after RLIM + 1 attempts (notes/assumptions/1007.md). -/
def Field.stationEnds (f : Field) (c n : Nat) (r : Attempt) : Field :=
  let k := f.can c
  let t := (k.station n).buf
  let upd := fun (st : BufSt) (count : Nat) (f : Field) => f.modCan c (fun k => k.modStation n (fun x =>
    { x with buf := { x.buf with st := st, count := count, words := x.buf.next.getD x.buf.words, next := none } }))
  match r with
  | .success => upd .idle 0 f
  | .lostArbitration => upd .pend t.count f
  | _ =>
    if t.count + 1 ≤ k.rlim then upd .pend (t.count + 1) f
    else (upd .idle 0 (f.modCan c (fun k => { k with txabort := satInc k.txabort }))).noteDone c (0x100 + n) 2 (t.count + 1)

/-- ATTEMPT_END (10 R377, R379, R381, R382). -/
def attemptEndOp (c : Nat) (r : Attempt) (s : State) : State :=
  let k := s.field.can c
  let s := s.modField (fun f => f.modCan c (fun k => { k with line := none }))
  match (List.range 3).find? (fun b => decide ((k.buf b).st = .txing)) with
  | some b =>
    let t := k.buf b
    let i := wordAt t.words 1
    let n := clashCount t.clash t.clashId i r
    let s := (s.attemptAck c r).modField (fun f =>
      ((f.modCan c (fun k => k.modBuf b (fun t => { t with clash := n, clashId := i }))).bufferEnds c b r).finishDue c)
    s.clash c n i r
  | none =>
    match (List.range 64).find? (fun n => decide ((k.station n).buf.st = .txing)) with
    | some m =>
      let i := wordAt (k.station m).buf.words 1
      let n := clashCount k.engClash k.engId i r
      let s := (s.attemptAck c r).modField (fun f =>
        ((f.modCan c (fun k => { k with engClash := n, engId := i })).stationEnds c m r).finishDue c)
      s.clash c n i r
    | none => s

/-! ### Recovery and commands (10 R380, R383, R384, R395) -/

/-- RECOVER (10 R380). -/
def recoverOp (c : Nat) (s : State) : State :=
  if (s.field.can c).est = 2 ∧ (s.field.can c).bowait then
    s.channel c (fun k => { k with bowait := false, recovering := true })
  else s

/-- BUS_OFF_RECOVERY_END (10 R380). -/
def busOffRecoveryEndOp (c : Nat) (s : State) : State :=
  if (s.field.can c).est = 2 ∧ (s.field.can c).recovering then
    (s.channel c (fun k => { k with est := 0, recovering := false, tec := 0, recn := 0 })).busEvent c 0x0502 3 []
  else s

/-- STUCK and RECESSIVE_IDLE_PERIOD (10 R383). -/
def stuckOp (c : Nat) (s : State) : State := if (s.field.can c).on then s.channel c (fun k => { k with stuck := true }) else s
def recessiveIdleOp (c : Nat) (s : State) : State := s.channel c (fun k => { k with stuck := false })

/-- STATUS_RECORD_PERIODIC (10 R384). -/
def statusRecordOp (c : Nat) (s : State) : State := s.modField (fun f => f.noteStatus c)

/-- CLRST: ID_CLASH and CLASHID clear (10 R382, R395). -/
def clrstOp (c : Nat) (s : State) : State := s.channel c (fun k => { k with idClash := false, clashId := 0, clxtd := false })

/-- CLRCNT: the counters of words 2 and 3 clear (10 R384, R395). -/
def clrcntOp (c : Nat) (s : State) : State := s.modField (fun f => f.modCan c (fun k => { k with xdisc := 0, errf := 0, mrg := 0, txabort := 0 }))

/-! ### The station engine (10 R387-R389) -/

def Sts.code : Sts → Nat
  | .wait => 0 | .ok => 1 | .stale => 2 | .down => 3

/-- STS at the end of a cycle window (10 R389). -/
def Station.judge (n : Station) (toc : Nat) : Station :=
  if n.gotInput then { n with sts := .ok, missed := 0, gotInput := false }
  else
    let m := n.missed + 1
    { n with missed := m, sts := if m ≥ toc then .down else if n.sts = .ok then .stale else n.sts }

/-- The end of station n's cycle window; a change of STS reaches the mirror. -/
def Field.windowEnd (f : Field) (c n : Nat) : Field :=
  let old := (f.can c).station n
  if !old.started then f.modCan c (fun k => k.modStation n (fun x => { x with started := true, gotInput := false }))
  else
    let new := old.judge (stationToc (stationEntry f.cfgFbus c n))
    let f := f.modCan c (fun k => k.modStation n (fun _ => new))
    if new.sts = old.sts then f
    else
      let i := 0x100 + n
      let f := f.modCan c (fun k =>
        let o := k.obj i
        k.setObj i (((wordAt o 0 &&& 0xFFFFFCFF) ||| at_ 8 new.sts.code) :: o.drop 1))
      (f.noteObject c i false 0).noteStatus c

/-- Byte k of a station output frame's data, little-endian in words. -/
def byteOf (ws : List Word) (k : Nat) : Byte := (wordAt ws (k / 4)).extractLsb' (8 * (k % 4)) 8

/-- The output frame of station n (10 R387), as transmit words. -/
def Field.stationFrame (f : Field) (c n : Nat) (seq : BitVec 4) : List Word :=
  let x := (f.can c).station n
  let e := stationEntry f.cfgFbus c n
  let len := fld e 22 16 + 1
  let fds := e.getLsbD 30
  let b0 : Byte := (if x.run then 0x80 else 0) ||| seq.setWidth 8
  let bytes := b0 :: (List.range (len - 1)).map (fun k => byteOf x.data k)
  let total := if fds then validFdLen len else len
  let data := wordsOfBytes (bytes ++ List.replicate (total - len) 0)
  [flagAt 27 fds ||| flagAt 26 (fds && (f.can c).brs) ||| at_ 0 total, BitVec.ofNat 32 (0x200 + n)] ++ data ++
    List.replicate (16 - data.length) 0

/-- STATION_REQUEST (10 R388, R389): the window before the request ends, and the request takes the latest output data. -/
def stationRequestOp (c n : Nat) (s : State) : State :=
  let f := s.field
  if !(f.can c).on ∨ !f.stationOn c n then s
  else
    let f := f.windowEnd c n
    let x := (f.can c).station n
    let seq := x.seq + 1
    let ws := f.stationFrame c n seq
    let merged := decide (x.buf.st ≠ .idle)
    { s with field := f.modCan c (fun k =>
      { k.modStation n (fun x => { x with seq := seq, buf :=
          match x.buf.st with
          | .idle => { x.buf with st := .pend, count := 0, words := ws }
          | .pend => { x.buf with words := ws }
          | .txing => { x.buf with next := some ws } })
        with mrg := if merged then satInc k.mrg else k.mrg }) }

/-- What BUS_TX records do on the field die (10 R376, R388, R395). -/
def State.busRecord (s : State) (r : BusTx) : State :=
  match r.kind with
  | 0 => s.modField (fun f =>
      let f := f.content r.ch r.index r.words
      if r.send then f.request r.ch r.index else f)
  | 1 =>
    if r.index = 0x81 then recoverOp r.ch s
    else if r.index = 0x82 then clrstOp r.ch s
    else if r.index = 0x83 then clrcntOp r.ch s
    else if r.index < 3 then s.modField (fun f => f.request r.ch r.index)
    else s
  | _ => s.modField (fun f => f.modCan r.ch (fun k => k.modStation r.index (fun x => { x with data := r.words, run := r.run })))

end Sys2Proof.Machine
end

