-- ==== Sys2Proof/Machine/Table.lean ====
section
/-! DEFINITION. The position event table on the field die: fires, re-arming, applied records, notes (05 R209-R221). -/

namespace Sys2Proof.Machine

def Field.entry (f : Field) (i : Nat) : Entry := f.table.get (fun _ => {}) i
def Field.setEntry (f : Field) (i : Nat) (e : Entry) : Field := { f with table := f.table.set (fun _ => {}) i e }

/-! ### The fields of an entry (05 R209) -/

def entryAxis (w0 : Word) : Nat := fld w0 31 29
def entryDir (w0 : Word) : Nat := fld w0 28 27
def entryFwd (w0 : Word) : Bool := w0.getLsbD 27
def entryRev (w0 : Word) : Bool := w0.getLsbD 28
def entryRearm (w0 : Word) : Bool := w0.getLsbD 26
def entryAction (w0 : Word) : Nat := fld w0 25 22
def entryTarget (w0 : Word) : Nat := fld w0 15 0
/-- SET, CLEAR or TOGGLE. -/
def outputAction (w0 : Word) : Bool := decide (1 ≤ entryAction w0 ∧ entryAction w0 ≤ 3)

/-- The reserved bits of word 0 are 0 (05 R209; 00 R12). -/
def entryWord (w : Word) : Word := w &&& 0xFFC0FFFF

/-! ### Notes (05 R220, R221) -/

def noteTask (n : Note) : Bool := n.action == 6

/-- Drop the oldest note that triggers no task; where every note does, the oldest. -/
def dropNote : List Note → List Note
  | ns => match ns.findIdx? (fun n => !noteTask n) with
    | some i => ns.eraseIdx i
    | none => ns.tail

/-- A note enters the queue of 1,024; a full queue drops one, which pt.nlost counts (05 R221; notes/assumptions/511.md). -/
def State.note (s : State) (n : Note) : State :=
  let ns := s.field.notes ++ [n]
  if ns.length ≤ 1024 then s.modField (fun f => { f with notes := ns })
  else s.modField (fun f => { f with notes := dropNote ns, lost := f.lost + 1 })

/-! ### Fires (05 R210, R211, R216, R217) -/

/-- The selected inputs: group g covers DI8g to DI8g+7 (05 R210). -/
def Field.snapInputs (f : Field) (mask : Nat) : Word :=
  (List.range 32).foldl (fun w i => w ||| flagAt i ((f.inp i).lvl && (mask / 2 ^ (i / 8) % 2 == 1))) 0

/-- The level that an output action gives its group (05 R210, R218; 09 R345). -/
def Field.placeGroup (f : Field) (n : Nat) (g : Bool → Bool) : Field :=
  let l := f.leader n
  f.modOut l (fun o => { o with placed := g o.placed })

/-- The effect of a fire at its instant, and the note's VAL (05 R210). -/
def State.act (s : State) (w0 : Word) : State × Word :=
  let t := entryTarget w0
  match entryAction w0 with
  | 1 => (State.refreshOuts (s.modField (fun f => f.placeGroup (t % 16) (fun _ => true))), 0)
  | 2 => (State.refreshOuts (s.modField (fun f => f.placeGroup (t % 16) (fun _ => false))), 0)
  | 3 => (State.refreshOuts (s.modField (fun f => f.placeGroup (t % 16) (fun b => !b))), 0)
  | 4 => (s, s.field.snapInputs (t % 16))
  | 5 => (s, (s.field.ctr (t % 16)).cnt)
  | 7 =>
    if s.field.safeact then (s, 0)
    else (s.modField (fun f => f.request (t / 4 % 2) (t % 4)), 0)
  | _ => (s, 0)

/-- The note of a fire of entry `i` with word 0 `w0` (05 R220). -/
def State.report (s : State) (i : Nat) (w0 : Word) (back late unreached : Bool) (tf : BitVec 64) (val lateness : Word) : State :=
  s.note { late := late, unreached := unreached, stale := (s.field.axis (entryAxis w0)).stale, revd := back
           action := entryAction w0, index := i, tf := tf, val := val, lateness := lateness }

/-- A fire disarms the entry; one that does not re-arm is done (05 R211). -/
def Entry.fired (e : Entry) : Entry := { e with armf := false, armr := false, done := e.done || !entryRearm e.w0 }

/-- A fire at the present instant (05 R211, R216, R220). -/
def State.fire (s : State) (i : Nat) (back late : Bool) (lateness : Word) : State :=
  let e := s.field.entry i
  let r := s.act e.w0
  (r.1.modField (fun f => f.setEntry i e.fired)).report i e.w0 back late false s.fieldAx0 r.2 lateness

/-- No event of a Placed channel fires while a force on it is active (04 R173, 09 R345; notes/assumptions/507.md). -/
def Field.heldByForce (f : Field) (w0 : Word) : Bool :=
  outputAction w0 && decide ((f.out (f.leader (entryTarget w0 % 16))).cmd = .forced)

/-- Λ in ns: an action is decided this long before its fire instant (05 R199, R217). -/
def lambda : Nat := 2000

/-- AX0 and AX5 never move in reverse (05 R187, R196). -/
def reversible (x : Nat) : Bool := x != 0 && x != 5

/-- The direction in which entry e fires when its axis moves to `cur` in a tick (05 R211): some false forward, some true
reverse. An output action of a forced channel does not fire (04 R173). -/
def Field.crossing (f : Field) (e : Entry) (cur : BitVec 64) : Option Bool :=
  let x := entryAxis e.w0
  let m := (f.axis x).desc.mod
  let prev := (f.axis x).prev
  let d := smod (cur - prev) m
  if entryDir e.w0 = 0 ∨ f.heldByForce e.w0 then none
  else if 0 < d ∧ e.armf ∧ 0 < umod (e.posn - prev) m ∧ umod (e.posn - prev) m ≤ d then some false
  else if reversible x ∧ d < 0 ∧ e.armr ∧ 0 < umod (prev - e.posn) m ∧ umod (prev - e.posn) m ≤ -d then some true
  else none

/-- The fire instant on the die's timebase (05 R199, R211): the first instant of the tick, Λ ahead, at which the predicted
position has crossed; at once while the velocity is unknown (notes/assumptions/503.md). -/
def Field.fireAt (f : Field) (e : Entry) (now : Nat) : Nat :=
  let x := entryAxis e.w0
  if (f.axis x).unkv then now
  else ((List.range 8).find? (fun k => (f.crossing e (f.mposAt x (now + lambda - 7 + k))).isSome)).getD 7 + (now + lambda - 7)

/-- The arm state of an entry after a tick's evaluation at `cur` (05 R211). -/
def Entry.rearm (e : Entry) (m cur : BitVec 64) : Entry :=
  let s := smod (cur - e.posn) m
  let h : Int := (e.hyst.toNat : Int)
  { e with armf := e.armf || (!e.done && entryFwd e.w0 && decide (s < -h))
           armr := e.armr || (!e.done && entryRev e.w0 && decide (s > h)) }

/-- A decided action takes its place: by fire instant, then by entry index (05 R212). -/
def inTurn (d : Decided) : List Decided → List Decided
  | [] => [d]
  | x :: t => if d.due < x.due ∨ (d.due = x.due ∧ d.index < x.index) then d :: x :: t else x :: inTurn d t

/-- One entry in a tick's evaluation at `cur` (05 R211): a crossing decides its action, and then the arm state follows. -/
def Field.evalEntry (f : Field) (now : Nat) (cur : BitVec 64) (i : Nat) (e : Entry) : Field :=
  let m := (f.axis (entryAxis e.w0)).desc.mod
  match f.crossing e cur with
  | some back =>
    { (f.setEntry i (e.fired.rearm m cur)) with
      decided := inTurn { index := i, w0 := e.w0, posn := e.posn, back := back, due := f.fireAt e now } f.decided }
  | none => f.setEntry i (e.rearm m cur)

/-- REARM_BY_HYSTERESIS: axis x's evaluation in the present tick, with the position predicted for now + Λ (05 R211); a
movement of M/4 in the tick freezes the axis instead (05 R206). -/
def rearmOp (x : Nat) (s : State) : State :=
  let f := s.field
  let a := f.axis x
  let now := s.fieldNs
  let cur := f.mposAt x (now + lambda)
  if f.axisOn x = false ∨ f.axisFrozen x = true then s
  else if overspeeds (f.posAt x (now + lambda) - f.posAt x (now + lambda - 8)).toInt a.desc.mod then s.axisOverspeed x
  else s.modField (fun f =>
    let g := f.table.foldl (fun g e =>
      if entryAxis e.2.w0 = x ∧ entryDir e.2.w0 ≠ 0 then g.evalEntry now cur e.1 e.2 else g) f
    g.modAxis x (fun a => { a with prev := cur }))

/-- The axis has stopped or reversed without reaching p (05 R217; notes/assumptions/503.md): it stands short of p at the
fire instant, and its velocity is 0, opposite or falling for want of an edge. -/
def Field.unreached (f : Field) (d : Decided) (now : Nat) : Bool :=
  let x := entryAxis d.w0
  let a := f.axis x
  let r := (f.rateAt x now).num
  let s := smod (f.mposAt x now - d.posn) a.desc.mod
  if d.back then decide (0 < s) && (decide (0 ≤ r) || (isEncoder x && decide (a.lastInterval < now - a.tl)))
  else decide (s < 0) && (decide (r ≤ 0) || (isEncoder x && decide (a.lastInterval < now - a.tl)))

/-- ACTION_*: the decided action that is due first takes place at its instant (05 R211, R212, R217). -/
def actionOp (code : Nat) (i : Nat) (s : State) : State :=
  match s.field.decided with
  | d :: t =>
    if d.index = i ∧ entryAction d.w0 = code ∧ d.due ≤ s.fieldNs then
      let r := (s.modField (fun f => { f with decided := t })).act d.w0
      r.1.report i d.w0 d.back false (s.field.unreached d d.due) (s.field.ax0At d.due) r.2 0
    else s
  | [] => s

/-! ### Applied records (05 R214-R216) -/

/-- The host-side record of an entry after an application (05 R225; notes/assumptions/514.md). -/
def State.applied (s : State) (i : Nat) (g : HostEntry → HostEntry) : State :=
  let h := s.ptHost.get (fun _ => {}) i
  { s with ptHost := s.ptHost.set (fun _ => {}) i { g h with pend := h.pend - 1 } }

/-- The axis has passed p between REF and now (05 R216): some direction. -/
def passed (w0 : Word) (p ref cur m : BitVec 64) : Option Bool :=
  let s := smod (cur - ref) m
  if 0 < s ∧ entryFwd w0 ∧ 0 < umod (p - ref) m ∧ umod (p - ref) m ≤ s then some false
  else if reversible (entryAxis w0) ∧ s < 0 ∧ entryRev w0 ∧ 0 < umod (ref - p) m ∧ umod (ref - p) m ≤ -s then some true
  else none

/-- The axis has travelled M/2 or more since REF: the check does not hold (05 R216). -/
def farFrom (pos ref m : BitVec 64) : Bool := decide (m ≠ 0 ∧ m.toNat ≤ 2 * (pos - ref).toInt.natAbs)

/-- The lateness in ns of a passing of p by the distance `dist`: exact on AX0, at the present velocity on another axis, and
a free value where that velocity does not lead from p (05 R216; notes/assumptions/501.md). -/
def State.lateness (s : State) (x : Nat) (back : Bool) (dist : Int) : Word :=
  let r := s.field.rateAt x s.fieldNs
  let v := if back then -r.num else r.num
  if x = 0 then BitVec.ofNat 32 (min dist.toNat 0xFFFFFFFF)
  else if 0 < v then BitVec.ofNat 32 (min (dist.toNat * r.den / v.toNat) 0xFFFFFFFF)
  else Config.freeWord s.free

/-- An entry write is applied after its tick's evaluation (05 R211, R212, R216): armed, or fired late. On a FROZEN axis no
entry fires (05 R203). -/
def State.applyWrite (s : State) (r : Rec) : State :=
  let x := entryAxis r.w0
  let s := rearmOp x s
  let now := s.fieldNs
  let m := (s.field.axis x).desc.mod
  let cur := s.field.mposAt x now
  let pos := s.field.posAt x now
  let ref := if r.live then pos else r.ref
  let e : Entry := { w0 := r.w0, hyst := r.hyst, posn := r.value, armf := entryFwd r.w0, armr := entryRev r.w0, done := false }
  let s := (s.modField (fun f => f.setEntry r.index e)).applied r.index
    (fun h => { h with w0 := r.w0, hyst := r.hyst, posn := r.value })
  let hit := if s.field.heldByForce r.w0 ∨ s.field.axisFrozen x ∨ farFrom pos ref m then none
             else passed r.w0 r.value ref cur m
  match hit with
  | none => s.modField (fun f => f.modAxis x (fun a => { a with prev := cur }))
  | some back =>
    let late := s.lateness x back (if back then umod (r.value - cur) m else umod (cur - r.value) m)
    (s.draw.fire r.index back true late).fieldEvent 0x0305 4 (0x28 + x) [BitVec.ofNat 32 r.index, BitVec.ofNat 32 x, late]

/-- The head of the queue of records, if it has this kind. -/
def State.headRec (s : State) (kind : Nat) (f : Rec → State → State) : State :=
  match s.field.recq with
  | r :: t => if r.kind = kind then f r (s.modField (fun g => { g with recq := t })) else s
  | [] => s

/-- SCHED_ENTRY_WRITE, SCHED_ENTRY_DISABLE, SCHED_PRESET, SCHED_HOME: the record at the head is applied (05 R214). -/
def schedEntryWriteOp (s : State) : State := s.headRec 1 (fun r s => s.applyWrite r)
def schedEntryDisableOp (s : State) : State := s.headRec 2 (fun r s =>
  let e := s.field.entry r.index
  let w := e.w0 &&& 0xE7FFFFFF
  (s.modField (fun f => f.setEntry r.index { e with w0 := w })).applied r.index (fun h => { h with w0 := w }))
def schedPresetOp (s : State) : State := s.headRec 3 (fun r s =>
  let a := s.field.axis r.axsel
  if r.axsel = 0 then s
  else s.setAxis r.axsel { (a.stepTo (reduceMod r.value a.desc.mod) s.fieldNs) with reflost := false })
def schedHomeOp (s : State) : State := s.headRec 4 (fun r s =>
  let a := s.field.axis r.axsel
  if a.desc.zhome then s.setAxis r.axsel { a with homep := true, homeVal := r.value } else s)

/-- Every entry whose output action names a channel of DOn's group is disabled: DONE, no arm bits (05 R219). -/
def Field.disableEntries (f : Field) (n : Nat) : Field :=
  f.table.foldl (fun g e =>
    if outputAction e.2.w0 ∧ f.leader (entryTarget e.2.w0 % 16) = f.leader n then
      g.setEntry e.1 { e.2 with done := true, armf := false, armr := false } else g) f

end Sys2Proof.Machine
end

