-- ==== Sys2Proof/Machine/Wire.lean ====
section
/-! DEFINITION. Barrier frames as bytes on the link: payload words, record headers, the frame header and the CRC-32
(09 R328, R329, R332-R340; 05 R214, R220; 10 R371, R376). -/

namespace Sys2Proof.Machine

/-! ### Host messages -/

/-- A SCHED_WRITE record (05 R214). -/
def Rec.wire (r : Rec) : List Word :=
  [at_ 28 r.kind ||| at_ 12 r.axsel ||| at_ 0 r.index] ++
  (if r.kind = 1 then [r.w0, r.hyst, loWord r.value, hiWord r.value]
   else if r.kind = 2 then [0, 0, 0, 0] else [loWord r.value, hiWord r.value, 0, 0]) ++ [loWord r.ref, hiWord r.ref]

/-- A CFG_WRITE record (09 R335). -/
def CfgRec.wire : CfgRec → List Word
  | .block b off total ws => [at_ 24 b ||| at_ 0 ws.length, BitVec.ofNat 32 off, BitVec.ofNat 32 total] ++ ws
  | .commit id => [0, id, 0]

/-- A BUS_TX record (10 R376). -/
def BusTx.wire (r : BusTx) : List Word :=
  [at_ 30 r.kind ||| at_ 29 r.ch ||| flagAt 28 r.send ||| flagAt 27 r.run ||| at_ 0 r.index] ++ r.words

/-- The code of a CMDn (09 R333). -/
def OutCmd.code : OutCmd → Nat
  | .safe => 0 | .run => 1 | .pdrive => 2 | .forced => 3

/-- TYPE and payload of a host message (09 R329, R332, R333). -/
def HostMsg.wire : HostMsg → Nat × List Word
  | .heartbeat n role mst econ t lbp cfg =>
    (5, [at_ 16 n.toNat ||| at_ 6 role.toNat ||| flagAt 4 econ ||| at_ 0 mst.toNat, loWord t, hiWord t, lbp, cfg, 0, 0, 0])
  | .outImage val cmds crst rst dclr n =>
    (1, [val.setWidth 32, (List.range 16).foldl (fun w k => w ||| at_ (2 * k) (cmds.getD k .safe).code) 0,
         at_ 16 crst.toNat ||| rst.setWidth 32, at_ 24 n.toNat ||| dclr.setWidth 32])
  | .cfgWrite rs => (3, rs.flatMap CfgRec.wire)
  | .schedWrite rs => (2, rs.flatMap Rec.wire)
  | .busTx rs => (4, rs.flatMap BusTx.wire)

/-! ### Field messages -/

/-- The code of a supply state (09 R339). -/
def LState.code : LState → Nat
  | .ok => 0 | .low => 1 | .missing => 2

/-- Word 0 of a DIAG entry, and the entry (09 R340). -/
def DiagEnt.word (e : DiagEnt) : Word := flagAt 31 e.set ||| at_ 24 e.code ||| at_ 16 e.param.toNat ||| at_ 0 e.chan
def DiagEnt.wire (e : DiagEnt) : List Word := [e.word, loWord e.time, hiWord e.time]

/-- A SCHED_FIRED note (05 R220). -/
def Note.wire (n : Note) : List Word :=
  [flagAt 31 n.late ||| flagAt 30 n.unreached ||| flagAt 29 n.stale ||| flagAt 28 n.revd ||| at_ 12 n.action ||| at_ 0 n.index,
   loWord n.tf, hiWord n.tf, n.val, n.lateness]

/-- A BUS_RX_NOTE record (10 R371). -/
def BusNote.wire : BusNote → List Word
  | .object c new nrx i ws => [at_ 29 c ||| flagAt 28 new ||| at_ 20 nrx ||| at_ 0 i] ++ ws
  | .status c ws _ => [at_ 30 1 ||| at_ 29 c] ++ ws
  | .done c i r n => [at_ 30 2 ||| at_ 29 c ||| at_ 0 i, r.setWidth 32 ||| at_ 8 n]

/-- TYPE and payload of a field message (09 R329, R337, R339, R340; 05 R207). -/
def FieldMsg.wire : FieldMsg → Nat × List Word
  | .inImage di ts fstat ctr carry cfgid reqe sscnt herr safeact cfgok frst =>
    (0x81, [di, loWord ts, hiWord ts] ++ (List.range 7).map (fun k => fstat.extractLsb' (32 * k) 32) ++ ctr ++
      [carry.setWidth 32, cfgid, at_ 24 reqe.toNat ||| at_ 16 sscnt.toNat ||| herr.setWidth 32,
       flagAt 2 safeact ||| flagAt 1 cfgok ||| flagAt 0 frst])
  | .supply l high w1 => (0x86, [at_ 0 l.code ||| flagAt 2 high, w1])
  | .axisState ws _ => (0x82, ws)
  | .diag dovf lbe ents _ _ _ _ => (0x84, [at_ 24 ents.length ||| at_ 16 dovf.toNat, lbe] ++ ents.flatMap DiagEnt.wire)
  | .schedFired ns _ => (0x85, ns.flatMap Note.wire)
  | .busRxNote rs => (0x83, rs.flatMap BusNote.wire)

/-! ### Frames (09 R328, R330) -/

/-- The CRC-32 of IEEE 802.3. -/
def crc32Bits : Nat → Word → Word
  | 0, c => c
  | n + 1, c => crc32Bits n (if c.getLsbD 0 then (c >>> 1) ^^^ 0xEDB88320 else c >>> 1)
def crc32 (bs : List Byte) : Word := ~~~(bs.foldl (fun c b => crc32Bits 8 (c ^^^ b.setWidth 32)) 0xFFFFFFFF)

/-- A message record: TYPE, 0, the payload length in bytes, the payload. -/
def messageWords (m : Nat × List Word) : List Word := (at_ 16 (4 * m.2.length) ||| at_ 0 m.1) :: m.2

/-- The bytes of a frame with direction `dir`: header, records, CRC-32. -/
def Frame.bytes {μ : Type} (wire : μ → Nat × List Word) (dir : Nat) (f : Frame μ) : List Byte :=
  let recs := f.msgs.flatMap (fun m => messageWords (wire m))
  let body := bytesOfWords ([at_ 24 (if f.econ then 1 else 0) ||| at_ 16 dir ||| at_ 0 0x5AF0,
    at_ 16 (20 + 4 * recs.length) ||| f.epoch.setWidth 32, f.seq, at_ 0 f.msgs.length] ++ recs)
  body ++ bytesOfWord (crc32 body)

/-- A receiver's check of the bytes of a frame: SYNC, DIR, LEN and the CRC-32 (09 R330). -/
def frameGood (dir : Nat) (bs : List Byte) : Bool :=
  let n := bs.length - 4
  bs.take 3 == [0xF0, 0x5A, BitVec.ofNat 8 dir] && decide (16 ≤ n) &&
    (bs.drop 6).take 2 == [BitVec.ofNat 8 bs.length, BitVec.ofNat 8 (bs.length / 256)] &&
    bs.drop n == bytesOfWord (crc32 (bs.take n))

/-- What arrives of the bytes of a frame: the noise of its channels inverts bits of them (09 R331). -/
def received : List Byte → List Byte → List Byte
  | b :: t, n :: u => (b ^^^ n) :: received t u
  | t, _ => t

/-- A frame reaches its receiver in good order: nothing was changed, or the check finds no change
(09 R330; notes/assumptions/918.md). -/
def Frame.arrives {μ : Type} (wire : μ → Nat × List Word) (dir : Nat) (f : Frame μ) (noise : List Byte) : Bool :=
  noise.all (fun b => b == 0) || frameGood dir (received (f.bytes wire dir) noise)

end Sys2Proof.Machine
end

