-- ==== Sys2Proof/Machine/FieldLink.lean ====
section
/-! DEFINITION. The field die's end of the barrier link: frames, messages, configuration, safe state, reset
(09 R327-R345). -/

namespace Sys2Proof.Machine

/-! ### The FIELD section (09 R336) -/

/-- Filters of word 8 + m: 0 to 400. -/
def filterOk (m : Nat) (w : Word) : Bool :=
  decide (fld w 8 0 ≤ 400) && decide (fld w 24 16 ≤ 400) && (decide (6 ≤ m) || w == 0)

/-- The group leader of DOn by the GROUP word. -/
def groupLeader (w : Word) (n : Nat) : Nat :=
  match fld w (2 * (n / 4) + 1) (2 * (n / 4)) with
  | 1 => n - n % 2
  | 2 => n - n % 4
  | _ => n

/-- The reserved fields of a FIELD section hold 0. -/
def fieldReserved (ws : List Word) : Bool :=
  decide (fld (wordAt ws 0) 31 10 = 0) && decide (fld (wordAt ws 1) 31 4 = 0) && decide (fld (wordAt ws 4) 31 8 = 0) &&
  decide (fld (wordAt ws 7) 31 24 = 0) && (List.range 16).all (fun m => decide (wordAt ws (8 + m) &&& ~~~(0x01FF01FF : Word) = 0))

/-- A FIELD section meets R336, its reserved fields apart; `placed` is PLACED of the AXES section. -/
def fieldSectionOk (ws : List Word) (placed : Word) : Bool :=
  let two := fun (i n : Nat) => fld (wordAt ws i) (2 * n + 1) (2 * n)
  decide (ws.length = 24) && decide (1 ≤ fld (wordAt ws 0) 9 0 ∧ fld (wordAt ws 0) 9 0 ≤ 1000) &&
  (List.range 4).all (fun q => decide (two 4 q ≠ 3)) &&
  (List.range 16).all (fun n =>
    let l := groupLeader (wordAt ws 4) n
    let w := wordAt ws 3
    decide (two 5 n ≠ 3) && decide (two 6 n ≠ 3) && (!w.getLsbD (16 + n) || decide (two 5 n = 0)) &&
    decide (two 5 n = two 5 l) && decide (two 6 n = two 6 l) && (w.getLsbD n == w.getLsbD l) &&
    (w.getLsbD (16 + n) == w.getLsbD (16 + l)) && (placed.getLsbD n == placed.getLsbD l)) &&
  (List.range 16).all (fun m => filterOk m (wordAt ws (8 + m)))

/-! ### The configuration (09 R335, 05 R191, R192; 10 R365) -/

/-- The axis descriptor of axis x in an AXES section (05 R191, R192). -/
def axisDesc (axes : List Word) (x : Nat) : AxDesc :=
  let w := fun k => wordAt axes (2 + 8 * x + k)
  { en := (w 0).getLsbD 31, inv := (w 0).getLsbD 30, zhome := (w 0).getLsbD 29, xid := (w 0).getLsbD 28
    ch := (w 0).getLsbD 24, mod := long (w 1) (w 2), period := (w 3).toNat, ident := (w 4).extractLsb' 0 29
    phofs := w 5, snap := w 6 }

/-- The initial entries of an AXES section (05 R191). -/
def initialEntries (axes : List Word) : List (Nat × Entry) :=
  (List.range (wordAt axes 0).toNat).map (fun k =>
    let w := fun j => wordAt axes (66 + 5 * k + j)
    (fld (w 0) 11 0, { w0 := w 1, hyst := w 2, posn := long (w 3) (w 4), armf := entryFwd (w 1), armr := entryRev (w 1) }))

/-- CFGID of three sections (09 R335). -/
def cfgIdOf (field axes fbus : List Word) : Word := wordAt (wordsOfBytes ((Config.sm3 (bytesOfWords (field ++ axes ++ fbus))).take 4)) 0

/-- Axis x takes its descriptor at an instant: it goes on from where it stands, and the evaluation from there. -/
def Field.bindAxis (f : Field) (axes : List Word) (now x : Nat) : Field :=
  let d := axisDesc axes x
  let f := f.modAxis x (fun a =>
    let b := a.advance (isEncoder x) now
    { b with desc := d, mpos := reduceMod b.pos d.mod, prev := reduceMod b.pos d.mod
             frozen := b.frozen && x != 0, overspeed := b.overspeed && x != 0 })
  if x = 0 then f.modAxis 0 (fun a => { a with prev := f.mposAt 0 now }) else f

/-- The axes take their descriptors. -/
def Field.bindAxes (f : Field) (axes : List Word) (now : Nat) : Field :=
  (List.range 8).foldl (fun f x => f.bindAxis axes now x) f

/-- The channels take their descriptors; stations start in WAIT (10 R366, R389). -/
def Field.bindBus (f : Field) (fbus : List Word) : Field :=
  [0, 1].foldl (fun f c =>
    let old := f.can c
    let f := f.channel c (fun k => { k with
      desc := (fbus.drop (4 * c)).take 4, est := if k.est = 2 then 2 else 0
      stations := k.stations.map (fun e => (e.1, { e.2 with buf := {}, sts := .wait, missed := 0, gotInput := false, started := false }))
      objs := k.objs.map (fun o =>
        (o.1, if 0x101 ≤ o.1 ∧ o.1 ≤ 0x13F then (wordAt o.2 0 &&& 0xFFFFFCFF) :: o.2.drop 1 else o.2)) })
    let f := (List.range 63).foldl (fun f n =>
      if (stationEntry fbus c (n + 1)).getLsbD 31 ∨ fld (wordAt (old.obj (0x101 + n)) 0) 9 8 ≠ 0 then f.noteObject c (0x101 + n) false 0
      else f) f
    f.noteStatus c) f

/-- The sticky WIRED_TOGETHER diagnosis of the channels in a mask clears (09 R341). -/
def Field.clearWired (f : Field) (mask : BitVec 16) (time : BitVec 64) : Field :=
  (List.range 16).foldl (fun f n =>
    let o := f.out n
    if mask.getLsbD n ∧ o.wt then
      (f.modOut n (fun x => { x with wt := false, wtp := 0 })).diagnose false 0x05 o.wtp (0x20 + n) time
    else f) f

/-- The received blocks become the stored configuration in effect (09 R335); an encoder axis with an open wire is STALE
(05 R202). -/
def State.applyConfig (s : State) (field axes fbus : List Word) (cfgid : Word) : State :=
  let f := { s.field with cfg := field, cfgAxes := axes, cfgFbus := fbus, cfgid := cfgid, cfgok := true, blocks := [], table := [] }
  let f := (initialEntries axes).foldl (fun f e => f.setEntry e.1 e.2) f
  let s := { s with field := ((f.bindAxes axes s.fieldNs).bindBus fbus).clearWired 0xFFFF s.fieldAx0 }
  let s := [1, 2, 3, 4].foldl (fun s x => if (s.field.axis x).openWire then s.axisLost x else s) s
  s.refreshOuts

/-- A block that CFG_WRITE has carried completely. -/
def Field.block (f : Field) (b : Nat) : Option (List Word) :=
  match f.blocks.find? (fun x => x.1 == b) with
  | some (_, total, ws) => if ws.length = total then some ws else none
  | none => none

/-- The words of a block received so far, in order from its start. -/
def Field.received (f : Field) (b : Nat) : List Word :=
  match f.blocks.find? (fun x => x.1 == b) with
  | some (_, _, ws) => ws
  | none => []

/-- A block after a record that carries words from an offset on; a record that would leave a gap adds nothing (notes/assumptions/901.md). -/
def placeWords (old : List Word) (offset : Nat) (ws : List Word) : List Word :=
  if offset ≤ old.length then old.take offset ++ ws else old

/-- The first check of R335 that a COMMIT fails, 1-4; 0 where none does. -/
def Field.commitCheck (f : Field) (cfgid : Word) : BitVec 8 :=
  match f.block 0x10, f.block 0x11, f.block 0x12 with
  | some a, some b, some c =>
    if cfgIdOf a b c ≠ cfgid then 2
    else if (List.range 16).any (fun n => decide ((f.out n).cmd ≠ .safe)) then 3
    else if !(fieldReserved a && fieldSectionOk a (wordAt b 1)) then 4
    else 0
  | _, _, _ => 1

/-- One CFG_WRITE record (09 R335). -/
def State.cfgRecord (s : State) : CfgRec → State
  | .block b offset total ws => s.modField (fun f =>
      { f with blocks := (f.blocks.filter (fun x => x.1 ≠ b)) ++ [(b, total, placeWords (f.received b) offset ws)] })
  | .commit id =>
    let f := s.field
    match f.commitCheck id, f.block 0x10, f.block 0x11, f.block 0x12 with
    | 0, some a, some b, some c => s.applyConfig a b c id
    | k, _, _, _ => s.modField (fun f => { (f.diagnose true 0x08 k 0x41 s.fieldAx0) with blocks := [] })

/-! ### Host frames at the field die (09 R330, R343) -/

/-- A receiver accepts a frame of a newer SEQ in its EPOCH, or of another EPOCH (09 R330). -/
def RxEnd.accepts (r : RxEnd) (epoch : BitVec 16) (seq : Word) : Bool :=
  match r.epoch with
  | none => true
  | some e => decide (e ≠ epoch) || decide (1 ≤ (seq - r.seq).toNat ∧ (seq - r.seq).toNat < 2 ^ 31)

/-- SSACKN of a host frame. -/
def frameAck (ms : List HostMsg) : Option (BitVec 8) :=
  ms.findSome? (fun m => match m with
    | .heartbeat a _ _ _ _ _ _ => some a
    | _ => none)

/-- The first frame of a new host EPOCH: the module has reset, so that every axis lacks its reference and counts its source
errors anew (05 R195, R207). -/
def Field.hostReset (f : Field) : Field :=
  (List.range 8).foldl (fun f x => f.modAxis x (fun a => { a with reflost := true, errcnt := 0 })) f

/-- What acceptance of a host frame does at once (05 R195, R207; 09 R334, R342, R343; 10 R386). -/
def State.hostAccepted (s : State) (fr : Frame HostMsg) : State :=
  let f := s.field
  let fresh := decide (f.rx.epoch ≠ some fr.epoch)
  let acked := f.safeact && decide (frameAck fr.msgs = some f.sscnt)
  let f := if fresh then f.hostReset else f
  let f1 := { f with rx := { f.rx with epoch := some fr.epoch, seq := fr.seq }, rxMsgs := fr.msgs, lastAccept := s.fieldNs, alignAt := f.rxStart
                     lastReqn := if fresh then 0 else f.lastReqn, safeWait := false, safeact := f.safeact && !acked }
  let f2 := if f.safeWait then f1.diagnose false 0x07 f.sscnt 0x41 s.fieldAx0 else f1
  let f3 := if acked then (f2.refreshTx 0).refreshTx 1 else f2
  State.refreshOuts { s with field := f3 }

/-- HOST_FRAME_ACCEPT: the host frame in transit reaches the field die (09 R330, R331). -/
def hostFrameAcceptOp (noise : List Byte) (s : State) : State :=
  match s.hframe with
  | none => s
  | some fr =>
    let s := { s with hframe := none }
    if !s.field.powered then s
    else if fr.arrives HostMsg.wire 1 noise && s.field.rx.accepts fr.epoch fr.seq then s.hostAccepted fr
    else s.modField (fun f => { f with rx := { f.rx with errs := satInc f.rx.errs } })

/-- Take the first message of the accepted host frame that a test selects. -/
def State.hostMsg (s : State) (t : HostMsg → Bool) (k : HostMsg → State → State) : State :=
  match s.field.rxMsgs.find? t with
  | some m => k m (s.modField (fun f => { f with rxMsgs := f.rxMsgs.erase m }))
  | none => s

/-- The first alignment of AX0 after a reset is no movement: the evaluation goes on from the new position (05 R190, R205). -/
def Field.startAx0 (f : Field) (now : Nat) : Field := f.modAxis 0 (fun a => { a with prev := f.mposAt 0 now })

/-- HEARTBEAT (09 R332, 05 R190): the field die aligns its AX0 with the pair time of the frame's cycle start, within ±8 ns
(notes/assumptions/903.md). -/
def heartbeatOp (s : State) : State :=
  s.hostMsg (fun m => match m with | .heartbeat .. => true | _ => false) (fun m s =>
    match m with
    | .heartbeat _ role mst econ hax0 lbp cfgid =>
      let err : Int := (Config.freeNat s.free % 17 : Nat) - 8
      let s := s.draw.modField (fun f =>
        let g := { f with role := role, mstate := mst, econ := econ, lbp := lbp, wantCfg := cfgid, ax0set := true
                          ax0off := hax0 - BitVec.ofNat 64 f.alignAt + BitVec.ofInt 64 err
                          everCfgMatch := f.everCfgMatch || (f.cfgok && decide (f.cfgid = cfgid)) }
        let g := if f.ax0set then g else g.startAx0 s.fieldNs
        (g.refreshTx 0).refreshTx 1)
      s.refreshOuts
    | _ => s)

/-- A restart bit of a group leader (09 R350, R351). -/
def State.restart (s : State) (n : Nat) : State :=
  let f := s.field
  let o := f.out n
  if f.leader n ≠ n ∨ !o.latched then s
  else if s.fieldNs < o.latchedAt + 10000000 then { s with field := f.diagnose true 0x06 0 (0x20 + n) s.fieldAx0 }
  else
    let g := (f.groupOf n).foldl (fun g k => g.modOut k (fun x => { x with latched := false })) f
    { s with field := g.diagnose false 0x02 0 (0x20 + n) s.fieldAx0 }

/-- The masks of a new request (09 R334, R349, R350). -/
def State.fieldRequest (s : State) (crst : BitVec 12) (rst dclr : BitVec 16) (reqn : BitVec 8) : State :=
  if reqn = 0 ∨ reqn = s.field.lastReqn then s
  else
    let s := s.modField (fun f => (List.range 12).foldl (fun f k =>
      if crst.getLsbD k then f.modCtr k (fun c => { c with cnt := 0 }) else f) { f with lastReqn := reqn })
    let s := (List.range 16).foldl (fun s n => if rst.getLsbD n then s.restart n else s) s
    s.modField (fun f => f.clearWired dclr s.fieldAx0)

/-- A command under which DOn acts as SAFE (09 R345). -/
def Field.actsSafe (f : Field) (n : Nat) (c : OutCmd) : Bool := c == .safe || (c == .pdrive && !f.shared n)

/-- The values and commands of an OUT_IMAGE (09 R333, R345): a Placed channel whose command becomes SAFE has lost its owner's
RUN, so that its entries are disabled (05 R219). -/
def State.fieldOutputs (s : State) (val : BitVec 16) (cmds : List OutCmd) : State :=
  (List.range 16).foldl (fun s n =>
    let c := cmds.getD n .safe
    let left := s.field.actsSafe n c && !s.field.actsSafe n (s.field.out n).cmd
    let s := s.modField (fun f => f.modOut n (fun o => { o with cmd := c, val := val.getLsbD n }))
    if s.field.leader n = n ∧ s.field.isPlaced n ∧ left then s.modField (fun f => f.disableEntries n) else s) s

/-- OUT_IMAGE (09 R333, R334, R345). -/
def outImageOp (s : State) : State :=
  s.hostMsg (fun m => match m with | .outImage .. => true | _ => false) (fun m s =>
    match m with
    | .outImage val cmds crst rst dclr reqn => ((s.fieldOutputs val cmds).fieldRequest crst rst dclr reqn).refreshOuts
    | _ => s)

/-- CFG_WRITE (09 R335). -/
def cfgWriteOp (s : State) : State :=
  s.hostMsg (fun m => match m with | .cfgWrite .. => true | _ => false) (fun m s =>
    match m with
    | .cfgWrite recs => recs.foldl State.cfgRecord s
    | _ => s)

/-- SCHED_WRITE (05 R214): its records wait for their application, in order. -/
def schedWriteOp (s : State) : State :=
  s.hostMsg (fun m => match m with | .schedWrite .. => true | _ => false) (fun m s =>
    match m with
    | .schedWrite recs => s.modField (fun f => { f with recq := f.recq ++ recs })
    | _ => s)

/-- BUS_TX (10 R376). -/
def busTxOp (s : State) : State :=
  s.hostMsg (fun m => match m with | .busTx .. => true | _ => false) (fun m s =>
    match m with
    | .busTx recs => recs.foldl State.busRecord s
    | _ => s)

/-! ### Safe state and reset (09 R342, R344) -/

/-- The safe-state timeout in ns (09 R342): 50 ms while no configuration is stored. -/
def Field.ssto (f : Field) : Nat := (if f.cfgok then fld (f.cfgWord 0) 9 0 else 50) * 1000000

/-- SAFE_STATE_TIMEOUT (09 R342, 10 R386): SSTO after the latest accepted host frame. -/
def safeStateTimeoutOp (s : State) : State :=
  let f := s.field
  if !f.powered ∨ f.safeWait ∨ s.fieldNs < f.lastAccept + f.ssto then s
  else
    let g := { f with safeact := true, safeWait := true, sscnt := f.sscnt + 1 }
    let g := g.diagnose true 0x07 g.sscnt 0x41 s.fieldAx0
    State.refreshOuts { s with field := (g.refreshTx 0).refreshTx 1 }

/-- FIELD_DIE_RESET (01 R47; 09 R344, R355; 05 R222; 10 R386) at the power-up of L+ or at its fall below 9 V, from where on
the die is without supply: the stored configuration, the counts kept there and EPOCH remain. The safe-state timer starts. -/
def fieldDieResetOp (up : Bool) (s : State) : State :=
  let f := s.field
  let g : Field := { powered := up, clk := f.clk, epoch := f.epoch + 1, cfgok := f.cfgok, cfg := f.cfg, cfgAxes := f.cfgAxes
                     cfgFbus := f.cfgFbus, cfgid := f.cfgid, sscnt := f.sscnt, frst := true, lastAccept := s.fieldNs }
  let g := if g.cfgok then (g.bindAxes g.cfgAxes s.fieldNs).bindBus g.cfgFbus else g
  { s with field := g.diagnose true 0x09 0 0x41 0 }

/-! ### Field frames (09 R327, R337-R340) -/

/-- Bits of a list, bit 0 first. -/
def bitsOf (w : Nat) (bs : List Bool) : BitVec w :=
  BitVec.ofNat w (bs.foldr (fun b n => 2 * n + (if b then 1 else 0)) 0)

/-- The field status bits from 0x04_0020 on (09 R338): the channels of a group show the group's state. -/
def Field.statusBits (f : Field) (rb : BitVec 16) : BitVec 224 :=
  let ch := fun (t : OutCh → Bool) => (List.range 16).map (fun n => (f.groupOf n).any (fun k => t (f.out k)))
  bitsOf 224 ((List.range 32).map (fun i => (f.inp i).openw) ++ ch (fun o => o.latched) ++ ch (fun o => o.openl) ++
    ch (fun o => o.extdrv) ++ ch (fun o => o.wt) ++ ch (fun o => o.sw == .partner) ++
    (List.range 16).map (fun n => rb.getLsbD n) ++
    [f.lstate == .low, f.lstate == .missing, f.high, f.safeact, f.cfgok])

/-- IN_IMAGE at the sample instant (09 R337). -/
def State.inImage (s : State) (rb : BitVec 16) : FieldMsg :=
  let f := s.field
  .inImage (bitsOf 32 ((List.range 32).map (fun i => (f.inp i).lvl))) s.fieldAx0 (f.statusBits rb) s.counterWords
    (bitsOf 12 ((List.range 12).map (fun k => (f.ctr k).carry))) (if f.cfgok then f.cfgid else 0) f.lastReqn f.sscnt f.rx.errs
    f.safeact f.cfgok f.frst

/-- A record of BUS_RX_NOTE from what waits (10 R371). -/
def Field.busNote (f : Field) : BusPend → BusNote
  | .obj c i new nrx => .object c new nrx i ((f.can c).obj i)
  | .stat c => .status c (f.can c).statusWords ((List.range 64).map (fun n => ((f.can c).station n).sts.code))
  | .done c i r n => .done c i r n

/-- Bytes of a BUS_RX_NOTE record (10 R371): an object of 18 words, a channel status of 4, a completion of 1. -/
def BusPend.size : BusPend → Nat
  | .obj .. => 76
  | .stat _ => 20
  | .done .. => 8

/-- FIELD_CYCLE_START: the field die samples and begins a field frame (09 R327, R329). Header, CRC and the messages of
every frame take 460 bytes without DIAG entries; what waits fills the remaining room in order. The
barrier mode is the one of the latest HEARTBEAT; the events of the axes and channels go along (notes/assumptions/514.md). -/
def fieldCycleStartOp (mv lo rb : BitVec 16) (s : State) : State :=
  let f := s.field
  if !f.powered then s
  else
    let room := frameRoom f.econ - 460 - 12 * (f.diagq.take 8).length
    let notes := takeFit (fun _ => 20) (if f.econ then 128 else 32) (room - 4) f.notes
    let bus := takeFit BusPend.size (if f.econ then 48 else 8) (room - recordBytes (fun _ => 20) notes - 4) f.busPend
    let ms : List FieldMsg :=
      [s.inImage rb, .supply f.lstate f.high (lo ++ mv),
       .axisState ((List.range 8).flatMap (fun x => f.axisWords x s.fieldNs)) (f.evq.filter (fun e => e.source < 0x30)),
       .diag f.dovf (~~~f.lbp) (f.diagq.take 8) ((List.range 16).map (fun n => (f.out n).sccnt)) ((List.range 16).map (fun n => (f.out (f.leader n)).wtp))
         (bitsOf 16 ((List.range 16).map (fun n => (f.out n).sw == .on))) (f.evq.filter (fun e => 0x30 ≤ e.source))] ++
      (if notes = [] then [] else [.schedFired notes f.lost]) ++ (if bus = [] then [] else [.busRxNote (bus.map f.busNote)])
    { s with field := { f with
      txSeq := f.txSeq + 1, frame := some { epoch := f.epoch, seq := f.txSeq, econ := f.econ, msgs := ms }
      lost := if notes = [] then f.lost else 0, evq := [], frst := false, mv := mv, mvMin := lo, diagq := f.diagq.drop 8, notes := f.notes.drop notes.length, busPend := f.busPend.drop bus.length
      ctrs := f.ctrs.map (fun c => (c.1, { c.2 with carry := false })) } }

end Sys2Proof.Machine
end

