-- ==== Sys2Proof/Machine/Sets.lean ====
section
/-! DEFINITION. Input and output sets: owners, mirror values, sink places, forces on them (04 R147-R152, R173, R185). -/

namespace Sys2Proof.Machine

/-- A class whose unit is a bit (04 R151). -/
def bitClass (c : Nat) : Bool := c == 1 || c == 2 || c == 3
/-- Words of one unit of a word class: an object or a buffer has 18 (04 R151). -/
def unitWords (c : Nat) : Nat := if c = 0xA ∨ c = 0xB then 18 else 1
/-- The words or bits that an entry moves. -/
def SetEntry.size (e : SetEntry) : Nat := e.count * unitWords e.cls

/-- A bit address lies in a bit entry. -/
def SetEntry.hasBit (e : SetEntry) (a : Nat) : Bool := bitClass e.cls && decide (e.addr ≤ a ∧ a < e.addr + e.count)
/-- An index of a word class lies in an entry. -/
def SetEntry.hasIndex (e : SetEntry) (c i : Nat) : Bool := e.cls == c && !bitClass c && decide (e.first ≤ i ∧ i < e.first + e.count)
/-- A word data address lies in a word entry's area. -/
def SetEntry.hasWord (e : SetEntry) (a : Nat) : Bool := !bitClass e.cls && decide (e.addr ≤ a ∧ a < e.addr + e.size)

/-- The first LP for which a test holds. -/
def firstLp (t : Nat → Bool) : Option Nat := (List.range 8).find? t

/-- The owner of an output bit, and of an input bit (04 R148). -/
def Prog.ownerOut (g : Prog) (a : Nat) : Option Nat := firstLp (fun p => (g.outset p).any (fun e => e.hasBit a))
def Prog.ownerIn (g : Prog) (a : Nat) : Option Nat := firstLp (fun p => (g.inset p).any (fun e => e.hasBit a))
/-- LP p owns an index of a word class through its input or its output set. -/
def Prog.ownsIn (g : Prog) (p c i : Nat) : Bool := (g.inset p).any (fun e => e.hasIndex c i)
def Prog.ownsOut (g : Prog) (p c i : Nat) : Bool := (g.outset p).any (fun e => e.hasIndex c i)
/-- The owner of a rack board word output. -/
def Prog.ownerWord (g : Prog) (c i : Nat) : Option Nat := firstLp (fun p => g.ownsOut p c i)
/-- LP p owns output channel DOn. -/
def Prog.ownsDo (g : Prog) (p n : Nat) : Bool := (g.outset p).any (fun e => e.hasBit (0x80000 + n))

/-! ### Mirrors (04 R149, R185) -/

/-- A receive object of channel c in the mirror; 18 words. -/
def State.mirrorObj (s : State) (c i : Nat) : List Word := s.mrObj.get (fun _ => List.replicate 18 0) (4096 * c + i)
def State.setMirrorObj (s : State) (c i : Nat) (ws : List Word) : State :=
  { s with mrObj := s.mrObj.set (fun _ => List.replicate 18 0) (4096 * c + i) ws }

/-- A bit of the mirrors, by its input image address. -/
def State.mirrorBit (s : State) (a : Nat) : Word :=
  if a < 0x40020 then bit (s.mrDi.getLsbD (a - 0x40000))
  else if a < 0x40100 then bit (s.mrStat.getLsbD (a - 0x40020))
  else s.rk.inBits.get (fun _ => 0) a

/-- A word of a class's mirror; 0 for what no mirror holds. -/
def State.mirrorWord (s : State) (c i : Nat) : Word :=
  match c with
  | 0x8 => wordAt s.mrCtr i
  | 0x9 => wordAt s.mrAx i
  | 0xA => if i / 18 < 2112 then wordAt (s.mirrorObj 0 (i / 18)) (i % 18) else 0
  | 0xB => if i / 18 < 2112 then wordAt (s.mirrorObj 1 (i / 18)) (i % 18) else 0
  | 0xC => s.rk.inWords.get (fun _ => 0) i
  | 0xD => wordAt s.mrSett i
  | _ => 0

/-- ND and LOST of the objects that an input entry copies clear in the mirror (10 R373). -/
def State.consume (s : State) (e : SetEntry) : State :=
  if e.cls = 0xA ∨ e.cls = 0xB then
    (List.range e.count).foldl (fun s k =>
      let ws := s.mirrorObj (e.cls - 0xA) (e.first + k)
      s.setMirrorObj (e.cls - 0xA) (e.first + k) ((wordAt ws 0 &&& 0x3FFFFFFF) :: ws.drop 1)) s
  else s

/-- What an input entry delivers from the mirrors. -/
def State.entryValues (s : State) (e : SetEntry) : List Word :=
  if bitClass e.cls then (List.range e.count).map (fun k => s.mirrorBit (e.addr + k))
  else (List.range e.size).map (fun k => s.mirrorWord e.cls (e.first * unitWords e.cls + k))

/-! ### Sinks (04 R158, R164) -/

/-- The sink of unit k of an output entry: the bit's address, or the class and its index. -/
def SetEntry.sinkKey (e : SetEntry) (k : Nat) : Nat :=
  if bitClass e.cls then e.addr + k else e.cls * 2 ^ 28 + (e.first * unitWords e.cls + k)

def State.sink (s : State) (k : Nat) : Word := s.sinks.get (fun _ => 0) k

/-! ### Forces (04 R173, R175) -/

/-- The active force on a target. -/
def State.forceOn (s : State) (a : Nat) : Option Word := (s.force.find? (fun e => e.2.en && e.2.addr == a)).map (fun e => e.2.val)

/-- A target that R173 admits. -/
def Prog.forceTarget (g : Prog) (a : Nat) : Bool :=
  (List.range 8).any (fun p =>
    (g.inset p).any (fun e => (e.hasBit a && decide (a < 0x80000)) || e.hasWord a) ||
    (g.outset p).any (fun e => (e.hasBit a && decide (0x80000 ≤ a)) || e.hasWord a))

/-- The active entries as (target, value): the sample that a phase uses. -/
def State.forceSample (s : State) : List (Nat × Word) := (s.force.filter (fun e => e.2.en)).map (fun e => (e.2.addr, e.2.val))

/-- The sampled force on a target. -/
def sampledForce (fs : List (Nat × Word)) (a : Nat) : Option Word := (fs.find? (fun f => f.1 == a)).map (fun f => f.2)

/-- FT_SET (04 R174, R175). -/
def ftSetOp (m : Master) (s : State) : State :=
  let i := (s.mport m 0xBC0).toNat
  let a := (s.mport m 0xBC1).toNat
  let taken := s.force.any (fun e => e.2.en && e.2.addr == a && e.1 != i)
  if s.prog.forceTarget a ∧ taken = false then
    { s with force := s.force.set (fun _ => {}) i { addr := a, val := s.mport m 0xBC2, en := true } }.setMport m 0xBCB 0
  else s.setMport m 0xBCB 1

/-- FT_CLR and FT_CLRALL (04 R174). -/
def ftClrOp (m : Master) (s : State) : State :=
  let i := (s.mport m 0xBC0).toNat
  { s with force := s.force.set (fun _ => {}) i { s.forceAt i with en := false } }
def ftClrallOp (s : State) : State := { s with force := s.force.map (fun e => (e.1, { e.2 with en := false })) }

/-- FT_RD (04 R174). -/
def ftRdOp (m : Master) (s : State) : State :=
  let f := s.forceAt (s.mport m 0xBC0).toNat
  (s.setMport m 0xBC8 (flagAt 31 f.en ||| BitVec.ofNat 32 f.addr)).setMport m 0xBC9 f.val

/-- The reads of the force table's ports. -/
def ftPort (s : State) (m : Master) (a : Nat) : Word := if a = 0xBCA then BitVec.ofNat 32 s.forceCount else s.mport m a

/-! ### Mirror ports (04 R185, R186) -/

/-- MR_RD. -/
def mrRdOp (m : Master) (s : State) : State :=
  let w := s.mport m 0x888
  s.setSport 0x88A (s.mirrorWord (fld w 31 28) (fld w 27 0))

/-- MR_DI_READ (04 R186): the read latches the sample time and the frame count of the same frame for the master. -/
def mrDiReadOp (m : Master) (s : State) : State :=
  ((s.setMport m 0x881 (loWord s.mrTs)).setMport m 0x882 (hiWord s.mrTs)).setMport m 0x883 s.mrDiSeq

/-- The reads of the mirror ports. -/
def mrPort (s : State) (m : Master) (a : Nat) : Word :=
  match a with
  | 0x880 => s.mrDi
  | 0x884 => flagAt 3 s.psrc ||| flagAt 2 s.rk.rlost ||| flagAt 1 s.slost ||| flagAt 0 s.flost
  | 0x88A => s.sport 0x88A
  | _ => s.mport m a

end Sys2Proof.Machine
end

