-- ==== Sys2Proof/Machine/HostField.lean ====
section
/-! DEFINITION. The host's end of the barrier link: host frames, accepted field frames, and the ports of the field
messages, the table and the field bus (05 R213-R225; 09 R327-R361; 10 R371-R395). -/

namespace Sys2Proof.Machine

/-! ### What a host frame carries (09 R332-R335) -/

/-- The identity of the field configuration that the host domain expects (09 R335). -/
def State.wantCfg (s : State) : Word := if s.prog.valid then cfgIdOf s.prog.field s.prog.axes s.prog.fbus else 0

/-- A new loopback pattern: an open value that differs from the one before (09 R332; notes/assumptions/904.md). -/
def newPattern (old w : Word) : Word := if w = old then old + 1 else w

/-- DOn is shared with a partner (09 R336). -/
def Prog.sharedDo (g : Prog) (n : Nat) : Bool := (wordAt g.field 3).getLsbD (16 + n)
/-- DOn is Placed (05 R218). -/
def Prog.placedDo (g : Prog) (n : Nat) : Bool := (wordAt g.axes 1).getLsbD n

/-- CMDn and the value of DOn (09 R333; 04 R152, R164, R168, R173; 07 R281, R291, R295; notes/assumptions/902.md). A Placed
channel's committed value is not in VAL unless it is forced; the outputs of an absent LP are SAFE. -/
def State.outCommand (s : State) (n : Nat) : OutCmd × Bool :=
  let a := 0x80000 + n
  let v := (s.sink a).getLsbD 0 && (!s.prog.placedDo n || s.outForced.getLsbD n)
  if s.pl.role = 2 then
    if s.prog.sharedDo n then (if s.pl.relPend then (.run, v) else if s.pl.pdrive then (.pdrive, v) else (.safe, v)) else (.safe, v)
  else match s.prog.ownerOut a with
    | none => (.safe, false)
    | some p =>
      if !s.lpExists p then (.safe, false)
      else match (s.lp p).st with
      | .run => (if s.outForced.getLsbD n then .forced else .run, v)
      | .stop =>
        match s.forceOn a with
        | some f => (.forced, f.getLsbD 0)
        | none => (.safe, v)
      | _ => (.safe, v)

def State.outMsg (s : State) : HostMsg :=
  let cs := (List.range 16).map s.outCommand
  let m := s.reqNow.getD {}
  .outImage (bitsOf 16 (cs.map (fun c => c.2))) (cs.map (fun c => c.1)) m.crst m.rst m.dclr (if s.reqNow.isSome then s.reqn else 0)

/-- REQN of the next request: 1-255 (09 R334). -/
def nextReqn (n : BitVec 8) : BitVec 8 := if n = 255 then 1 else n + 1

/-- A request forms from the staged masks once the one before has been echoed (09 R334). -/
def State.formRequest (s : State) : State :=
  if s.reqNow.isNone ∧ s.reqNext ≠ {} then { s with reqNow := some s.reqNext, reqNext := {}, reqn := nextReqn s.reqn } else s

/-- The records that the house core, the pair link and boot have staged join the queue (05 R215). -/
def State.houseRecords (s : State) : State :=
  [0, 1, 11].foldl (fun s m =>
    let r := s.ptStage.get (fun _ => []) m
    { s with schedOut := s.schedOut ++ r.map (fun x => (8, x)), ptStage := s.ptStage.erase m }) s

/-- A write or disable record has been sent (05 R225). -/
def State.sentRecord (s : State) (r : Rec) : State :=
  if r.kind = 1 ∨ r.kind = 2 then
    let h := s.ptHost.get (fun _ => {}) r.index
    let h' := if r.kind = 1 then { h with pend := h.pend + 1, fcnt := 0, done := false } else { h with pend := h.pend + 1 }
    { s with ptHost := s.ptHost.set (fun _ => {}) r.index h' }
  else s

/-- The RUN bit of a station follows the state of its owner (10 R386, R387). -/
def State.stationRuns (s : State) : State :=
  (List.range 128).foldl (fun s k =>
    let c := k / 64
    let n := k % 64
    let e := stationEntry s.prog.fbus c n
    if n ≠ 0 ∧ e.getLsbD 31 then
      let run := decide ((s.lp (fld e 29 27)).st = .run) && decide (s.pl.role ≠ 2)
      if s.fbRun.get (fun _ => false) k = run then s
      else { s with fbRun := s.fbRun.set (fun _ => false) k run
                    busOut := s.busOut ++ [{ kind := 2, ch := c, send := false, run := run, index := n
                                             words := s.fbSout.get (fun _ => List.replicate 16 0) k }] }
    else s) s

/-- The output record of each configured station: its latest output, zeros where nothing was staged (10 R386, R388). -/
def State.stationRecords (s : State) : List BusTx :=
  ((List.range 128).filter (fun k => k % 64 ≠ 0 && (stationEntry s.prog.fbus (k / 64) (k % 64)).getLsbD 31)).map (fun k =>
    { kind := 2, ch := k / 64, send := false, run := s.fbRun.get (fun _ => false) k, index := k % 64
      words := s.fbSout.get (fun _ => List.replicate 16 0) k })

/-- Bytes of a CFG_WRITE record (09 R335) and of a BUS_TX record (10 R376). -/
def CfgRec.size (r : CfgRec) : Nat := 4 * r.wire.length
def BusTx.size (r : BusTx) : Nat := 4 * r.wire.length

/-- The CFG_WRITE records of a block, at most 64 data words each (the model's choice; notes/assumptions/901.md). -/
def blockRecords (b : Nat) (ws : List Word) : List CfgRec :=
  (List.range ((ws.length + 63) / 64)).map (fun k => .block b (64 * k) ws.length ((ws.drop (64 * k)).take 64))

/-- The CFG_WRITE records of the current program's configuration, the COMMIT last (09 R335). -/
def State.cfgRecords (s : State) : List CfgRec :=
  blockRecords 0x10 s.prog.field ++ blockRecords 0x11 s.prog.axes ++ blockRecords 0x12 s.prog.fbus ++ [.commit s.wantCfg]

/-- The CFG_WRITE records that wait: a configuration that has become due starts over. -/
def State.cfgWaiting (s : State) : List CfgRec := if s.cfgDue ∧ s.prog.valid then s.cfgRecords else s.cfgQ

/-- The records of one frame: those of each LP in staging order, by LP number, the house core's last (05 R215;
notes/assumptions/516.md). -/
def byLp (xs : List (Nat × Rec)) : List Rec :=
  (List.range 9).flatMap (fun p => (xs.filter (fun x => x.1 == p)).map (fun x => x.2))

/-- BARRIER_CYCLE_START: the host domain starts a host frame (09 R327-R335; 05 R214; 10 R376). Header, CRC,
HEARTBEAT and OUT_IMAGE take 76 bytes; what waits fills the remaining room in order (notes/assumptions/910.md). -/
def barrierCycleStartOp (s : State) : State :=
  if s.boot ≠ .done then s
  else
    let s := if s.econNext ≠ s.econ ∧ s.pairTime.toNat % 125000 = 0 then { s with econ := s.econNext } else s
    let s := (s.formRequest.houseRecords).stationRuns
    let lbp := newPattern s.lbp (Config.freeWord s.free)
    let want := s.wantCfg
    let room := frameRoom s.econ - 76
    let waiting := s.cfgWaiting
    let cfg := takeFit CfgRec.size waiting.length (room - 4) waiting
    let room := room - recordBytes CfgRec.size cfg
    let sent := takeFit (fun _ => 28) (if s.econ then 128 else 32) (room - 4) s.schedOut
    let recs := byLp sent
    let room := room - recordBytes (fun _ => 28) recs
    let bus := takeFit BusTx.size (if s.econ then 24 else 6) (room - 4) s.busOut
    let ms : List HostMsg := [.heartbeat s.ssackn s.pl.role s.mstate.code s.econ s.pairTime lbp want, s.outMsg] ++
      (if cfg = [] then [] else [.cfgWrite cfg]) ++ (if recs = [] then [] else [.schedWrite recs]) ++
      (if bus = [] then [] else [.busTx bus])
    let s := recs.foldl State.sentRecord s
    { s.draw with
      lbpPrev := s.lbp, lbp := lbp, cfgDue := false, cfgQ := waiting.drop cfg.length, schedOut := s.schedOut.drop sent.length
      busOut := s.busOut.drop bus.length
      txSeq := s.txSeq + 1
      field := { s.field with rxStart := s.fieldNs }
      hframe := some { epoch := s.mram.hostEpoch, seq := s.txSeq, econ := s.econ, msgs := ms } }

/-! ### Accepted field frames (09 R330, R337-R340) -/

/-- FLOST changes (04 R185). -/
def State.setFlost (s : State) (v : Bool) : State := if s.flost = v then s else { s with flost := v }.arrive 0x19

/-- FLOST: no field frame has been accepted within the time in fd.ssto. -/
def flostOp (s : State) : State := s.setFlost true

/-- FIELD_FRAME_ACCEPT: the field frame in transit reaches the host domain (09 R330). -/
def fieldFrameAcceptOp (noise : List Byte) (s : State) : State :=
  match s.field.frame with
  | none => s
  | some fr =>
    let s := s.modField (fun f => { f with frame := none })
    if fr.arrives FieldMsg.wire 2 noise && s.hrx.accepts fr.epoch fr.seq then
      ({ s with hrx := { s.hrx with epoch := some fr.epoch, seq := fr.seq }, hrxMsgs := fr.msgs, mrFseq := s.mrFseq + 1 }.setFlost false).arrive 0x18
    else { s with hrx := { s.hrx with errs := satInc s.hrx.errs } }

/-- Take the first message of the accepted field frame that a test selects. -/
def State.fieldMsg (s : State) (t : FieldMsg → Bool) (k : FieldMsg → State → State) : State :=
  match s.hrxMsgs.find? t with
  | some m => k m { s with hrxMsgs := s.hrxMsgs.erase m }
  | none => s

/-- The host-side records of the initial entries (05 R191, R225). -/
def initialRecords (axes : List Word) : SMap HostEntry :=
  (initialEntries axes).foldl (fun m e =>
    SMap.set (fun _ => {}) m e.1 { w0 := e.2.w0, hyst := e.2.hyst, posn := e.2.posn }) []

/-- The field die has reset: its table holds the initial entries; the latest content of every buffer and the latest output of
every station go out again, and no buffer is PEND (05 R222; 10 R386, R394). -/
def State.fieldCameBack (s : State) : State :=
  let bufs := s.fbLast.map (fun e => ({ kind := 0, ch := e.1 / 4, send := false, run := false, index := e.1 % 4
                                        words := s.fbSent.get (fun _ => []) (8 * e.1 + e.2) } : BusTx))
  let outs := s.stationRecords
  { s with ptGen := s.ptGen + 1, ptHost := initialRecords s.prog.axes, cfgDue := true
           fbTxs := s.fbTxs.map (fun e => (e.1, e.2 &&& 7))
           mrObj := s.mrObj.map (fun o => (o.1, (wordAt o.2 0 &&& 0x1FFFFFFF) :: o.2.drop 1))
           busOut := s.busOut ++ bufs ++ outs }

/-- Buffer b of channel c is known to wait (10 R394; notes/assumptions/1005.md). -/
def State.busWaits (s : State) (c b : Nat) : State :=
  { s with fbTxs := s.fbTxs.set (fun _ => 0) (3 * c + b) (s.fbTxs.get (fun _ => 0) (3 * c + b) ||| 8) }

/-- One own input that differs from the forwarded value for 3 own field frames counts (07 R287). -/
def State.discrepancy (s : State) (i : Nat) : State :=
  let w := s.pl.fwdBits.get (fun _ => 0) (0x40000 + i)
  let differs := decide (w ≠ 0) && (s.mrDi.getLsbD i != (w == 2))
  let n := if differs then s.pl.discRun.get (fun _ => 0) i + 1 else 0
  let s := { s with pl := { s.pl with discRun := s.pl.discRun.set (fun _ => 0) i n } }
  if n = 3 then
    { s with pl := { s.pl with disc := satInc s.pl.disc, discTotal := satInc s.pl.discTotal } }.event 0x0707 3 0x3A []
  else s

/-- The standby's input discrepancy test (07 R287). -/
def State.compareInputs (s : State) : State :=
  if s.inStep then (List.range 32).foldl (fun s i => s.discrepancy i) s else s

/-- IN_IMAGE (09 R337, R338). -/
def inImageOp (s : State) : State :=
  s.fieldMsg (fun m => match m with | .inImage .. => true | _ => false) (fun m s =>
    match m with
    | .inImage di ts fstat ctr carry cfgid reqe sscnt herr safeact cfgok frst =>
      let s := { s with mrDi := di, mrTs := ts, mrDiSeq := s.mrFseq, mrStat := fstat, mrCtr := ctr, fdIn := some (cfgid, sscnt, reqe, herr, safeact, cfgok)
                        reqNow := if s.reqNow.isSome ∧ reqe = s.reqn then none else s.reqNow
                        cfgDue := s.cfgDue || (s.cfgQ.isEmpty && s.prog.valid && decide (cfgid ≠ s.wantCfg)) }
      let s := (List.range 12).foldl (fun s k => if carry.getLsbD k then s.arrive (0x30 + k) else s) s
      let s := if frst then s.fieldCameBack else s
      s.compareInputs
    | _ => s)

/-- SUPPLY (09 R339). -/
def supplyOp (s : State) : State :=
  s.fieldMsg (fun m => match m with | .supply .. => true | _ => false) (fun m s =>
    match m with
    | .supply l high w1 =>
      let w0 : BitVec 3 := BitVec.ofNat 3 (l.code + (if high then 4 else 0))
      let changed := decide (w0 ≠ s.fdLs)
      let s := { s with fdLs := w0, fdLplus := w1 }
      if changed then (s.arrive 0x1A).event 0x0401 4 0x20 [w0.setWidth 32, w1] else s
    | _ => s)

/-- The recorder takes the events that a field frame brings (notes/assumptions/514.md). -/
def State.fieldEvents (s : State) (evs : List FieldEvent) : State :=
  evs.foldl (fun s e => s.event e.code e.sev e.source e.params) s

/-- AXIS_STATE (05 R207). -/
def axisStateOp (s : State) : State :=
  s.fieldMsg (fun m => match m with | .axisState .. => true | _ => false) (fun m s =>
    match m with
    | .axisState ws evs => { s with mrAx := ws }.fieldEvents evs
    | _ => s)

/-- A DIAG entry in the host domain: its record, and the safe state's duration (09 R340, R343). -/
def State.diagEntry (s : State) (e : DiagEnt) : State :=
  let s := s.event 0x0402 4 0x20 [e.word, loWord e.time, hiWord e.time]
  if e.code = 0x07 then
    if e.set then { s with safeAt := e.time }
    else
      let d := e.time - s.safeAt
      { s with ssackn := e.param }.event 0x0403 6 0x20 [loWord d, hiWord d]
  else s

/-- fd.dv of an output (09 R361): what DIAG and the status bits of the same frame say. -/
def State.outState (s : State) (n : Nat) (sccnt wtp : BitVec 8) (on : Bool) : Word :=
  let b := fun k => s.mrStat.getLsbD (k + n)
  at_ 24 sccnt.toNat ||| at_ 16 wtp.toNat ||| flagAt 7 (b 80) ||| flagAt 6 (b 64) ||| flagAt 5 (b 48) ||| flagAt 4 (b 32) |||
  flagAt 3 (b 96) ||| flagAt 2 (b 112) ||| flagAt 0 on

/-- DIAG (09 R340; 07 R287). -/
def diagOp (s : State) : State :=
  s.fieldMsg (fun m => match m with | .diag .. => true | _ => false) (fun m s =>
    match m with
    | .diag dovf lbe ents sccnt wtp on evs =>
      let good := decide (lbe = ~~~s.lbp) || decide (lbe = ~~~s.lbpPrev)
      let s := { s with fdDovf := dovf, fdDiag := (List.range 16).foldl (fun d n =>
                   d.set (fun _ => 0) n (s.outState n (sccnt.getD n 0) (wtp.getD n 0) (on.getLsbD n))) s.fdDiag }
      let s := if s.pl.role ≠ 2 then s
               else if good then { s with pl := { s.pl with loops := satInc s.pl.loops } }
               else { s with pl := { s.pl with lbf := satInc s.pl.lbf, loopBad := some s.time } }
      let s := if ents.any (fun e => e.set) then s.arrive 0x1B else s
      (ents.foldl State.diagEntry s).fieldEvents evs
    | _ => s)

/-- A fire note in the host domain (05 R221, R225; 08 R303); a BUSTX fire has made its buffer PEND (10 R376). -/
def State.firedNote (s : State) (n : Note) : State :=
  let h := s.ptHost.get (fun _ => {}) n.index
  let h' := { h with fcnt := satInc h.fcnt, late := n.late, unreached := n.unreached, stalef := n.stale
                     done := !entryRearm h.w0, tf := n.tf, val := n.val }
  let s := { s with ptHost := s.ptHost.set (fun _ => {}) n.index h' }
  if n.action = 0 then s.arrive 0x40
  else if n.action = 7 then s.busWaits (entryTarget h.w0 / 4 % 2) (entryTarget h.w0 % 4)
  else if n.action = 6 then (List.range 8).foldl (fun s p => s.triggerArg p 1 n.index n.tf) s
  else s

/-- SCHED_FIRED (05 R220, R221). -/
def schedFiredOp (s : State) : State :=
  s.fieldMsg (fun m => match m with | .schedFired .. => true | _ => false) (fun m s =>
    match m with
    | .schedFired ns lost =>
      ns.foldl State.firedNote { s with ptLost := BitVec.ofNat 16 (min (s.ptLost.toNat + lost) 65535) }
    | _ => s)

/-- The mirror object after an object record (10 R372). -/
def noteObject (old ws : List Word) (new : Bool) (nrx : Nat) : List Word :=
  let o := wordAt old 0
  let r := wordAt ws 0
  let sts := r &&& 0x300
  if new then
    let lost := o.getLsbD 30 || o.getLsbD 31 || decide (nrx > 1)
    (flagAt 31 true ||| flagAt 30 lost ||| (r &&& 0x3FFFFCFF) ||| sts) :: ws.drop 1
  else ((o &&& 0xFFFFFCFF) ||| sts) :: old.drop 1

/-- One BUS_RX_NOTE record (10 R372, R379, R385, R389; notes/assumptions/1008.md). -/
def State.busNoted (s : State) : BusNote → State
  | .object c new nrx i ws =>
    let s := s.setMirrorObj c i (noteObject (s.mirrorObj c i) ws new nrx)
    if 0x101 ≤ i ∧ i ≤ 0x13F then
      let k := 64 * c + (i - 0x100)
      let v := fld (wordAt ws 0) 9 8
      if s.mrSts.get (fun _ => 0) k = v then s
      else { s with mrSts := s.mrSts.set (fun _ => 0) k v }.event 0x0506 4 (0x30 + c) [BitVec.ofNat 32 c, BitVec.ofNat 32 (i - 0x100), BitVec.ofNat 32 v]
    else s
  | .status c ws sts =>
    let key := fun k => 0x980 + c + 2 * k
    let old := if s.mrFb.get (fun _ => 0) (0x1100 + c) = 0 then (0xC000 : Word) else s.mrFb.get (fun _ => 0) (key 0)
    let changed := decide (old ≠ wordAt ws 0) ||
      (List.range 64).any (fun n => decide (s.mrFb.get (fun _ => 0) (0x1000 + 64 * c + n) ≠ BitVec.ofNat 32 (sts.getD n 0)))
    let m := (List.range 4).foldl (fun m k => m.set (fun _ => 0) (key k) (wordAt ws k)) s.mrFb
    let m := (List.range 64).foldl (fun m n => m.set (fun _ => 0) (0x1000 + 64 * c + n) (BitVec.ofNat 32 (sts.getD n 0))) m
    let s := { s with mrFb := m.set (fun _ => 0) (0x1100 + c) 1 }
    if changed then s.arrive (0x28 + c) else s
  | .done c i r _ =>
    let s := if i < 3 then { s with fbTxs := s.fbTxs.set (fun _ => 0) (3 * c + i) (r.setWidth 32) } else s
    s.arrive (0x2C + c)

/-- BUS_RX_NOTE (10 R372, R385). -/
def busRxNoteOp (s : State) : State :=
  s.fieldMsg (fun m => match m with | .busRxNote .. => true | _ => false) (fun m s =>
    match m with
    | .busRxNote rs =>
      let s := rs.foldl State.busNoted s
      [0, 1].foldl (fun s c =>
        if rs.any (fun r => match r with | .object c' new _ _ _ => c' == c && new | _ => false) then s.arrive (0x2A + c) else s) s
    | _ => s)

/-! ### The field message ports (09 R358-R361) -/

/-- A staging move of masks (09 R359): a PROGRAM-world master names only channels that its LP owns. -/
def State.stageMasks (s : State) (m : Master) (own : Bool) (f : Masks → Masks) : State :=
  match m with
  | .lp _ =>
    if own then { s with fdStage := s.fdStage.set (fun _ => {}) m.code (f (s.fdStage.get (fun _ => {}) m.code)) }.setMport m 0x900 0
    else s.setMport m 0x900 1
  | _ => { s with reqNext := f s.reqNext }.setMport m 0x900 0

/-- Whether LP p owns every output channel, or every counter, that a mask names. -/
def ownsMask (m : Master) (v : Word) (n : Nat) (own : Nat → Nat → Bool) : Bool :=
  (List.range n).all (fun k => !v.getLsbD k || own m.target k)

/-- FD_RST, FD_CRST, FD_DCLR (09 R359). -/
def fdRstOp (m : Master) (v : Word) (s : State) : State :=
  s.stageMasks m (ownsMask m v 16 s.prog.ownsDo) (fun k => { k with rst := k.rst ||| v.setWidth 16 })
def fdCrstOp (m : Master) (v : Word) (s : State) : State :=
  s.stageMasks m (ownsMask m v 12 (fun p k => s.prog.ownsIn p 8 k)) (fun k => { k with crst := k.crst ||| v.setWidth 12 })
def fdDclrOp (m : Master) (v : Word) (s : State) : State :=
  s.stageMasks m (ownsMask m v 16 s.prog.ownsDo) (fun k => { k with dclr := k.dclr ||| v.setWidth 16 })

/-- FD_DRD (09 R361). -/
def fdDrdOp (m : Master) (s : State) : State :=
  let c := (s.mport m 0x90C).toNat
  s.setSport 0x90E
    (if c < 32 then flagAt 1 (s.mrStat.getLsbD c) ||| flagAt 0 (s.mrDi.getLsbD c)
     else if c < 48 then s.fdDiag.get (fun _ => 0) (c - 32) else 0)

/-- The reads of the field message ports (09 R358, R360). -/
def fdPort (s : State) (m : Master) (a : Nat) : Word :=
  match a with
  | 0x900 =>
    let base := flagAt 9 (s.mport m 0x900 = 1) ||| flagAt 8 s.reqNow.isSome ||| at_ 4 (s.fdLs.toNat % 4) ||| flagAt 3 (s.fdLs.getLsbD 2)
    match s.fdIn with
    | some (cfgid, sscnt, _, _, safeact, cfgok) =>
      base ||| at_ 24 sscnt.toNat ||| flagAt 2 safeact ||| flagAt 1 (cfgok && s.prog.valid && decide (cfgid = s.wantCfg))
    | none => base
  | 0x901 => s.fdLplus
  | 0x902 =>
    match s.fdIn with
    | some (cfgid, _, _, _, _, _) => if s.prog.valid ∧ cfgid = s.wantCfg then wordAt s.prog.field 0 &&& 0x3FF else 50
    | none => 50
  | 0x903 => match s.fdIn with | some (_, _, _, h, _, _) => h.setWidth 32 | none => 0
  | 0x904 => s.hrx.errs.setWidth 32
  | 0x905 => s.fdDovf.setWidth 32
  | 0x90E => s.sport 0x90E
  | _ => s.mport m a

/-! ### The table's ports (05 R213, R223-R225) -/

/-- TARGET lies within R210. -/
def targetOk (w0 : Word) : Bool :=
  let t := entryTarget w0
  match entryAction w0 with
   | 0 => t == 0 | 1 => decide (t < 16) | 2 => decide (t < 16) | 3 => decide (t < 16) | 4 => decide (t < 16)
   | 5 => decide (t < 12) | 6 => t == 0 | 7 => decide (t < 8 ∧ t % 4 ≠ 3) | _ => false

/-- The cause that refuses an entry by its content, 0 where none does; `own` says which Placed channels count (05 R213; notes/assumptions/509.md). -/
def entryCause (axes : List Word) (w0 hyst : Word) (p : BitVec 64) (own : Nat → Bool) : Nat :=
  let x := entryAxis w0
  let d := axisDesc axes x
  if x ≠ 0 ∧ !d.en then 1
  else if !targetOk w0 then 2
  else if outputAction w0 ∧ !((wordAt axes 1).getLsbD (entryTarget w0) && own (entryTarget w0)) then 3
  else if d.mod ≠ 0 ∧ (d.mod.toNat ≤ p.toNat ∨ d.mod.toNat < 4 * hyst.toNat) then 4
  else 0

/-- The records that a master has staged. -/
def State.staged (s : State) (m : Master) : List Rec := s.ptStage.get (fun _ => []) m.code

/-- Stage a record, unless a cause refuses it or the buffer of 256 is full (05 R213, R224). -/
def State.stageRec (s : State) (m : Master) (cause : Nat) (r : Rec) : State :=
  let c := if cause ≠ 0 ∧ cause < 5 then cause else if 256 ≤ (s.staged m).length then 5 else cause
  if c = 0 then { s with ptStage := s.ptStage.set (fun _ => []) m.code (s.staged m ++ [r]) }.setMport m 0x954 0
  else s.setMport m 0x954 (BitVec.ofNat 32 c)

/-- REF of a staged record: an LP's axis snapshot, but the position at application for its start-up routine and for the
house core (05 R215). -/
def State.stageRef (s : State) (m : Master) (x : Nat) : BitVec 64 × Bool :=
  match m with
  | .lp n =>
    match (s.lp n.val).phase with
    | .init => (0, true)
    | .initEnd => (0, true)
    | _ => ((s.lp n.val).ax.get (fun _ => 0) x, false)
  | _ => (0, true)

/-- PT_WR (05 R209, R213, R214). -/
def ptWrOp (m : Master) (s : State) : State :=
  let w0 := s.mport m 0x941
  let p := long (s.mport m 0x943) (s.mport m 0x944)
  let own := match m with | .lp n => s.prog.ownsDo n.val | _ => (fun _ => true)
  let ref := s.stageRef m (entryAxis w0)
  s.stageRec m (entryCause s.prog.axes w0 (s.mport m 0x942) p own)
    { kind := 1, axsel := 0, index := (s.mport m 0x940).toNat, w0 := entryWord w0, hyst := s.mport m 0x942, value := p
      ref := ref.1, live := ref.2 }

/-- PT_DIS. -/
def ptDisOp (m : Master) (s : State) : State :=
  s.stageRec m 0 { kind := 2, axsel := 0, index := (s.mport m 0x940).toNat, w0 := 0, hyst := 0, value := 0, ref := 0, live := false }

/-- A preset or home record of the selected axis. -/
def State.axisRec (s : State) (m : Master) (kind : Nat) : Rec :=
  { kind := kind, axsel := (s.mport m 0x94C).toNat, index := 0, w0 := 0, hyst := 0
    value := long (s.mport m 0x94D) (s.mport m 0x94E), ref := 0, live := false }

/-- PT_PRESET and PT_HOME. -/
def ptPresetOp (m : Master) (s : State) : State := s.stageRec m 0 (s.axisRec m 3)
def ptHomeOp (m : Master) (s : State) : State :=
  s.stageRec m (if (axisDesc s.prog.axes (s.mport m 0x94C).toNat).zhome then 0 else 6) (s.axisRec m 4)

/-- PT_RD (05 R223, R225). -/
def ptRdOp (m : Master) (s : State) : State :=
  let h := s.ptHost.get (fun _ => {}) (s.mport m 0x940).toNat
  let st := at_ 16 h.fcnt.toNat ||| flagAt 8 (h.pend != 0) ||| flagAt 7 h.late ||| flagAt 6 h.unreached ||| flagAt 5 h.stalef |||
    flagAt 4 h.done ||| flagAt 0 (entryDir h.w0 != 0)
  ((((s.setMport m 0x959 h.w0).setMport m 0x95A st).setMport m 0x95B (loWord h.tf)).setMport m 0x95C (hiWord h.tf)).setMport m 0x95D h.val

/-- The reads of the table's ports (05 R223, R224). -/
def ptPort (s : State) (m : Master) (a : Nat) : Word :=
  match a with
  | 0x954 => at_ 16 (s.staged m).length ||| s.mport m 0x954
  | 0x955 => s.ptGen.setWidth 32
  | 0x956 => s.ptLost.setWidth 32
  | _ => s.mport m a

/-! ### The field bus ports (10 R394, R395) -/

/-- FB_ACK (10 R373, R395). -/
def fbAckOp (m : Master) (v : Word) (s : State) : State :=
  let c := fld v 12 12
  let i := fld v 11 0
  let own : Bool := match m with | .lp n => s.prog.ownsIn n.val (0xA + c) i | _ => true
  if i < 2112 ∧ own then
    let ws := s.mirrorObj c i
    let w := wordAt ws 0
    let w := if v.getLsbD 16 then w &&& 0x7FFFFFFF else w
    let w := if v.getLsbD 17 then w &&& 0xBFFFFFFF else w
    s.setMirrorObj c i (w :: ws.drop 1)
  else s

/-- A staged item of a master: an LP's waits for its commit, the house core's leaves with the next host frame. -/
def State.stageBus (s : State) (m : Master) (x : FbStage) : State :=
  { s with fbStage := s.fbStage.set (fun _ => []) m.code (s.fbStage.get (fun _ => []) m.code ++ [x]) }.setMport m 0x99D 0

/-- A request for buffer b of channel c leaves (10 R376, R394). -/
def State.busRequest (s : State) (c b : Nat) : State :=
  { s with busOut := s.busOut ++ [{ kind := 1, ch := c, send := false, run := false, index := b, words := [] }]
           fbTxs := (s.busWaits c b).fbTxs }

/-- The SOLEN bytes from word data as 16 words of output data (10 R376, R388). -/
def State.stationData (s : State) (solen sbuf : Nat) : List Word :=
  let ws := s.memGetList sbuf ((solen + 3) / 4)
  let bytes := (bytesOfWords ws).take solen
  wordsOfBytes (bytes ++ List.replicate (64 - solen) 0)

/-- A station output record leaves (10 R388). -/
def State.stationOut (s : State) (c n sbuf : Nat) : State :=
  let e := stationEntry s.prog.fbus c n
  let ws := s.stationData (fld e 22 16) sbuf
  let run := decide ((s.lp (fld e 29 27)).st = .run)
  { s with busOut := s.busOut ++ [{ kind := 2, ch := c, send := false, run := run, index := n, words := ws }]
           fbSout := s.fbSout.set (fun _ => List.replicate 16 0) (64 * c + n) ws
           fbRun := s.fbRun.set (fun _ => false) (64 * c + n) run }

/-- FB_TXREQ (10 R376, R394). -/
def fbTxreqOp (m : Master) (s : State) : State :=
  let t := (s.mport m 0x994).toNat
  let c := t / 4 % 2
  let b := t % 4
  match m with
  | .lp n => if s.prog.ownsOut n.val (0xA + c) b then s.stageBus m (.txreq c b) else s.setMport m 0x99D 1
  | _ => if b < 3 then (s.busRequest c b).setMport m 0x99D 0 else s.setMport m 0x99D 1

/-- FB_SPUT (10 R388, R394). -/
def fbSputOp (m : Master) (s : State) : State :=
  let t := (s.mport m 0x996).toNat
  let c := t / 64 % 2
  let n := t % 64
  let e := stationEntry s.prog.fbus c n
  let sbuf := (s.mport m 0x997).toNat
  let last := sbuf + (fld e 22 16 + 3) / 4 - 1
  if n = 0 ∨ !e.getLsbD 31 then s.setMport m 0x99D 2
  else match m with
    | .lp p =>
      if fld e 29 27 ≠ p.val then s.setMport m 0x99D 1
      else if inSlice (p.val / 2) sbuf && inSlice (p.val / 2) (max sbuf last) then s.stageBus m (.sput c n sbuf)
      else s.setMport m 0x99D 3
    | _ => if place sbuf = .word then (s.stationOut c n sbuf).setMport m 0x99D 0 else s.setMport m 0x99D 3

/-- A move into fb.cmd (10 R395): the command leaves in the next host frame. -/
def fbCmdOp (v : Word) (s : State) : State :=
  let k := fld v 3 0
  if 1 ≤ k ∧ k ≤ 3 then
    { s with busOut := s.busOut ++ [{ kind := 1, ch := fld v 8 8, send := false, run := false, index := 0x80 + k, words := [] }] }
  else s

/-- What a master's staged bus items do when they leave (10 R376, R388). -/
def State.releaseBus (s : State) : FbStage → State
  | .txreq c b => s.busRequest c b
  | .sput c n sbuf => s.stationOut c n sbuf

/-- The reads of the field bus ports (10 R394). -/
def fbPort (s : State) (m : Master) (a : Nat) : Word :=
  if a ≤ 0x981 then (if s.mrFb.get (fun _ => 0) (0x1100 + (a - 0x980)) = 0 then 0xC000 else s.mrFb.get (fun _ => 0) a)
  else if a ≤ 0x987 then s.mrFb.get (fun _ => 0) a
  else if a ≤ 0x98F then
    let k := a - 0x988
    (List.range 16).foldl (fun w j => w ||| at_ (2 * j) (s.mrSts.get (fun _ => 0) (64 * (k / 4) + 16 * (k % 4) + j))) 0
  else if a = 0x991 then (List.range 6).foldl (fun w k => w ||| at_ (4 * k) (s.fbTxs.get (fun _ => 0) k).toNat) 0
  else s.mport m a

end Sys2Proof.Machine
end

