-- ==== Sys2Proof/Machine/Rack.lean ====
section
/-! DEFINITION. The rack bus: boards, cycles, probes, lines and ports (11 R397-R413). -/

namespace Sys2Proof.Machine

/-! ### The RACK section (11 R399, R400) -/

def boardPers (sect : List Word) (b : Nat) : Nat := fld (boardWord sect b 0) 29 28
def boardSafe (sect : List Word) (b : Nat) : Nat := fld (boardWord sect b 0) 27 26
def boardNib (sect : List Word) (b : Nat) : Nat := fld (boardWord sect b 2) 31 16
def boardNob (sect : List Word) (b : Nat) : Nat := fld (boardWord sect b 2) 15 0
def boardNiw (sect : List Word) (b : Nat) : Nat := fld (boardWord sect b 3) 31 24
def boardNow (sect : List Word) (b : Nat) : Nat := fld (boardWord sect b 3) 23 16

def State.modBoard (s : State) (b : Nat) (f : Board → Board) : State :=
  { s with rk := { s.rk with boards := s.rk.boards.set (fun _ => {}) b (f (s.rk.board b)) } }

def BoardSt.code : BoardSt → Nat
  | .ok => 0 | .missing => 1 | .wrongid => 2 | .failed => 3

/-! ### Status (11 R406) -/

/-- A board's status; a change writes RACK_BOARD. -/
def State.setBoard (s : State) (b : Nat) (st : BoardSt) : State :=
  if (s.rk.board b).st = st then s
  else ((s.modBoard b (fun x => { x with st := st })).event 0x0601 4 0x38 [BitVec.ofNat 32 b, BitVec.ofNat 32 st.code]).refreshRlost

/-- Every enabled board is to be probed once: before the first data cycle, or at a RESCAN (11 R405). -/
def State.probeAll (s : State) (first : Bool) : State :=
  s.rk.enabled.foldl (fun s b => s.modBoard b (fun x => { x with rescan := true, first := x.first || first })) s

/-- The module becomes rack master: by takeover every board counts as OK, otherwise each is probed (11 R405, R408). -/
def State.becomeMaster (s : State) (takeover : Bool) : State :=
  if s.rk.sect = [] then s
  else (if takeover then s.rk.enabled.foldl (fun s b => s.setBoard b .ok) s else s.probeAll true).refreshRlost

/-- A RACK section is applied (11 R405). -/
def State.applyRack (s : State) (sect : List Word) : State :=
  let s := { s with rk := { s.rk with sect := sect, boards := [], snap := [], running := false } }
  (if s.rackMaster then s.probeAll true else s).refreshRlost

/-! ### Outputs (11 R402, R407) -/

/-- The value of a rack output: committed or forced, or its safe value (04 R164; 11 R407). -/
def State.rackOutput (s : State) (b key forceKey : Nat) (owner : Option Nat) : Word :=
  let safe := if boardSafe s.rk.sect b = 1 then s.sink key else 0
  match owner with
  | none => safe
  | some p =>
    if !s.lpExists p then safe
    else match (s.lp p).st with
      | .run => s.sink key
      | .stop => (s.forceOn forceKey).getD safe
      | _ => safe

/-- The word data address that an output set gives a rack word channel: forces on it name that address (04 R173). -/
def Prog.outWordAddr (g : Prog) (c i : Nat) : Nat :=
  (((List.range 8).flatMap (fun p => g.outset p)).find? (fun e => e.hasIndex c i)).elim 0 (fun e => e.addr + (i - e.first))

/-- Some output of board b has an owner in RUN. -/
def State.boardInRun (s : State) (b : Nat) : Bool :=
  (List.range 8).any (fun p => decide ((s.lp p).st = .run) && (s.prog.outset p).any (fun e =>
    if e.cls = 3 then decide (e.addr < 0x88000 + b * 0x2000 ∧ 0x88000 + (b - 1) * 0x2000 < e.addr + e.count)
    else e.cls == 0xC && decide (e.first < b * 128 ∧ (b - 1) * 128 < e.first + e.count)))

/-- Bytes of output bits, bit 0 of byte 0 first. -/
def bitBytes (ws : List Word) : List Byte :=
  (List.range (ws.length / 8)).map (fun j => BitVec.ofNat 8 (((ws.drop (8 * j)).take 8).foldr (fun w n => 2 * n + w.toNat % 2) 0))

/-- What the output snapshot holds for board b, the bytes and then the word channels: none where its accesses are skipped. -/
def State.boardSnap (s : State) (b : Nat) : Option (Nat × List Byte) :=
  if boardSafe s.rk.sect b = 2 ∧ s.boardInRun b = false then none
  else
    let base := 0x88000 + (b - 1) * 0x2000
    some (b,
      bitBytes ((List.range (8 * boardNob s.rk.sect b)).map (fun k => s.rackOutput b (base + k) (base + k) (s.prog.ownerOut (base + k)))) ++
      bytesOfWords ((List.range (boardNow s.rk.sect b)).map (fun ch =>
        let i := (b - 1) * 128 + ch
        s.rackOutput b (0xC * 2 ^ 28 + i) (s.prog.outWordAddr 0xC i) (s.prog.ownerWord 0xC i))))

/-- A board that exchanges data. -/
def Board.served (x : Board) : Bool := x.st == .ok || x.st == .failed

/-! ### Accesses (11 R397, R398, R402, R404) -/

/-- Bytes of a transfer unit: a byte on A, a 16-bit word on B, a 32-bit word on C. -/
def unitBytes (pers : Nat) : Nat := if pers = 0 then 1 else if pers = 1 then 2 else 4
/-- n bytes in whole transfer units; a D payload has no padding. -/
def padded (pers n : Nat) : Nat := if pers = 3 then n else (n + unitBytes pers - 1) / unitBytes pers * unitBytes pers
/-- The bus addresses of n bytes from an address on: C has byte addresses. -/
def unitAddrs (pers addr n : Nat) : List Nat :=
  (List.range (n / unitBytes pers)).map (fun j => addr + (if pers = 2 then 4 * j else j))

/-- Bursts of at most 64 words over contiguous addresses, as a start and a length (11 R402). -/
def burstsFrom : Nat → Nat → List Nat → List (Nat × Nat)
  | a, n, [] => [(a, n)]
  | a, n, x :: t => if x = a + 4 * n ∧ n < 64 then burstsFrom a (n + 1) t else (a, n) :: burstsFrom x 1 t
/-- The accesses at unit addresses: one each on A and B, bursts on C. -/
def grouped (pers : Nat) : List Nat → List (Nat × Nat)
  | [] => []
  | a :: t => if pers = 2 then burstsFrom a 1 t else (a :: t).map (fun x => (x, 1))

/-- The accesses of groups of units, from byte `off` of the stream `out` on. -/
def parAccesses (b pers : Nat) (write : Bool) (out : List Byte) : Nat → List (Nat × Nat) → List RackAccess
  | _, [] => []
  | off, (a, n) :: t =>
    let k := n * unitBytes pers
    { board := b, pers := pers, addr := a, write := write, sent := if write then (out.drop off).take k else []
      expect := if write then 0 else k } :: parAccesses b pers write out (off + k) t

/-- A personality D frame (11 R398): ADDR, FUNC, LEN, the payload and its CRC-16, high byte first. -/
def dFrame (addr func : Nat) (payload : List Byte) : List Byte :=
  let body := [BitVec.ofNat 8 addr, BitVec.ofNat 8 func, BitVec.ofNat 8 payload.length, BitVec.ofNat 8 (payload.length / 256)] ++ payload
  body ++ [(crc16 body).extractLsb' 8 8, (crc16 body).extractLsb' 0 8]

/-- The payload of a valid response: it repeats ADDR and FUNC, and its length and CRC are right (11 R398, R404). -/
def dPayload (addr func expect : Nat) (fr : List Byte) : Option (List Byte) :=
  let p := (fr.drop 4).take expect
  if p.length = expect ∧ fr = dFrame addr func p then some p else none

/-- FUNC of an exchange: READ 1, WRITE 2. -/
def RackAccess.func (a : RackAccess) : Nat := if a.write then 2 else 1

/-- What an access reads: none where it fails, which one of personality A never does (11 R404). -/
def RackAccess.result (a : RackAccess) (answer : Option (List Byte)) : Option (List Byte) :=
  let fit := fun (bs : List Byte) => bs.take a.expect ++ List.replicate (a.expect - bs.length) 0
  match a.pers with
  | 0 => some (fit (answer.getD []))
  | 3 => answer.bind (dPayload a.addr a.func a.expect)
  | _ => answer.map fit

/-- Accesses one after another: those that take place, and all that they read unless one fails; the rest are skipped
(11 R404). -/
def runAccesses : List RackAccess → List (Option (List Byte)) → List RackAccess × Option (List Byte)
  | [], _ => ([], some [])
  | a :: t, xs =>
    match a.result (xs.headD none) with
    | none => ([a], none)
    | some d =>
      let r := runAccesses t xs.tail
      (a :: r.1, r.2.map (fun ds => d ++ ds))

/-- The mailbox board (11 R399); 0: none. -/
def mailboxBoard (sect : List Word) : Nat := fld (wordAt sect 0) 12 8
/-- The address of a mailbox window: the request's, or the reply's 64 bytes above it (11 R399, R411). -/
def windowAddr (sect : List Word) (b : Nat) (reply : Bool) : Nat :=
  (boardWord sect b 1).toNat + (wordAt sect 2).toNat + (if !reply then 0 else if boardPers sect b = 1 then 32 else 64)

/-- The accesses of board b in one direction: bytes, then word channels (notes/assumptions/1116.md); on D one exchange
(11 R402). -/
def boardAccesses (sect : List Word) (b : Nat) (write : Bool) (out : List Byte) : List RackAccess :=
  let pers := boardPers sect b
  let base := (boardWord sect b 1).toNat
  let nb := if write then boardNob sect b else boardNib sect b
  let nw := if write then boardNow sect b else boardNiw sect b
  if pers = 3 then
    [{ board := b, pers := 3, addr := base, write := write, sent := if write then dFrame base 2 out else dFrame base 1 []
       expect := if write then 0 else nb + 4 * nw }]
  else
    parAccesses b pers write out 0
      (grouped pers (unitAddrs pers base (padded pers nb) ++ unitAddrs pers (base + fld (boardWord sect b 3) 15 0) (4 * nw)))

/-- The accesses of a mailbox window (11 R411). -/
def windowAccesses (sect : List Word) (b : Nat) (write : Bool) (out : List Byte) : List RackAccess :=
  if mailboxBoard sect = b then
    parAccesses b (boardPers sect b) write out 0 (grouped (boardPers sect b) (unitAddrs (boardPers sect b) (windowAddr sect b write) 64))
  else []

/-! ### The rack cycle (11 R403, R404, R406, R411) -/

/-- The control byte and the data of a mailbox window (11 R411). -/
def windowOf (bs : List Byte) : MailboxWindow :=
  let c := bs.getD 0 0
  { tog := c.getLsbD 7, ack := c.getLsbD 6, data := (bs.drop 1).take (c.toNat % 64) }
def windowBytes (w : MailboxWindow) : List Byte :=
  [(if w.tog then 0x80 else 0) ||| (if w.ack then 0x40 else 0) ||| BitVec.ofNat 8 (w.data.length % 64)] ++ w.data.take 63 ++
    List.replicate (63 - w.data.length) 0

/-- The reply window after a request window has been read (11 R411): request data whose TOG is new are taken, and a new reply
block is written once the latest one is acknowledged (notes/assumptions/1114.md). -/
def State.mailboxCycle (s : State) (w : MailboxWindow) : State :=
  let r := s.hc.mbReply
  if w.ack = r.tog ∧ s.hc.mbOut ≠ [] then
    { s with hc := { s.hc with mbReply := { tog := !r.tog, ack := w.tog, data := s.hc.mbOut.take 63 }, mbOut := s.hc.mbOut.drop 63 } }
  else { s with hc := { s.hc with mbReply := { r with ack := w.tog } } }

/-- RACK_CYCLE (11 R403): the snapshot, and the start of the input phases. -/
def rackCycleOp (s : State) : State :=
  if !s.rackMaster ∨ s.rk.enabled.any (fun b => (s.rk.board b).first) then s
  else
    let snap := s.rk.enabled.filterMap (fun b => if (s.rk.board b).served then s.boardSnap b else none)
    { s with rk := { s.rk with snap := snap, running := true, cycAt := s.ns, par := [], ser := [] } }

/-- Accesses take place on their bus: D runs on its own pins beside the parallel bus (11 R397). -/
def State.onBus (s : State) (as : List RackAccess) : State :=
  { s with rk := { s.rk with par := s.rk.par ++ as.filter (fun a => a.pers != 3), ser := s.rk.ser ++ as.filter (fun a => a.pers == 3) } }

/-- A failed access of board b: it counts, STALE is 1, and the third cycle in a row makes the board FAILED (11 R404, R406). -/
def State.boardFails (s : State) (b : Nat) : State :=
  let n := (s.rk.board b).fails + 1
  let s := { s with rk := { s.rk with err := satInc s.rk.err } }
  let s := s.modBoard b (fun y => { y with stale := true, fails := min n 3 })
  if n ≥ 3 then s.setBoard b .failed else s

/-- The bits of input bytes, bit 0 of byte 0 first. -/
def byteBits (bs : List Byte) : List Word := bs.flatMap (fun b => (List.range 8).map (fun i => bit (b.getLsbD i)))

/-- The inputs of board b that a full exchange brought, in the mirror, and the board OK (11 R402, R406). -/
def State.boardInput (s : State) (b : Nat) (d : List Byte) : State :=
  let pers := boardPers s.rk.sect b
  let nib := boardNib s.rk.sect b
  let words := wordsOfBytes ((d.drop (padded pers nib)).take (4 * boardNiw s.rk.sect b))
  let s := (s.modBoard b (fun y => { y with stale := false, fails := 0 })).setBoard b .ok
  { s with rk := { s.rk with inBits := s.rk.inBits.setList (fun _ => 0) (0x48000 + (b - 1) * 0x2000) (byteBits (d.take nib))
                             inWords := s.rk.inWords.setList (fun _ => 0) ((b - 1) * 128) words } }

/-- The accesses of a served board in a cycle (11 R403, R404, R411): its reads, the mailbox, its writes from the snapshot. -/
def State.boardCycle (s : State) (as : List BoardAnswers) (b : Nat) : State :=
  let sect := s.rk.sect
  let x := (as.find? (fun a => a.board.val == b)).getD { board := 0, reads := [], writes := [] }
  if !(s.rk.board b).served then s
  else
    let rd := runAccesses (boardAccesses sect b false [] ++ windowAccesses sect b false []) x.reads
    let s := s.onBus rd.1
    match rd.2 with
    | none => s.boardFails b
    | some d =>
      let mail := decide (mailboxBoard sect = b ∧ b ≠ 0)
      let s := if mail then s.mailboxCycle (windowOf (d.drop (padded (boardPers sect b) (boardNib sect b) + 4 * boardNiw sect b))) else s
      let window := if mail then windowBytes s.hc.mbReply else []
      let outputs := match s.rk.snap.find? (fun o => o.1 == b) with
        | some o => boardAccesses sect b true o.2
        | none => []
      let wr := runAccesses (outputs ++ windowAccesses sect b true window) x.writes
      let s := s.onBus wr.1
      if wr.2.isSome then s.boardInput b d else s.boardFails b

/-- The status bits of board b's input block (11 R406). -/
def State.statusBits (s : State) (b : Nat) : List Word :=
  let x := s.rk.board b
  [bit (x.st == .ok), bit (x.st == .missing), bit (x.st == .wrongid), bit (x.st == .failed), bit x.stale]

/-- The status bits of board b in the mirror. -/
def State.boardStatus (s : State) (b : Nat) : State :=
  { s with rk := { s.rk with inBits := s.rk.inBits.setList (fun _ => 0) (0x48000 + (b - 1) * 0x2000 + 0x1FE0) (s.statusBits b) } }

/-- RACK_INPUT_PHASE_END (11 R403): the boards' accesses, the mirror's update as a whole, RACKCYC, and the end of the cycle `dur`
ns after its start. -/
def rackInputPhaseEndOp (as : List BoardAnswers) (dur : Nat) (s : State) : State :=
  if !s.rk.running then s
  else
    let s := s.rk.enabled.foldl (fun s b => s.boardCycle as b) s
    let s := s.rk.enabled.foldl State.boardStatus s
    let d : Word := BitVec.ofNat 32 (min dur 0xFFFFFFFF)
    { s with rk := { s.rk with running := false, cyc := s.rk.cyc + 1, tc := d, tmax := if s.rk.tmax.ult d then d else s.rk.tmax } }.arrive 0x1E

/-! ### Probes and lines (11 R405, R409, R410) -/

/-- The access of an identity probe: one at BADDR + PADDR, or an IDENT exchange (11 R405). -/
def probeAccess (sect : List Word) (b : Nat) : RackAccess :=
  let pers := boardPers sect b
  let base := (boardWord sect b 1).toNat
  if pers = 3 then { board := b, pers := 3, addr := base, write := false, sent := dFrame base 3 [], expect := 4 }
  else { board := b, pers := pers, addr := base + fld (boardWord sect b 4) 15 0, write := false, sent := [], expect := unitBytes pers }

/-- The value that a probe reads, low byte first (notes/assumptions/1116.md): a byte for A, a word for B and C, four bytes for D. -/
def probeValue (sect : List Word) (b : Nat) (answer : Option (List Byte)) : Option Word :=
  let a := probeAccess sect b
  (if a.pers = 3 then answer.bind (dPayload a.addr 3 4) else a.result answer).map (fun bs => wordAt (wordsOfBytes bs) 0)

/-- IDENTITY_PROBE (11 R405, R406): an A board without a mask passes without an access. -/
def identityProbeOp (b : Nat) (answer : Option (List Byte)) (s : State) : State :=
  if !s.rackMaster ∨ boardOn s.rk.sect b = false then s
  else
    let sect := s.rk.sect
    let mask := boardWord sect b 5
    let s := s.modBoard b (fun x => { x with rescan := false, first := false })
    if boardPers sect b = 0 ∧ mask = 0 then (s.modBoard b (fun x => { x with fails := 0 })).setBoard b .ok
    else
      let s := s.onBus [probeAccess sect b]
      match probeValue sect b answer with
      | none => s.setBoard b .missing
      | some v =>
        if (v &&& mask) = (boardWord sect b 6 &&& mask) then (s.modBoard b (fun x => { x with fails := 0 })).setBoard b .ok
        else s.setBoard b .wrongid

/-- RIRQ_ARRIVAL (11 R409): line n, with the levels that the sample reads: RIRQ0-RIRQ7 and RESET, 1 for asserted
(notes/assumptions/1101.md). -/
def rirqArrivalOp (n : Nat) (lines : BitVec 9) (s : State) : State :=
  let s := { s with rk := { s.rk with irql := lines.setWidth 8 ||| BitVec.ofNat 8 (2 ^ n), rstl := lines.getLsbD 8 } }
  if (wordAt s.rk.sect 0).getLsbD n then s.arrive (0x20 + n) else s

/-- RACK_RESET (11 R410): RESET asserted for 1 ms, with RSTIN, is a reset source unless the module drives the line itself
or stands by with a partner that holds the token (notes/assumptions/1101.md). -/
def rackResetOp (s : State) : State :=
  let s := { s with rk := { s.rk with rstl := true } }
  if !(wordAt s.rk.sect 0).getLsbD 31 ∨ s.rk.rreset ∨ (s.pl.role = 2 ∧ s.pl.link ∧ s.pl.sensed) then s
  else s.assertReset .rackReset

/-- RESCAN, RRESET and RRESET_END (11 R405, R410, R412). -/
def rescanOp (s : State) : State := if s.rackMaster then s.probeAll false else s
def rresetOp (ms : Nat) (s : State) : State :=
  if s.rackMaster ∧ ms ≠ 0 then { s with rk := { s.rk with rreset := true, rresetEnd := s.time + ms * 12000000 } } else s
def rresetEndOp (s : State) : State :=
  if s.rk.rreset ∧ s.rk.rresetEnd ≤ s.time then { s with rk := { s.rk with rreset := false, rstl := false } } else s

/-- A move into rk.cmd (11 R412). -/
def rkCmdOp (v : Word) (s : State) : State :=
  match fld v 3 0 with
  | 1 => rescanOp s
  | 2 => rresetOp (fld v 15 8) s
  | _ => s

/-- rk.stat (11 R413). -/
def State.rkStat (s : State) : Word :=
  flagAt 15 s.rackMaster ||| flagAt 14 s.rk.rlost ||| flagAt 13 (s.rk.rstl || s.rk.rreset) |||
  at_ 8 (s.rk.enabled.filter (fun b => (s.rk.board b).st == .ok)).length ||| s.rk.irql.setWidth 32

/-- The reads of the rack bus ports (11 R412). -/
def rkPort (s : State) (m : Master) (a : Nat) : Word :=
  let st := fun b => if boardOn s.rk.sect b then (s.rk.board b).st.code else 0
  match a with
  | 0xA00 => s.rkStat
  | 0xA01 => (List.range 16).foldl (fun w k => w ||| at_ (2 * k) (st (k + 1))) 0
  | 0xA02 => (List.range 4).foldl (fun w k => w ||| at_ (2 * k) (st (k + 17))) 0
  | 0xA03 => s.rk.cyc
  | 0xA04 => s.rk.tc
  | 0xA05 => s.rk.tmax
  | 0xA06 => s.rk.err.setWidth 32
  | _ => s.mport m a

end Sys2Proof.Machine
end

