-- ==== Sys2Proof/Machine/Watchdog.lean ====
section
/-! DEFINITION. The Badger watchdog: window, service, check-in, failure and configuration (14). -/

namespace Sys2Proof.Machine

/-- The count C in microseconds: it stands while the Badger is FAILED and is 0 while it is STOPPED (14 R490, R491). -/
def State.bdCount (s : State) : Nat :=
  match s.bd.st with
  | .stopped => 0
  | .failed => s.bd.stopC
  | _ => (s.time - s.bd.since) / 12000

/-- The count O at which the window opens (14 R492). -/
def Badger.opensAt (b : Badger) : Nat := if b.mode = 1 then 1 else max 1 (b.per * b.cls / 64)

/-- The clock stands at count c of the interval at least: an event at that count has come (notes/assumptions/1401.md). -/
def State.bdReach (s : State) (c : Nat) : State := { s with time := max s.time (s.bd.since + c * 12000) }

/-- An interval starts (14 R491, R497, R500). -/
def State.bdInterval (s : State) : State :=
  let b := s.bd
  let erq := b.req &&& maskOf (fun k =>
    let o := ownerOf b.own k
    o == 8 || (decide (o < 8) && s.lpExists o && decide ((s.lp o).st = .run)))
  { s with bd := { b with st := .closed, since := s.time, ownEff := b.own, erq := erq } }

/-- BD_START (14 R489). -/
def bdStartOp (m : Master) (s : State) : State :=
  s.guarded m 0x81C fun s => if s.bd.st = .stopped then s.bdInterval else s

/-- The token of a question and the next question (14 R494). -/
def bdToken (q : BitVec 16) : BitVec 16 := q.rotateLeft 3 ^^^ (q >>> 5) ^^^ 0x5A3C
def bdNext (q : BitVec 16) : BitVec 16 :=
  let b := (q ^^^ (q >>> 2) ^^^ (q >>> 3) ^^^ (q >>> 5)) &&& 1
  (q >>> 1) ||| (b <<< 15)

/-- A failure (14 R499): bits of `causes` are EARLY, LATE, TOKEN, MISSING, DUP. -/
def State.bdFail (s : State) (causes : BitVec 5) : State :=
  let c := s.bdCount
  let b := s.bd
  let s := { s with bd := { b with st := .failed, stopC := c, lastf := causes, actionDue := true }
                    mram := { s.mram with bdFcnt := satInc s.mram.bdFcnt }
                    pl := { s.pl with badgok := false } }
  (s.arrive 0x14).event 0x0804 7 0x3C
    [at_ 8 (c % 2 ^ 24) ||| causes.setWidth 32, b.chk, at_ 16 b.q.toNat ||| (b.dup &&& 0xFFFF)]

/-- A flag as a number. -/
def Bool.num (b : Bool) : Nat := if b then 1 else 0

/-- The causes of a service with an operand before count P (14 R495, R498). -/
def State.bdCauses (s : State) (v : Word) : BitVec 5 :=
  let b := s.bd
  let c := s.bdCount
  BitVec.ofNat 5 (Bool.num (decide (c < b.opensAt))
    + 4 * Bool.num (decide (v.extractLsb' 0 16 ≠ bdToken b.q)) + 8 * Bool.num (decide (b.erq &&& ~~~b.chk ≠ 0))
    + 16 * Bool.num (decide (b.erq &&& b.dup ≠ 0)))

/-- BD_ANS (14 R495, R496). -/
def bdAnsOp (m : Master) (v : Word) (s : State) : State :=
  s.guarded m 0x801 fun s =>
    if s.bd.mode ≠ 0 ∧ !(s.bd.smask.getLsbD (7 + m.code) && s.bd.smask.getLsbD m.world.bit) then
      s.violation m 0x801 (if s.bd.smask.getLsbD (7 + m.code) then .worlds else .master)
    else if s.bd.st = .stopped ∨ s.bd.st = .failed then s
    else
      let f := s.bdCauses v
      if s.bd.per ≤ s.bdCount then s.bdFail 2
      else if f = 0 then
        { s with bd := { s.bd with q := bdNext s.bd.q, chk := 0, dup := 0, scnt := s.bd.scnt + 1 } }.bdInterval
      else s.bdFail f

/-- BD_CHK (14 R497): bit k of the operand. -/
def bdChkOp (m : Master) (v : Word) (s : State) : State :=
  s.guarded m 0x802 fun s =>
    let k := v.toNat % 32
    let b := s.bd
    if m.target ≠ ownerOf b.ownEff k ∨ m = .pair then s.violation m 0x802 .master
    else if b.st = .stopped ∨ b.st = .failed then s
    else if b.chk.getLsbD k then { s with bd := { b with dup := b.dup ||| at_ k 1 } }
    else { s with bd := { b with chk := b.chk ||| at_ k 1 } }

/-- STATE after a change of P, CLS or the mode (14 R500). -/
def State.bdReopen (s : State) : State :=
  if s.bd.st = .opened ∧ s.bdCount < s.bd.opensAt then { s with bd := { s.bd with st := .closed } } else s

/-- Every owner code of an owner word is a logical processor or the house core. -/
def ownOk (w : Word) : Bool := (List.range 8).all (fun j => decide (fld w (4 * j + 3) (4 * j) ≤ 8))

/-- BD_CONFIG_WRITE (14 R500, R503). -/
def bdConfigWriteOp (m : Master) (a : Nat) (v : Word) (s : State) : State :=
  s.guarded m a fun s =>
    let b := s.bd
    let v := portValue a v
    let set := fun (b' : Badger) =>
      { s with bd := { b' with cfgrej := b'.cfgrej.set (fun _ => false) m.code false } }.bdReopen
    let reject := { s with bd := { b with cfgrej := b.cfgrej.set (fun _ => false) m.code true } }
    if b.st ≠ .stopped ∧ b.st ≠ .opened then reject
    else if a = 0x810 then
      (if v.toNat < 1000 ∨ 10000000 < v.toNat ∨ v.toNat ≤ s.bdCount then reject else set { b with per := v.toNat })
    else if a = 0x811 then (if 48 < v.toNat then reject else set { b with cls := v.toNat })
    else if a = 0x812 then set { b with req := v }
    else if 0x814 ≤ a ∧ a ≤ 0x817 then
      (if ownOk v then set { b with own := b.own.set (a - 0x814) v } else reject)
    else if a = 0x818 then set { b with smask := v &&& 0xFFFFC }
    else if a = 0x819 then set { b with act := v.getLsbD 0 }
    else s

/-- The house core writes the BADGER section to the configuration ports; a period that is not above the count is refused
(14 R500-R502). -/
def State.bdWriteSection (s : State) (ws : List Word) : State :=
  let w0 := wordAt ws 0
  let per := fld (wordAt ws 1) 23 0
  let refused := decide (per ≤ s.bdCount)
  let s := { s with bd := { s.bd with per := if refused then s.bd.per else per, cls := fld w0 5 0, act := w0.getLsbD 30
                                      req := wordAt ws 2, own := (ws.drop 3).take 4, smask := wordAt ws 7
                                      cfgrej := s.bd.cfgrej.set (fun _ => false) (Master.code .house) refused
                                      applied := true, applyDue := false } }
  if s.bd.st = .stopped then (if w0.getLsbD 31 ∧ !Config.hws then s.bdInterval else s) else s.bdReopen

/-- The BADGER section is applied while STATE is STOPPED or OPEN, and otherwise in the first open window (14 R502). -/
def State.bdApply (s : State) (ws : List Word) : State :=
  match s.bd.st with
  | .stopped | .opened => s.bdWriteSection ws
  | .closed => { s with bd := { s.bd with applyDue := true } }
  | .failed => s

/-- BADGER_OPEN (14 R492, R502, R504). -/
def badgerOpenOp (s : State) : State :=
  if s.bd.st = .closed then
    let s := s.bdReach s.bd.opensAt
    let s := ({ s with bd := { s.bd with st := .opened } }).arrive 0x14
    if s.bd.applyDue then s.bdWriteSection s.prog.badger else s
  else s

/-- BADGER_EXPIRY (14 R492, R499). -/
def badgerExpiryOp (s : State) : State :=
  if s.bd.st = .closed ∨ s.bd.st = .opened then (s.bdReach s.bd.per).bdFail 2 else s

/-- The failure action is the reset (14 R499): ACT = 0, or hardware start with no BADGER section applied yet. -/
def State.bdResets (s : State) : Bool := !s.bd.act || (Config.hws && !s.bd.applied)

/-- A read of a Badger port (14 R503, R504). -/
def State.bdPort (s : State) (m : Master) (a : Nat) : Word :=
  let b := s.bd
  let st := match b.st with | .stopped => 0 | .closed => 1 | .opened => 2 | .failed => 3
  if a = 0x800 then b.q.setWidth 32
  else if a = 0x804 then
    at_ 30 st ||| at_ 28 b.mode.toNat ||| flagAt 27 Config.hws ||| flagAt 26 b.act
      ||| flagAt 25 (b.cfgrej.get (fun _ => false) m.code) ||| at_ 16 b.lastf.toNat ||| b.scnt.setWidth 32
  else if a = 0x805 then BitVec.ofNat 32 (s.bdCount % 2 ^ 24)
  else if a = 0x806 then b.chk
  else if a = 0x807 then b.dup
  else if a = 0x808 then b.erq
  else if a = 0x810 then BitVec.ofNat 32 b.per
  else if a = 0x811 then BitVec.ofNat 32 b.cls
  else if a = 0x812 then b.req
  else if 0x814 ≤ a ∧ a ≤ 0x817 then wordAt b.own (a - 0x814)
  else if a = 0x818 then b.smask
  else if a = 0x819 then flagAt 0 b.act
  else if a = 0x81D then s.mram.bdFcnt.setWidth 32
  else 0

end Sys2Proof.Machine
end

