-- ==== Sys2Proof/Machine/Image.lean ====
section
/-! DEFINITION. A program image: its sections, the program read from it, and the load checks (04 R143-R153, R171,
R176; 13 R480; and the content rules of the home chapters). -/

namespace Sys2Proof.Machine

/-! ### The image's bytes (04 R143, R145) -/

/-- A section descriptor. -/
structure Sect where
  ty : Nat
  tg : Nat
  rsv : Nat
  off : Nat
  len : Nat
  addr : Nat
  deriving DecidableEq, Repr

def byteAt (img : List Byte) (o : Nat) : Nat := (img.getD o 0).toNat
def halfAt (img : List Byte) (o : Nat) : Nat := byteAt img o + 256 * byteAt img (o + 1)

/-- The section descriptors of an image. -/
def imgSects (img : List Byte) : List Sect :=
  (List.range (byteAt img 0x0D)).map (fun k =>
    let o := 64 + 16 * k
    { ty := byteAt img o, tg := byteAt img (o + 1), rsv := halfAt img (o + 2), off := (wordAtByte img (o + 4)).toNat
      len := (wordAtByte img (o + 8)).toNat, addr := (wordAtByte img (o + 12)).toNat })

def Sect.bytes (c : Sect) (img : List Byte) : List Byte := (img.drop c.off).take c.len
def Sect.words (c : Sect) (img : List Byte) : List Word := wordsOfBytes (c.bytes img)

/-- The words of the section of a type and target; empty where the image has none. -/
def secWords (img : List Byte) (ty tg : Nat) : List Word :=
  match (imgSects img).find? (fun c => c.ty == ty && c.tg == tg) with
  | some c => c.words img
  | none => []

/-- The offset of the SIG section. -/
def sigOffset (img : List Byte) : Option Nat := ((imgSects img).find? (fun c => c.ty == 0x7F)).map (fun c => c.off)

/-! ### Reading the program -/

/-- Bundles of 24 bytes, low byte first (02 R62). -/
def bundlesOf : List Word → List (BitVec 192)
  | a :: b :: c :: d :: e :: f :: t => (f ++ e ++ d ++ c ++ b ++ a) :: bundlesOf t
  | _ => []

/-- Set entries (04 R150). -/
def setEntriesOf : List Word → List SetEntry
  | a :: b :: t => { cls := fld a 31 28, first := fld a 27 16, count := fld a 15 0, addr := fld b 21 0 } :: setEntriesOf t
  | _ => []

/-- The task descriptor in words 8t to 8t + 7 of a TASKS section (04 R153). -/
def taskDescOf (ws : List Word) (t : Nat) : TaskDesc :=
  let w := fun k => wordAt ws (8 * t + k)
  { en := (w 0).getLsbD 31, trig := fld (w 0) 30 29, prio := fld (w 0) 28 24, arg := fld (w 0) 15 0
    entry := fld (w 1) 17 0, stacktop := w 2, stacklim := w 3, maxrun := (w 4).toNat
    infirst := fld (w 5) 31 16, incnt := fld (w 5) 15 0, outfirst := fld (w 6) 31 16, outcnt := fld (w 6) 15 0
    gap := (w 7).toNat }

/-- Retentive blocks (04 R176). -/
def retBlocksOf : List Word → List RetBlock
  | a :: b :: c :: d :: t => { ident := a, addr := b.toNat, len := c.toNat, owner := fld d 2 0 } :: retBlocksOf t
  | _ => []

/-- A start-up routine (04 R146). -/
def initOf (ws : List Word) : Option InitDesc :=
  match ws with
  | [e, a, b, m] => some { entry := e.toNat, stacktop := a, stacklim := b, maxrun := m.toNat }
  | _ => none

/-- The program that an image holds. -/
def parseImage (img : List Byte) : Prog :=
  let cs := imgSects img
  let words := fun c => Sect.words c img
  let lps := List.range 8
  let tasks := lps.foldl (fun m p =>
    let ws := secWords img 0x04 p
    if ws = [] then m
    else (List.range 32).foldl (fun m t => SMap.set (fun _ => {}) m (32 * p + t) (taskDescOf ws t)) m) ([] : SMap TaskDesc)
  let sets := fun ty => lps.foldl (fun m p => SMap.set (fun _ => []) m p (setEntriesOf (secWords img ty p))) ([] : SMap (List SetEntry))
  { valid := true, minreg := byteAt img 0x0C, modes := wordAtByte img 0x10, progid := wordAtByte img 0x14
    version := wordAtByte img 0x18, build := wordAtByte img 0x1C
    code := (cs.filter (fun c => c.ty == 0x01)).map (fun c => (c.tg, c.addr, bundlesOf (words c)))
    wdata := (cs.filter (fun c => c.ty == 0x02)).map (fun c => (c.addr, words c))
    marker := (cs.filter (fun c => c.ty == 0x03)).map (fun c => (c.addr, words c))
    tasks := tasks, insets := sets 0x05, outsets := sets 0x06
    retain := retBlocksOf (secWords img 0x07 0xFF)
    instances := (List.range 4).foldl (fun m r => SMap.set (fun _ => []) m r ((secWords img 0x08 r).map (fun w => w.toNat))) []
    inits := lps.foldl (fun m p => SMap.set (fun _ => none) m p (initOf (secWords img 0x09 p))) []
    field := secWords img 0x10 0xFF, axes := secWords img 0x11 0xFF, fbus := secWords img 0x12 0xFF
    rack := secWords img 0x13 0xFF, irq := secWords img 0x14 0xFF, badger := secWords img 0x15 0xFF
    sm3 := programSm3 img (sigOffset img) }

/-! ### The field bus section (10 R365-R368, R392) -/

/-- The clock periods of a nominal and of a data bit of a channel descriptor at word k (10 R364, R366). -/
def nominalPeriods (fbus : List Word) (k : Nat) : Nat :=
  let w := wordAt fbus (k + 1)
  (fld w 7 0 + 1) * (1 + (fld w 15 8 + 1) + (fld w 22 16 + 1))
def dataPeriods (fbus : List Word) (k : Nat) : Nat :=
  let w := wordAt fbus (k + 2)
  (fld w 4 0 + 1) * (1 + (fld w 9 5 + 1) + (fld w 13 10 + 1))

/-- A channel's descriptor meets R366 and R368; the rates of one that is not enabled are not checked (notes/assumptions/1009.md). -/
def channelOk (fbus : List Word) (c : Nat) : Bool :=
  let k := 4 * c
  let w := wordAt fbus k
  let n := nominalPeriods fbus k
  let d := dataPeriods fbus k
  (!w.getLsbD 31 || (decide (80 ≤ n ∧ n ≤ 8000) && (!w.getLsbD 30 || decide (16 ≤ d ∧ d ≤ n))))
    && (decide (fld (wordAt fbus (k + 1)) 29 23 ≤ fld (wordAt fbus (k + 1)) 22 16)
      && decide (fld (wordAt fbus (k + 2)) 17 14 ≤ fld (wordAt fbus (k + 2)) 13 10)
      && (!w.getLsbD 29 || w.getLsbD 30))

/-- The station's retransmissions fit its timeout (10 R392), in clock periods of 12.5 ns. -/
def budgetOk (fbus : List Word) (c n : Nat) : Bool :=
  let w := wordAt fbus (4 * c)
  let e := stationEntry fbus c n
  let fds := e.getLsbD 30
  let len := if fds then validFdLen (fld e 22 16 + 1) else fld e 22 16 + 1
  let tn := nominalPeriods fbus (4 * c)
  let td := if w.getLsbD 29 ∧ fds then dataPeriods fbus (4 * c) else tn
  let ta := if fds then 45 * tn + (10 * len + (if len ≤ 16 then 36 else 41)) * td + 31 * tn
            else (55 + 10 * len) * tn + 31 * tn
  let toc := if fld e 26 23 = 0 then 3 else fld e 26 23
  decide ((fld w 25 21 + 1) * ta < toc * fld e 15 0 * 20000)

/-- A configured station meets R367, R368 and R392, its OWNER apart. -/
def stationOk (fbus : List Word) (c n : Nat) : Bool :=
  let e := stationEntry fbus c n
  !e.getLsbD 31 ||
    (decide (fld e 26 23 ≠ 1) && decide (fld e 15 0 ≠ 0) && (e.getLsbD 30 || decide (fld e 22 16 ≤ 7))
      && (!e.getLsbD 30 || (wordAt fbus (4 * c)).getLsbD 30) && decide (fld e 22 16 ≤ 63) && budgetOk fbus c n)

/-- No two enabled extended entries of a channel name one identifier. -/
def extendedOk (fbus : List Word) (c : Nat) : Bool :=
  let on := ((fbus.drop (8 + 64 * c)).take 64).filter (fun w => w.getLsbD 31)
  decide ((on.map (fun w => fld w 28 0)).Nodup)

def fbusOk (fbus : List Word) : Bool :=
  decide (fbus.length = 388) && [0, 1].all (fun c => channelOk fbus c && extendedOk fbus c
    && (List.range 63).all (fun n => stationOk fbus c (n + 1)))

def fbusReserved (fbus : List Word) : Bool :=
  [0, 1].all (fun c =>
    decide (fld (wordAt fbus (4 * c)) 20 0 = 0) && decide (fld (wordAt fbus (4 * c + 1)) 31 30 = 0)
      && decide (fld (wordAt fbus (4 * c + 2)) 31 25 = 0) && decide (wordAt fbus (4 * c + 3) = 0))
    && ((fbus.drop 8).take 128).all (fun w => decide (fld w 30 29 = 0))
    && (List.range 126).all (fun k => decide (wordAt fbus (136 + 2 * k + 1) = 0))

/-- The OWNER of each configured station is an LP that exists and is not the odd LP of a region that starts paired
(10 R368). -/
def stationOwnersOk (fbus : List Word) (modes : Word) : Bool :=
  [0, 1].all (fun c => (List.range 63).all (fun n =>
    let e := stationEntry fbus c (n + 1)
    let o := fld e 29 27
    !e.getLsbD 31 || (regionPresent (o / 2) && (o % 2 == 0 || modes.getLsbD (12 + o / 2)))))

/-! ### The rack section (11 R398-R402, R405) -/

/-- The largest of the offsets that a board's accesses reach, plus 1, in bus address units; 0 for D. -/
def boardSpan (sect : List Word) (b : Nat) : Nat :=
  let mb := if fld (wordAt sect 0) 12 8 = b then (wordAt sect 2).toNat else 0
  let on := decide (fld (wordAt sect 0) 12 8 = b)
  let nb := max (boardNib sect b) (boardNob sect b)
  let nw := max (boardNiw sect b) (boardNow sect b)
  let wofs := fld (boardWord sect b 3) 15 0
  let padr := fld (boardWord sect b 4) 15 0
  match boardPers sect b with
  | 0 => max (max nb (if nw = 0 then 0 else wofs + 4 * nw)) (max (padr + 1) (if on then mb + 128 else 0))
  | 1 => max (max ((nb + 1) / 2) (if nw = 0 then 0 else wofs + 2 * nw)) (max (padr + 1) (if on then mb + 64 else 0))
  | 2 => max (max (4 * ((nb + 3) / 4)) (if nw = 0 then 0 else wofs + 4 * nw)) (max (padr + 4) (if on then mb + 128 else 0))
  | _ => 0

/-- An enabled board entry meets R400, and its addresses lie in its personality's range (R401). -/
def boardOk (sect : List Word) (b : Nat) : Bool :=
  let w0 := boardWord sect b 0
  let base := (boardWord sect b 1).toNat
  let tp1 := fld w0 7 0
  let tp2 := fld w0 15 8
  let pers := boardPers sect b
  !boardOn sect b ||
    (decide (boardSafe sect b ≠ 3) && decide (boardNib sect b ≤ 1020) && decide (boardNob sect b ≤ 1020)
      && decide (boardNiw sect b ≤ 128) && decide (boardNow sect b ≤ 128)
      && (pers == 1 || decide (tp2 = 0))
      && (match pers with
          | 0 => decide (1 ≤ tp1 ∧ tp1 ≤ 64) && decide (base + boardSpan sect b ≤ 0x10000)
          | 1 => decide (1 ≤ tp1 ∧ tp1 ≤ 20) && decide (1 ≤ tp2 ∧ tp2 ≤ 10) && decide (boardNob sect b % 2 = 0)
                  && decide (base + boardSpan sect b ≤ 0x1000000)
          | 2 => decide (tp1 ≤ 15) && decide (base % 4 = 0) && decide (boardNob sect b % 4 = 0)
                  && decide (base + boardSpan sect b ≤ 0x100000000)
          | _ => decide (tp1 = 0) && decide (1 ≤ base ∧ base ≤ 31) && decide (fld (boardWord sect b 3) 15 0 = 0)
                  && decide (fld (boardWord sect b 4) 15 0 = 0) : Bool))

/-- The cost in ns of n words on personality C, as bursts of at most 64 (R398). -/
def burstCost (wait n : Nat) : Nat := (n + (n + 63) / 64 * (6 + wait)) * 30

/-- The cost in ns of one direction of a C board: its bytes and its word channels, one run where they join (R402). -/
def burstRuns (sect : List Word) (b bytes words : Nat) : Nat :=
  let wait := fld (boardWord sect b 0) 7 0
  let n := (bytes + 3) / 4
  if fld (boardWord sect b 3) 15 0 = 4 * n then burstCost wait (n + words) else burstCost wait n + burstCost wait words

/-- The cost in ns of a board in one cycle (R398, R402, R403). -/
def boardCost (sect : List Word) (b : Nat) : Nat :=
  let w0 := boardWord sect b 0
  let nib := boardNib sect b
  let nob := boardNob sect b
  let nw := boardNiw sect b + boardNow sect b
  match boardPers sect b with
  | 0 => (nib + nob + 4 * nw) * (fld w0 7 0 * 1000 + 1000)
  | 1 => ((nib + 1) / 2 + nob / 2 + 2 * nw) * (fld w0 7 0 * 200 + fld w0 15 8 * 1000)
  | 2 => burstRuns sect b nib (boardNiw sect b) + burstRuns sect b nob (boardNow sect b)
  | _ => (12 + nib + 4 * boardNiw sect b) * 2500 + 10000 + ((12 + nob + 4 * boardNow sect b) * 2500 + 10000)

/-- The cost in ns of an identity probe (R405). -/
def probeCost (sect : List Word) (b : Nat) : Nat :=
  let w0 := boardWord sect b 0
  match boardPers sect b with
  | 0 => if boardWord sect b 5 = 0 then 0 else fld w0 7 0 * 1000 + 1000
  | 1 => fld w0 7 0 * 200 + fld w0 15 8 * 1000
  | 2 => burstCost (fld w0 7 0) 1
  | _ => 16 * 2500 + 10000

/-- The cost in ns of reading and writing the mailbox's 64 bytes (R401). -/
def mailboxCost (sect : List Word) : Nat :=
  let b := fld (wordAt sect 0) 12 8
  let w0 := boardWord sect b 0
  if b = 0 then 0
  else match boardPers sect b with
    | 0 => 128 * (fld w0 7 0 * 1000 + 1000)
    | 1 => 64 * (fld w0 7 0 * 200 + fld w0 15 8 * 1000)
    | 2 => 2 * burstCost (fld w0 7 0) 16
    | _ => 0

/-- The RACK section meets R399-R401. -/
def rackOk (sect : List Word) : Bool :=
  let bs := (List.range 21).filter (boardOn sect)
  let par := bs.filter (fun b => boardPers sect b ≠ 3)
  let ser := bs.filter (fun b => boardPers sect b = 3)
  let sum := fun (l : List Nat) => l.foldl (fun n b => n + boardCost sect b) 0
  let tc := 4000 + max (sum par + mailboxCost sect) (sum ser)
  let tp := bs.foldl (fun n b => max n (probeCost sect b)) 0
  let mbox := fld (wordAt sect 0) 12 8
  decide (sect.length = 168) && decide (1 ≤ fld (wordAt sect 1) 10 0) && (List.range 21).all (boardOk sect)
    && (mbox == 0 || (boardOn sect mbox && decide (boardPers sect mbox ≠ 3)))
    && decide ((ser.map (fun b => boardWord sect b 1)).Nodup)
    && decide (tc + tp ≤ fld (wordAt sect 1) 10 0 * 31250)

def rackReserved (sect : List Word) : Bool :=
  decide (fld (wordAt sect 0) 30 13 = 0) && decide (fld (wordAt sect 1) 31 11 = 0)
    && ((sect.drop 3).take 5).all (fun w => w == 0)
    && (List.range 20).all (fun b => decide (fld (boardWord sect (b + 1) 0) 25 16 = 0) && decide (boardWord sect (b + 1) 7 = 0))

/-! ### Axes, interrupts and the Badger (05 R191, R192, R213; 08 R306; 14 R501) -/

/-- The AXES section meets R191, R192 and R213, and a modulo length has at least 16 counts (R187). -/
def axesOk (ws : List Word) : Bool :=
  let w := fun x k => wordAt ws (2 + 8 * x + k)
  let n := (wordAt ws 0).toNat
  decide (n ≤ 4096) && decide (ws.length = 66 + 5 * n) &&
  (List.range 8).all (fun x =>
    let enc := decide (1 ≤ x ∧ x ≤ 4)
    let vir := decide (6 ≤ x)
    (x == 0 || x == 5 || long (w x 1) (w x 2) == 0 || decide (0x100000 ≤ (long (w x 1) (w x 2)).toNat))
      && (enc || (!(w x 0).getLsbD 30 && !(w x 0).getLsbD 29)) && (vir || (!(w x 0).getLsbD 28 && !(w x 0).getLsbD 24))
      && (x != 5 || (w x 1 == 0 && w x 2 == 1))
      && (if vir then decide (100 ≤ (w x 3).toNat ∧ (w x 3).toNat ≤ 100000) || !(w x 0).getLsbD 31 else w x 3 == 0)
      && (vir || decide (fld (w x 4) 28 0 = 0))
      && (if x = 5 then decide (-32768 ≤ (w x 5).toInt ∧ (w x 5).toInt ≤ 32767) else w x 5 == 0)
      && (vir || w x 6 == 0))
  && (List.range n).all (fun k =>
    let e := fun j => wordAt ws (66 + 5 * k + j)
    decide (entryCause ws (e 1 &&& 0xFFC0FFFF) (e 2) (long (e 3) (e 4)) (fun _ => true) = 0))

def axesReserved (ws : List Word) : Bool :=
  decide (fld (wordAt ws 1) 31 16 = 0) &&
  (List.range 8).all (fun x =>
    let w := fun k => wordAt ws (2 + 8 * x + k)
    decide (fld (w 0) 27 25 = 0) && decide (fld (w 0) 23 0 = 0) && decide (fld (w 4) 31 29 = 0) && w 7 == 0)
  && (List.range (wordAt ws 0).toNat).all (fun k =>
    decide (fld (wordAt ws (66 + 5 * k)) 31 12 = 0) && decide (fld (wordAt ws (67 + 5 * k)) 21 16 = 0))

/-- The IRQ section's entries: source and configuration word (08 R306). -/
def irqEntries (ws : List Word) : List (Nat × Word) :=
  (List.range (wordAt ws 0).toNat).map (fun k => (fld (wordAt ws (2 + 2 * k)) 7 0, wordAt ws (3 + 2 * k)))

/-- The IRQ section meets R306, absent logical processors and the tasks apart. -/
def irqOk (ws : List Word) : Bool :=
  let es := irqEntries ws
  ws == [] || (decide ((wordAt ws 0).toNat ≤ 256) && decide (ws.length = 2 + 2 * (wordAt ws 0).toNat)
    && decide ((es.map (fun e => e.1)).Nodup)
    && es.all (fun e => !reservedSource e.1 && e.1 != 0x2E && e.1 != 0x2F && decide (fld e.2 27 24 < 8)
        && (e.2.getLsbD 23 || decide (fld e.2 31 28 = 0) || decide (fld e.2 17 0 ≤ lastBundle))))

def irqReserved (ws : List Word) : Bool :=
  (List.range (wordAt ws 0).toNat).all (fun k => decide (fld (wordAt ws (2 + 2 * k)) 31 8 = 0))
    && (irqEntries ws).all (fun e => decide (fld e.2 22 18 = 0))

/-- The BADGER section meets R501, absent logical processors apart. -/
def badgerOk (ws : List Word) (modes : Word) : Bool :=
  ws == [] || (decide (ws.length = 8) && decide (fld (wordAt ws 0) 5 0 ≤ 48)
    && decide (1000 ≤ fld (wordAt ws 1) 23 0 ∧ fld (wordAt ws 1) 23 0 ≤ 10000000)
    && (List.range 32).all (fun k => !(wordAt ws 2).getLsbD k || decide (ownerOf (ws.drop 3) k ≤ 8))
    && decide (wordAt ws 7 &&& ~~~(0x0001FF9C : Word) = 0)
    && (fld modes 7 6 == 0 || decide (wordAt ws 7 &&& 0x000FFF80 ≠ 0)))

def badgerReserved (ws : List Word) : Bool := decide (fld (wordAt ws 0) 29 6 = 0) && decide (fld (wordAt ws 1) 31 24 = 0)

/-! ### Stacks, sets, retentive blocks (02 R91; 04 R148-R153, R176) -/

/-- A stack within R91 for region r: a task starts with cu.sp and cu.sbase at STACKTOP, and cu.sp lies in the slice. -/
def stackOk (r : Nat) (top lim : Word) : Bool :=
  decide (lim.toNat ≤ top.toNat ∧ sliceBase r ≤ lim.toNat ∧ lim.toNat < sliceEnd r ∧ top.toNat < sliceEnd r)

/-- Check 6 of R171 on an entry of the input or output set of an LP in region r. -/
def setEntryOk (input : Bool) (r : Nat) (e : SetEntry) : Bool :=
  let inR := fun lo hi => decide (lo ≤ e.addr ∧ e.addr + e.count ≤ hi + 1)
  let word := fun n => decide (e.first + e.count ≤ n) && decide (sliceBase r ≤ e.addr ∧ e.addr + e.size ≤ sliceEnd r)
  match e.cls, input with
  | 0x1, true => inR 0x40000 0x4001F
  | 0x1, false => inR 0x80000 0x8000F
  | 0x2, true => inR 0x40020 0x400FF
  | 0x3, true => inR 0x48000 0x6FFFF
  | 0x3, false => inR 0x88000 0xAFFFF
  | 0x8, true => word 24
  | 0x9, true => word 64
  | 0xA, true => word 2112
  | 0xB, true => word 2112
  | 0xA, false => word 3
  | 0xB, false => word 3
  | 0xC, _ => word 2560
  | 0xD, true => word 72
  | _, _ => false

/-- Two ranges meet. -/
def meets (a n b m : Nat) : Bool := decide (a < b + m ∧ b < a + n)

/-- Two entries of input sets, or of output sets, of two LPs name one bit, one destination word or one sink. -/
def entriesClash (input : Bool) (x y : SetEntry) : Bool :=
  if bitClass x.cls ∧ bitClass y.cls then meets x.addr x.count y.addr y.count
  else if bitClass x.cls ∨ bitClass y.cls then false
  else if input then meets x.addr x.size y.addr y.size
  else x.cls == y.cls && meets x.first x.count y.first y.count

/-- Check 7 of R171: one owner for each bit, sink and destination word, and one for a whole FIELD group. -/
def ownersOk (g : Prog) : Bool :=
  (List.range 8).all (fun p => (List.range 8).all (fun q => decide (q ≤ p) ||
    ((g.inset p).all (fun x => (g.inset q).all (fun y => !entriesClash true x y))
      && (g.outset p).all (fun x => (g.outset q).all (fun y => !entriesClash false x y)))))
  && (List.range 16).all (fun n => g.ownerOut (0x80000 + n) == g.ownerOut (0x80000 + groupLeader (wordAt g.field 4) n))

/-- Check 8 of R171 (R176). -/
def retainOk (bs : List RetBlock) : Bool :=
  bs.all (fun b => decide (1 ≤ b.len) && decide (sliceBase (b.owner / 2) ≤ b.addr ∧ b.addr + b.len ≤ sliceEnd (b.owner / 2)))
    && decide (bs.Pairwise (fun x y => meets x.addr x.len y.addr y.len = false))
    && decide (bs.foldl (fun n b => n + b.len) 0 ≤ 262144)

/-! ### The checks of R171 -/

def lpSection (ty : Nat) : Bool := ty == 4 || ty == 5 || ty == 6 || ty == 9
def regionSection (ty : Nat) : Bool := ty == 1 || ty == 8
def moduleSection (ty : Nat) : Bool :=
  ty == 2 || ty == 3 || ty == 7 || decide (0x10 ≤ ty ∧ ty ≤ 0x15) || ty == 0x7F

/-- A section's place, type, target, address and length (R145, R146). -/
def sectOk (img : List Byte) (n : Nat) (c : Sect) : Bool :=
  decide (64 + 16 * n ≤ c.off ∧ c.off + c.len ≤ img.length)
    && ((lpSection c.ty && decide (c.tg < 8)) || (regionSection c.ty && decide (c.tg < 4)) || (moduleSection c.ty && c.tg == 0xFF))
    && (c.ty == 1 || c.ty == 2 || c.ty == 3 || c.addr == 0)
    && (match c.ty with
        | 0x01 => decide (c.len % 24 = 0)
        | 0x02 => decide (c.len % 4 = 0 ∧ 0x200000 ≤ c.addr ∧ c.addr + c.len / 4 ≤ 0x3FFFFF)
        | 0x03 => decide (c.len % 4 = 0 ∧ 0x100000 ≤ c.addr ∧ c.addr + 8 * c.len ≤ 0x200000)
        | 0x04 => c.len == 1024
        | 0x05 => decide (c.len % 8 = 0)
        | 0x06 => decide (c.len % 8 = 0)
        | 0x07 => decide (c.len % 16 = 0)
        | 0x08 => decide (c.len % 4 = 0) && (c.words img).all (fun w =>
            decide (w.toNat % 8 = 0) && inSlice c.tg w.toNat && inSlice c.tg (w.toNat + 7))
        | 0x09 => c.len == 16
        | 0x7F => c.len == 76 && c.off + c.len == img.length
        | _ => decide (c.len % 4 = 0) : Bool)

/-- Set entries of every LP's input and output section. -/
def allEntries (img : List Byte) : List (Bool × Nat × SetEntry) :=
  (List.range 8).flatMap (fun p =>
    (setEntriesOf (secWords img 0x05 p)).map (fun e => (true, p, e)) ++ (setEntriesOf (secWords img 0x06 p)).map (fun e => (false, p, e)))

/-- Check 1. -/
def imgCheck1 (img : List Byte) : Bool :=
  decide (64 ≤ img.length ∧ img.length ≤ 25165824) && wordAtByte img 0 == 0x4B4F4C50 && halfAt img 4 == 1
    && halfAt img 6 == 64 && (wordAtByte img 8).toNat == img.length

/-- An enabled task's sets lie in its LP's sections, and ARG and GAP suit its trigger (04 R153). -/
def TaskDesc.setsOk (d : TaskDesc) (ins outs : Nat) : Bool :=
  decide (d.infirst + d.incnt ≤ ins ∨ d.incnt = 0) && decide (d.outfirst + d.outcnt ≤ outs ∨ d.outcnt = 0)
def TaskDesc.argOk (d : TaskDesc) : Bool :=
  match d.trig with
  | 0 => decide (d.arg = 0)
  | 1 => decide (d.arg ≤ 4095) && decide (d.gap = 0)
  | 2 => decide (d.arg ≤ 255) && decide (d.gap = 0)
  | _ => true

/-- Check 2; of a task descriptor with EN = 0 nothing is looked at here (check 5). -/
def imgCheck2 (img : List Byte) (g : Prog) : Bool :=
  let cs := imgSects img
  decide (1 ≤ cs.length ∧ cs.length ≤ 64) && cs.all (sectOk img cs.length)
    && decide (cs.Pairwise (fun x y => meets x.off x.len y.off y.len = false))
    && decide ((cs.map (fun c => (c.ty, c.tg))).Nodup)
    && [0x10, 0x11, 0x12].all (fun t => cs.any (fun c => c.ty == t))
    && (allEntries img).all (fun e => decide (1 ≤ e.2.2.count) && (!bitClass e.2.2.cls || e.2.2.first == 0))
    && (List.range 8).all (fun p => (List.range 32).all (fun t =>
        let d := g.task p t
        !d.en || (d.setsOk (g.inset p).length (g.outset p).length && d.argOk)))
    && fieldSectionOk g.field (wordAt g.axes 1) && axesOk g.axes && fbusOk g.fbus
    && (g.rack == [] || rackOk g.rack) && irqOk g.irq && badgerOk g.badger g.modes

/-- Check 3. -/
def imgCheck3 (img : List Byte) (g : Prog) : Bool :=
  decide (g.minreg ≤ regionCount)
    && (imgSects img).all (fun c => (!lpSection c.ty || regionPresent (c.tg / 2)) && (!regionSection c.ty || regionPresent c.tg)
        && (c.ty != 2 || decide (c.len = 0) || (place c.addr != .absent && place (c.addr + c.len / 4 - 1) != .absent)))
    && (allEntries img).all (fun e => bitClass e.2.2.cls || place e.2.2.addr != .absent)
    && (irqEntries g.irq).all (fun e => decide (8 ≤ fld e.2 27 24) || regionPresent (fld e.2 27 24 / 2))
    && (List.range 32).all (fun k => !(wordAt g.badger 2).getLsbD k || decide (8 ≤ ownerOf (g.badger.drop 3) k)
        || regionPresent (ownerOf (g.badger.drop 3) k / 2))
    && g.retain.all (fun b => regionPresent (b.owner / 2))
    && stationOwnersOk g.fbus g.modes

/-- Check 4. -/
def imgCheck4 (g : Prog) : Bool := g.code.all (fun c => decide (c.2.2 = [] ∨ c.2.1 + c.2.2.length ≤ lastBundle + 1))

/-- Check 5. -/
def imgCheck5 (g : Prog) : Bool :=
  (List.range 8).all (fun p =>
    (List.range 32).all (fun t =>
      let d := g.task p t
      decide (d.trig ≠ 3) && (!d.en ||
        (decide (d.entry ≤ lastBundle) && stackOk (p / 2) d.stacktop d.stacklim
          && (d.trig != 2 || (irqEntries g.irq).any (fun e => e.1 == d.arg && e.2.getLsbD 23 && fld e.2 27 24 == p)))))
    && (match g.init p with
        | some i => decide (i.entry ≤ lastBundle) && stackOk (p / 2) i.stacktop i.stacklim
        | none => true : Bool))

/-- Check 9. -/
def imgCheck9 (img : List Byte) (g : Prog) : Bool :=
  fld g.modes 7 6 != 3 && fld g.modes 31 16 == 0 && fld g.modes 3 1 == 0 && halfAt img 0x0E == 0
    && ((img.drop 0x20).take 0x20).all (fun b => b == 0) && (imgSects img).all (fun c => c.rsv == 0)
    && (List.range 8).all (fun p =>
        let ws := secWords img 0x04 p
        (List.range 32).all (fun t => fld (wordAt ws (8 * t)) 23 16 == 0 && fld (wordAt ws (8 * t + 1)) 31 18 == 0
          && fld (wordAt ws (8 * t + 2)) 31 22 == 0 && fld (wordAt ws (8 * t + 3)) 31 22 == 0)
        && [0x05, 0x06].all (fun ty => (List.range ((secWords img ty p).length / 2)).all (fun k =>
            fld (wordAt (secWords img ty p) (2 * k + 1)) 31 22 == 0)))
    && (List.range g.retain.length).all (fun k => fld (wordAt (secWords img 0x07 0xFF) (4 * k + 3)) 31 3 == 0)
    && fieldReserved g.field && axesReserved g.axes && fbusReserved g.fbus && rackReserved g.rack && irqReserved g.irq
    && badgerReserved g.badger && fld (wordAt (secWords img 0x7F 0xFF) 0) 31 8 == 0

/-- The SIG section is valid (13 R480). -/
def State.sigOk (s : State) (img : List Byte) : Bool :=
  match sigOffset img with
  | none => false
  | some o =>
    let x := s.slot (byteAt img o)
    (byteAt img o == 6 || byteAt img o == 7) && x.occ && (img.drop (o + 4)).take 8 == (Config.sm3 x.key).take 8
      && Config.sm2Verify x.key (sm3Z x.key (img.take o)) ((img.drop (o + 12)).take 64)

/-- Check 10 (13 R476, R480). -/
def State.imgCheck10 (s : State) (img : List Byte) : Bool :=
  match sigOffset img with
  | none => !(wordAt s.ks.policy 1).getLsbD 0
  | some _ => s.sigOk img

/-- The lowest-numbered check of R171 that an image fails; 0 where it fails none (notes/assumptions/404.md). -/
def State.imageCause (s : State) (img : List Byte) : Nat :=
  let g := parseImage img
  if !imgCheck1 img then 1
  else if !imgCheck2 img g then 2
  else if !imgCheck3 img g then 3
  else if !imgCheck4 g then 4
  else if !imgCheck5 g then 5
  else if !(allEntries img).all (fun e => setEntryOk e.1 (e.2.1 / 2) e.2.2) then 6
  else if !ownersOk g then 7
  else if !retainOk g.retain then 8
  else if !imgCheck9 img g then 9
  else if !s.imgCheck10 img then 10
  else 0

end Sys2Proof.Machine
end

