-- ==== Sys2Proof/Machine/SettDie.lean ====
section
/-! DEFINITION. The Sett metrology partition and its message port (12). -/

namespace Sys2Proof.Machine

/-! ### Parameters (12 R444) -/

/-- The range of a parameter; none for an index that names none. PHMAX depends on PHMIN. -/
def paramRange (phmin : Nat) (i : Nat) : Option (Nat × Nat) :=
  if i = 0 then some (0, 4)
  else if 0x10 ≤ i ∧ i < 0x50 then
    match i % 16 with
    | 0 => some (0, 1) | 1 => some (1000, 4000000000) | 2 => some (1, 2000000) | 3 => some (100, 10000) | _ => none
  else if 0x50 ≤ i ∧ i < 0x70 then
    match i % 16 with
    | 0 => some (0, 1) | 1 => some (1, 255) | 2 => some (1, 254) | 3 => some (phmin + 1, 255) | 4 => some (1, 65535) | _ => none
  else none

/-- The default of a parameter. -/
def paramDefault (i : Nat) : Nat :=
  if 0x10 ≤ i ∧ i < 0x50 then (match i % 16 with | 1 => 1000 | 2 => 2000000 | 3 => 1000 | _ => 0)
  else if 0x50 ≤ i ∧ i < 0x70 then (match i % 16 with | 1 => 1 | 2 => 32 | 3 => 96 | 4 => 100 | _ => 0)
  else 0

def Sett.param (x : Sett) (i : Nat) : Nat := x.params.get paramDefault i
def Sett.cen (x : Sett) (m : Nat) : Bool := x.param (0x10 + 0x10 * m) == 1
def Sett.kf (x : Sett) (m : Nat) : Nat := x.param (0x11 + 0x10 * m)
def Sett.dual (x : Sett) (q : Nat) : Bool := x.param (0x50 + 0x10 * q) == 1
/-- Channel m is present: the second channel of a dual pair is absent (12 R433). -/
def Sett.present (x : Sett) (m : Nat) : Bool := !(x.dual (m / 2) && m % 2 == 1)
def Sett.chan (x : Sett) (m : Nat) : SettCh := x.chans.get (fun _ => {}) m
def Sett.modChan (x : Sett) (m : Nat) (f : SettCh → SettCh) : Sett := { x with chans := x.chans.set (fun _ => {}) m (f (x.chan m)) }
/-- Sett meters in METER and SERVICE (12 R441). -/
def Sett.meters (x : Sett) : Bool := x.on && (x.st == .meter || x.st == .service)
/-- Channel m counts: enabled, present, metering (12 R444). -/
def Sett.counts (x : Sett) (m : Nat) : Bool := x.meters && x.cen m && x.present m

def State.modSett (s : State) (f : Sett → Sett) : State := { s with sett := f s.sett }

/-! ### Counting (12 R434-R437) -/

/-- The largest value of a 64-bit total. -/
def totalMax : Nat := 2 ^ 64 - 1

/-- add(1) (12 R436). -/
def SettCh.add (c : SettCh) (kf : Nat) : SettCh :=
  let n := 1000000 + c.remn
  let q := n / kf
  let atot := if c.fidalm then c.atot + q else c.atot
  let btot := if c.batch then c.btot + q else c.btot
  { c with gtot := if c.gtot < totalMax then c.gtot + 1 else c.gtot, remn := n % kf
           qtot := min (c.qtot + q) totalMax, atot := min atot totalMax, btot := min btot totalMax
           tmax := c.tmax || decide (c.gtot ≥ totalMax) || decide (c.qtot + q > totalMax)
           gateQ := c.gateQ + (min (c.qtot + q) totalMax - c.qtot), gateN := c.gateN + 1 }

/-- SINGLE_PULSE (12 R434). -/
def singlePulseOp (m : Nat) (s : State) : State :=
  if s.sett.counts m ∧ !s.sett.dual (m / 2) then s.modSett (fun x => x.modChan m (fun c => c.add (x.kf m))) else s

/-- error(kind, n) (12 R435). -/
def SettCh.error (c : SettCh) (phase : Bool) (n : Nat) : SettCh :=
  { c with errp := min (c.errp + n) (2 ^ 32 - 1), fidalm := true, good := 0, errSince := true, pherr := phase, cnterr := !phase }

/-- The check after every edge (12 R435). -/
def SettCh.edgeCheck (c : SettCh) (dlim : Nat) : SettCh :=
  let d := ((c.ca : Int) - (c.cb : Int)).natAbs
  if d > dlim then { c.error false d with cb := c.ca } else c

/-- A rising edge of A (12 R435). -/
def SettCh.edgeA (c : SettCh) (b : Bool) (ta kf ngood : Nat) : SettCh :=
  if b then { c with rtot := min (c.rtot + 1) totalMax, revf := true, revNow := true }
  else
    let per := match c.taPrev with
      | some t => some (ta - t)
      | none => c.per
    let c := { c with per := per, taPrev := some ta, ca := c.ca + 1 }.add kf
    if c.errSince then { c with errSince := false }
    else { c with good := c.good + 1, fidalm := c.fidalm && decide (c.good + 1 < ngood) }

/-- A rising edge of B while A = 1 (12 R435; notes/assumptions/1204.md). -/
def SettCh.edgeB (c : SettCh) (tb phmin phmax : Nat) : SettCh :=
  let c := { c with cb := c.cb + 1 }
  match c.per, c.taPrev with
  | some per, some ta =>
    let ph := (tb - ta) * 256 / per
    if ph < phmin ∨ ph > phmax then c.error true 1 else c
  | _, _ => c

/-- DUAL_A_EDGE: a rising edge of A of pair q at instant t, with B at level `b`. -/
def dualAEdgeOp (q : Nat) (b : Bool) (t : Nat) (s : State) : State :=
  let x := s.sett
  if x.dual q ∧ x.counts (2 * q) then
    s.modSett (fun x => x.modChan (2 * q) (fun c =>
      (c.edgeA b t (x.kf (2 * q)) (x.param (0x54 + 0x10 * q))).edgeCheck (x.param (0x51 + 0x10 * q))))
  else s

/-- DUAL_B_EDGE: a rising edge of B of pair q at instant t, with A at level `a`. -/
def dualBEdgeOp (q : Nat) (a : Bool) (t : Nat) (s : State) : State :=
  let x := s.sett
  if x.dual q ∧ x.counts (2 * q) ∧ a then
    s.modSett (fun x => x.modChan (2 * q) (fun c =>
      (c.edgeB t (x.param (0x52 + 0x10 * q)) (x.param (0x53 + 0x10 * q))).edgeCheck (x.param (0x51 + 0x10 * q))))
  else s

/-- RATE_GATE_END (12 R434, R437; notes/assumptions/1202.md). -/
def rateGateEndOp (m : Nat) (s : State) : State :=
  if !s.sett.meters then s
  else s.modSett (fun x =>
    let g := x.param (0x13 + 0x10 * m)
    x.modChan m (fun c =>
      { c with frate := min (c.gateQ * 1000 / g) (2 ^ 32 - 1), revf := c.revNow, revNow := false
               ovrate := decide (c.gateN * 1000 > x.param (0x12 + 0x10 * m) * g), gateQ := 0, gateN := 0 }))

/-! ### Storage, supply loss, reset (12 R439-R441, R451) -/

/-- What a slot holds of a channel (12 R439; notes/assumptions/1203.md). -/
def SettCh.stored (c : SettCh) : SettCh :=
  { gtot := c.gtot, qtot := c.qtot, atot := c.atot, rtot := c.rtot, btot := c.btot, blast := c.blast, remn := c.remn
    batch := c.batch, bnum := c.bnum, bcnt := c.bcnt, errp := c.errp, tmax := c.tmax }

def Sett.snapshot (x : Sett) : SMap SettCh :=
  (List.range 4).foldl (fun m k => m.set (fun _ => {}) k (x.chan k).stored) []

/-- The Sett die's own timebase, in ms: the Sett cycles it has counted (12 R432, R448). -/
def Sett.clock (x : Sett) : Nat := x.ssec.toNat * 1000 + x.ms

/-- The ring of 64 takes a slot if the state has changed (12 R439); newest first. -/
def Sett.saveSlot (x : Sett) : Sett :=
  if x.saved.head? = some x.snapshot then x else { x with saved := (x.snapshot :: x.saved).take 64, savedAt := x.clock }
/-- NV_SLOT_WRITE: at most one slot every 100 ms (12 R439). -/
def nvSlotWriteOp (s : State) : State :=
  if s.sett.on ∧ s.sett.savedAt + 100 ≤ s.sett.clock then s.modSett Sett.saveSlot else s

/-- SETT_SUPPLY_LOSS: counting stops, a final slot is written, Sett halts. -/
def settSupplyLossOp (s : State) : State := if s.sett.on then s.modSett (fun x => { x.saveSlot with on := false, verify := none }) else s

/-- LINK of an audit entry (12 R446). -/
def auditLink (body : List Word) (prev : Option (List Word)) : Word :=
  let bytes := bytesOfWords body ++ (match prev with | some e => bytesOfWord (wordAt e 7) | none => [])
  wordAt (wordsOfBytes ((Config.sm3 bytes).take 4)) 0

/-- An audit entry is written, if there is room. -/
def Sett.writeAudit (x : Sett) (kind pidx : Nat) (old new : Word) : Sett :=
  if 4096 ≤ x.audit.length then x
  else
    let body := [at_ 20 x.audit.length ||| at_ 8 kind ||| at_ 0 pidx, x.mec, old, new, x.ssec, loWord x.htime, hiWord x.htime]
    { x with audit := x.audit ++ [body ++ [auditLink body x.audit.getLast?]] }

/-- The first 64 bits of SM3 over the Sett firmware image (12 R451), most significant first. -/
def checkCode : BitVec 64 :=
  BitVec.ofNat 64 (((Config.sm3 Config.settFirmware).take 8).foldl (fun n b => n * 256 + b.toNat) 0)

/-- The state that a verified firmware enters (12 R441). -/
def settRunState (sealed : Bool) : SettSt := if sealed then .service else .meter

/-- SETT_RESET (12 R440, R441): the latest complete slot, or the one before it with NVERR, is restored. -/
def settResetOp (slotOk fwOk : Bool) (s : State) : State :=
  let x := s.sett
  let slot := if slotOk then x.saved.head? else x.saved.tail.head?
  let y : Sett := { st := if fwOk then settRunState x.sealed else .fault, on := true, sealed := x.sealed, params := x.params
                    chans := slot.getD [], saved := x.saved, mec := x.mec, chk := checkCode, fver := Config.settVersion
                    audit := x.audit, ssec := x.ssec, ms := x.ms, slots := x.slots, savedAt := x.savedAt, nverr := x.nverr || !slotOk, fwerr := !fwOk, epoch := x.epoch + 1 }
  { s with sett := if slotOk then y else y.writeAudit 0x02 0 0 0 }

/-- SEAL_CHANGE (12 R441, R442). -/
def sealChangeOp (closed : Bool) (s : State) : State :=
  s.modSett (fun x => { x with sealed := closed, st := if x.st = .meter ∨ x.st = .service then settRunState closed else x.st })

/-! ### Status and totals (12 R448, R449) -/

def SettSt.code : SettSt → Nat
  | .boot => 0 | .meter => 1 | .service => 2 | .fault => 3

/-- Mirror word 0 (12 R448). -/
def Sett.status0 (x : Sett) : Word :=
  at_ 28 x.st.code ||| flagAt 27 x.sealed ||| flagAt 26 (decide (4096 ≤ x.audit.length)) ||| flagAt 25 x.nverr ||| flagAt 24 x.fwerr

/-- SETT_STATUS (12 R448). -/
def Sett.statusWords (x : Sett) : List Word :=
  [x.status0, x.mec, hiWord x.chk, loWord x.chk, at_ 16 x.fver.toNat ||| at_ 0 x.audit.length, x.ssec, x.tseq, 0]

/-- A 64-bit total as two words. -/
def totalWords (n : Nat) : List Word := let v := BitVec.ofNat 64 n; [loWord v, hiWord v]

/-- The block of channel m (12 R433, R449): an absent channel reads 0. -/
def Sett.chanWords (x : Sett) (m : Nat) : List Word :=
  let c := x.chan m
  if !x.present m then List.replicate 16 0
  else totalWords c.gtot ++ totalWords c.qtot ++ totalWords c.atot ++ totalWords c.rtot ++ totalWords c.btot ++ totalWords c.blast ++
    [BitVec.ofNat 32 c.frate, BitVec.ofNat 32 c.bcnt, BitVec.ofNat 32 c.errp,
     flagAt 31 (x.cen m) ||| flagAt 30 (x.dual (m / 2)) ||| flagAt 29 c.batch ||| flagAt 28 c.fidalm ||| flagAt 27 c.pherr |||
       flagAt 26 c.cnterr ||| flagAt 25 c.revf ||| flagAt 24 c.ovrate ||| flagAt 23 c.tmax ||| c.bnum.setWidth 32]

def Sett.mirror (x : Sett) : List Word := x.statusWords ++ (List.range 4).flatMap x.chanWords

/-! ### The link (12 R432) -/

/-- A host-to-Sett frame: at most 4 of the commands that wait, with the host time (12 R432, R448). -/
def State.settHostFrame (s : State) : Frame SettCmd :=
  { epoch := s.mram.hostEpoch, seq := s.stSeq, econ := false, msgs := (s.stOut.take 4).map (fun c => { c with htime := s.recTime }) }

/-- The Sett die accepts a host-to-Sett frame, or discards and counts it (01 R43; 09 R330; 12 R432). -/
def Sett.takeFrame (x : Sett) (fr : Frame SettCmd) (intact : Bool) : Sett :=
  if intact && x.rx.accepts fr.epoch fr.seq then
    { x with rx := { x.rx with epoch := some fr.epoch, seq := fr.seq }, cmds := x.cmds ++ fr.msgs
             htime := (fr.msgs.getLast?).elim x.htime (fun c => c.htime) }
  else { x with rx := { x.rx with errs := satInc x.rx.errs } }

/-- The host domain sends a frame while commands wait (12 R432). -/
def State.sendSett (s : State) (intact : Bool) : State :=
  if s.stOut = [] then s
  else
    let y := if s.sett.on then s.sett.takeFrame s.settHostFrame intact else s.sett
    { s with stOut := s.stOut.drop 4, stSeq := s.stSeq + 1, sett := y }

/-- SETT_CYCLE: a Sett cycle starts. Up to 4 commands that wait cross to Sett in a frame, which arrives `intact` or not;
Sett sends its frame with the replies; the cycle is 1 ms, and 1,000 of them are one operating second. -/
def settCycleOp (intact : Bool) (s : State) : State :=
  let s := s.sendSett intact
  let x := s.sett
  if !x.on then s
  else
    let sec := decide (x.ms + 1 ≥ 1000)
    let y := { x with ms := if sec then 0 else x.ms + 1, ssec := if sec then x.ssec + 1 else x.ssec }
    let fr : Frame (List Word × List SettReply) :=
      { epoch := y.epoch, seq := y.txSeq, econ := false, msgs := [(y.mirror, y.replies)] }
    { s with sett := { y with frame := some fr, txSeq := y.txSeq + 1, tseq := y.tseq + 1, replies := [] } }

/-- SLOST changes (04 R185, 12 R432). -/
def State.setSlost (s : State) (v : Bool) : State := if s.slost = v then s else { s with slost := v }.arrive 0x1D
def slostOp (s : State) : State := s.setSlost true

def State.stCmd (s : State) (m : Nat) : StCmd := s.stCmds.get (fun _ => {}) m
def State.setStCmd (s : State) (m : Nat) (c : StCmd) : State := { s with stCmds := s.stCmds.set (fun _ => {}) m c }

/-- A reply completes the command it answers (12 R453). -/
def State.settReplied (s : State) (r : SettReply) : State :=
  { s with stCmds := s.stCmds.map (fun e =>
      if e.2.pend ∧ e.2.sent ∧ e.2.tag = r.tag ∧ e.2.cmd = r.cmd then
        (e.1, { e.2 with pend := false, result := r.result, nw := BitVec.ofNat 8 r.words.length, words := r.words })
      else e) }

/-- SETT_FRAME_ACCEPT: the Sett frame in transit reaches the host domain (12 R432). -/
def settFrameAcceptOp (intact : Bool) (s : State) : State :=
  match s.sett.frame with
  | none => s
  | some fr =>
    let s := s.modSett (fun x => { x with frame := none })
    if intact && s.srx.accepts fr.epoch fr.seq then
      let s := { s with srx := { s.srx with epoch := some fr.epoch, seq := fr.seq } }
      let s := fr.msgs.foldl (fun s m => m.2.foldl State.settReplied { s with mrSett := m.1 }) s
      (s.setSlost false).arrive 0x1C
    else { s with srx := { s.srx with errs := satInc s.srx.errs } }

/-! ### Commands on the Sett die (12 R438, R450) -/

/-- The command at the head of those that have crossed, if it has this code. -/
def State.settHead (s : State) (code : BitVec 4) (f : SettCmd → State → State) : State :=
  match s.sett.cmds with
  | c :: t => if c.cmd = code ∧ s.sett.on then f c (s.modSett (fun x => { x with cmds := t })) else s
  | [] => s

/-- A reply that goes with the next Sett frame. -/
def State.settReply (s : State) (c : SettCmd) (result : BitVec 8) (ws : List Word) : State :=
  s.modSett (fun x => { x with replies := x.replies ++ [{ cmd := c.cmd, tag := c.tag, result := result, words := ws }] })

/-- Sett cannot carry out commands in BOOT and FAULT. -/
def Sett.idleState (x : Sett) : Bool := x.st == .boot || x.st == .fault
/-- The channel that ARG names does not exist or is not enabled. -/
def Sett.badChannel (x : Sett) (a : Word) : Bool := decide (4 ≤ a.toNat) || !x.present a.toNat || !x.cen a.toNat

/-- SETT_START. -/
def settStartOp (s : State) : State := s.settHead 1 (fun c s =>
  let x := s.sett
  let m := c.arg.toNat
  if x.idleState then s.settReply c 1 []
  else if x.badChannel c.arg then s.settReply c 2 []
  else if (x.chan m).batch then s.settReply c 3 []
  else
    let s := s.modSett (fun x => x.modChan m (fun h => { h with bnum := h.bnum + 1, btot := 0, batch := true }))
    s.settReply c 0 [(s.sett.chan m).bnum.setWidth 32])

/-- SETT_STOP. -/
def settStopOp (s : State) : State := s.settHead 2 (fun c s =>
  let x := s.sett
  let m := c.arg.toNat
  if x.idleState then s.settReply c 1 []
  else if x.badChannel c.arg then s.settReply c 2 []
  else if (x.chan m).batch = false then s.settReply c 4 []
  else
    let s := s.modSett (fun x => x.modChan m (fun h => { h with blast := h.btot, bcnt := min (h.bcnt + 1) (2 ^ 32 - 1), batch := false }))
    s.settReply c 0 ((s.sett.chan m).bnum.setWidth 32 :: totalWords (s.sett.chan m).blast))

/-- SETT_READ. -/
def settReadOp (s : State) : State := s.settHead 3 (fun c s =>
  if s.sett.idleState then s.settReply c 1 []
  else match s.sett.audit[c.arg.toNat]? with
    | some e => s.settReply c 0 e
    | none => s.settReply c 2 [])

/-- SETT_VERIFY: the recomputation starts; one at a time. -/
def settVerifyOp (s : State) : State := s.settHead 4 (fun c s =>
  if s.sett.idleState then s.settReply c 1 []
  else if s.sett.verify.isSome then s.settReply c 5 []
  else s.modSett (fun x => { x with verify := some c }))

/-- SETT_VERIFY_DONE: the check code, MEC, SSEC and their signature with the nonce (12 R450, R451). -/
def settVerifyDoneOp (s : State) : State :=
  match s.sett.verify with
  | none => s
  | some c =>
    let s := s.modSett (fun x => { x with chk := checkCode, verify := none })
    let body := [hiWord checkCode, loWord checkCode, s.sett.mec, s.sett.ssec]
    let key := s.sett.slots.get (fun _ => {}) 0
    let sig := Config.sm2Sign key.key (sm3Z key.pub (bytesOfWords (c.nonce ++ body))) s.free
    s.draw.settReply c 0 (body ++ ((wordsOfBytes sig).take 16 ++ List.replicate (16 - ((wordsOfBytes sig).take 16).length) 0))

/-! ### The service port (12 R443-R445) -/

/-- A CRC-16 behind the bytes it covers, its high byte first (11 R398, 12 R443). -/
def withCrc (bs : List Byte) : List Byte := bs ++ [(crc16 bs).extractLsb' 8 8, (crc16 bs).extractLsb' 0 8]

/-- A service reply of 14 bytes: CMD, RES, PIDX, VALUE, MEC and their CRC behind the start byte (12 R443). -/
def State.service (s : State) (cmd res pidx : BitVec 8) (v : Word) : State :=
  s.modSett (fun x => { x with svc := 0x5A :: withCrc ([cmd, res, pidx] ++ bytesOfWord v ++ bytesOfWord x.mec) })

/-- PIDX and VALUE of a request of 10 bytes with a command code: none where its length or CRC is wrong, which gets no reply
(12 R443). -/
def serviceRequest (cmd : BitVec 8) (fr : List Byte) : Option (BitVec 8 × Word) :=
  let body := (fr.drop 1).take 7
  if fr.length = 10 ∧ fr = 0xA5 :: withCrc body ∧ body.take 1 = [cmd] then
    some (body.getD 1 0, wordAt (wordsOfBytes ((body.drop 2).take 4)) 0)
  else none

/-- The PHMIN that bounds a parameter's range. -/
def Sett.phminOf (x : Sett) (i : Nat) : Nat := x.param (i / 16 * 16 + 2)

/-- SERVICE_READ (12 R443): the VALUE of a refused read is open (notes/assumptions/1205.md). -/
def serviceReadOp (fr : List Byte) (s : State) : State :=
  match serviceRequest 1 fr with
  | none => s
  | some (pidx, _) =>
    if !s.sett.on ∨ s.sett.st = .boot then s
    else match paramRange (s.sett.phminOf pidx.toNat) pidx.toNat with
      | some _ => s.service 1 0 pidx (BitVec.ofNat 32 (s.sett.param pidx.toNat))
      | none => s.draw.service 1 4 pidx (Config.freeWord s.free)

/-- SERVICE_STATUS (12 R443). -/
def serviceStatusOp (fr : List Byte) (s : State) : State :=
  if (serviceRequest 3 fr).isNone ∨ !s.sett.on ∨ s.sett.st = .boot then s
  else s.draw.service 3 0 (BitVec.ofNat 8 (Config.freeNat s.free)) s.sett.status0

/-- What a new parameter value does at once (12 R436, R445). -/
def Sett.setParam (x : Sett) (i v : Nat) : Sett :=
  let y := { x with params := x.params.set paramDefault i v }
  if 0x10 ≤ i ∧ i < 0x50 ∧ i % 16 = 1 then y.modChan (i / 16 - 1) (fun c => { c with remn := 0 })
  else if i = 0x50 ∨ i = 0x60 then
    let q := i / 16 - 5
    let clear := fun (c : SettCh) => { c with ca := 0, cb := 0, good := 0, fidalm := false, per := none }
    (y.modChan (2 * q) clear).modChan (2 * q + 1) clear
  else y

/-- RES of a WRITE (12 R445): SEAL, BADREQ, RANGE, AFULL in this order. -/
def Sett.writeRes (x : Sett) (i : Nat) (v : Word) : BitVec 8 :=
  if x.st ≠ .service then 1
  else match paramRange (x.phminOf i) i with
    | none => 4
    | some (lo, hi) => if v.toNat < lo ∨ hi < v.toNat then 2 else if 4096 ≤ x.audit.length then 3 else 0

/-- SERVICE_WRITE (12 R445): the VALUE of its reply is open; `auditOk` says whether the audit entry could be written. -/
def serviceWriteOp (fr : List Byte) (auditOk : Bool) (s : State) : State :=
  match serviceRequest 2 fr with
  | none => s
  | some (pidx, v) =>
    if !s.sett.on then s
    else
      let x := s.sett
      let i := pidx.toNat
      let w := Config.freeWord s.free
      let s := s.draw
      let r := x.writeRes i v
      if r ≠ 0 then s.service 2 r pidx w
      else if x.param i = v.toNat then s.service 2 0 pidx w
      else if !auditOk then s.service 2 3 pidx w
      else
        let y := ({ x with mec := x.mec + 1 }.writeAudit 0x01 i (BitVec.ofNat 32 (x.param i)) v).setParam i v.toNat
        State.service { s with sett := y } 2 0 pidx w

/-! ### The message port (12 R452-R454) -/

/-- A staged command leaves for the Sett link. -/
def State.settSend (s : State) (m : Nat) : State :=
  let c := s.stCmd m
  if c.pend ∧ !c.sent then
    { s.setStCmd m { c with sent := true } with
      stOut := s.stOut ++ [{ who := m, cmd := c.cmd, tag := c.tag, arg := c.arg, htime := 0, nonce := c.nonce }] }
  else s

/-- A staged command of an LP at its commit: sent, or DISCARD on a standby (12 R454; notes/assumptions/1201.md). -/
def State.settRelease (s : State) (m : Nat) : State :=
  let c := s.stCmd m
  if c.pend ∧ !c.sent then
    if s.pl.role = 2 then s.setStCmd m { c with pend := false, result := 6, nw := 0, words := [] } else s.settSend m
  else s

/-- Stage a command for master code m. -/
def State.settStage (s : State) (m : Nat) (cmd : BitVec 4) (arg : Word) (nonce : List Word) : State :=
  { s.setStCmd m { pend := true, cmd := cmd, tag := s.stTag, arg := arg, nonce := nonce } with stTag := s.stTag + 1 }

/-- ST_CMD (12 R452-R454). -/
def stCmdOp (m : Master) (v : Word) (s : State) : State :=
  let k := fld v 3 0
  let c := s.stCmd m.code
  if c.pend then s.setStCmd m.code { c with rej := 1 }
  else if k = 0 ∨ 4 < k ∨ (3 ≤ k ∧ m.world = .program) then s.setStCmd m.code { c with rej := 2 }
  else
    let nonce := if k = 4 then [s.mport m 0xB89, s.mport m 0xB8A, s.mport m 0xB8B, s.mport m 0xB8C] else [0, 0, 0, 0]
    let s := s.settStage m.code (BitVec.ofNat 4 k) (if k = 4 then 0 else s.mport m 0xB88) nonce
    if m.world = .program then s else s.settSend m.code

/-- ST_RRD (12 R452). -/
def stRrdOp (m : Master) (s : State) : State := s.setSport 0xB94 (wordAt (s.stCmd m.code).words (s.mport m 0xB92).toNat)

/-- NOREPLY (12 R454). -/
def noreplyOp (m : Master) (s : State) : State :=
  let c := s.stCmd m.code
  if c.pend ∧ c.sent then s.setStCmd m.code { c with pend := false, result := 7, nw := 0, words := [] } else s

/-- The reads of the message port (12 R452, R453). -/
def stPort (s : State) (m : Master) (a : Nat) : Word :=
  let c := s.stCmd m.code
  match a with
  | 0xB80 => wordAt s.mrSett 0
  | 0xB81 => wordAt s.mrSett 1
  | 0xB82 => wordAt s.mrSett 2
  | 0xB83 => wordAt s.mrSett 3
  | 0xB84 => wordAt s.mrSett 6
  | 0xB91 => flagAt 31 c.pend ||| at_ 28 c.rej.toNat ||| at_ 24 c.cmd.toNat ||| at_ 16 c.tag.toNat ||| at_ 8 c.result.toNat ||| at_ 0 c.nw.toNat
  | 0xB94 => s.sport 0xB94
  | _ => s.mport m a

end Sys2Proof.Machine
end

