-- ==== Sys2Proof/Machine/PairBase.lean ====
section
/-! DEFINITION. What the scan sequencer and the Owl need of the pair rules: the forwarded messages, falling out of step,
and the relinquish (07 R273, R278, R282, R290-R292; 04 R166). -/

namespace Sys2Proof.Machine

/-- Messages leave on the pair link while its session is up, each in a frame with the next SEQ and the pair time
(07 R277). -/
def State.pairSend (s : State) (m : PairMsg) : State :=
  if s.pl.link then
    { s with pl := { s.pl with outbox := s.pl.outbox ++ [{ seq := s.pl.txSeq + 1, ptime := s.pairTime, msg := m }], txSeq := s.pl.txSeq + 1 } }
  else s

/-- LSEQ of LP0-LP7, and the last committed ones. -/
def State.lseqs (s : State) : List Word := (List.range 8).map (fun p => (s.lp p).lseq)
def State.committedLseqs (s : State) : List Word := (List.range 8).map (fun p => (s.lp p).cseq)

/-- A command goes to the standby as a CMDFWD (07 R278): with each state command, coverage change and force table
change of the active module. -/
def State.forward (s : State) (c : PairCmd) : State := if s.pl.role = 1 then s.pairSend (.cmd c s.lseqs) else s

/-- One word enters a signature (06 R233). -/
def misr (s w : BitVec 64) : BitVec 64 :=
  if s.msb then ((s <<< 1) ^^^ w) ^^^ 0x1B else (s <<< 1) ^^^ w

/-- An event word (06 R234). -/
def eventWord (kind addr : Nat) (v : Word) : BitVec 64 := BitVec.ofNat 64 (kind * 2 ^ 60 + addr % 2 ^ 22 * 2 ^ 32 + v.toNat)

/-- A change of each LP in turn. -/
def State.eachLp (s : State) (f : State → Nat → State) : State := (List.range 8).foldl f s

/-- Every LP in RUN enters STOP at once, without a commit (07 R275, R291). -/
def State.stopRunning (s : State) : State :=
  (List.range 8).foldl (fun s p =>
    if (s.lp p).st = .run then
      let s := ((s.leaveRun p).discardStaged (2 + p)).modLp p (fun x => { x with st := .stop })
      if p % 2 = 0 ∧ s.paired (p / 2) then s.freshOwl (p / 2) else s
    else s) s

/-- The standby falls out of step: PSTATE UNSYNC, its LPs in STOP, nothing forwarded is kept (07 R275, R280). -/
def State.unsync (s : State) : State :=
  let s := if s.pl.role = 2 then s.stopRunning else s
  { s with psrc := false
           pl := { s.pl with ps := .unsync, joining := false, joinReady := false, rounds := 0, hold := false, gotFinal := false
                             fwds := [], iarrs := [], osigs := [], ownSigs := [], cmds := [] } }

/-- The partner counts as fit: its latest HEALTH is at most 30 ms old and shows FIT (07 R290). -/
def State.partnerFit (s : State) : Bool :=
  match s.pl.phealthAt with
  | some t => decide (s.time - t ≤ 360000000) && s.pl.phealth.getLsbD 63
  | none => false

/-- The active module relinquishes (07 R291, R292): nothing more is latched or committed, the line is released, shared
channels hold until the new token is sensed; for VOLUNTARY the LPs stop, otherwise the module halts and every LP shows cause
0x05. -/
def State.relinquish (s : State) (rc : BitVec 8) : State :=
  let s := s.pairSend (.relinquish rc s.committedLseqs)
  let s := s.event 0x0701 6 0x3A [rc.setWidth 32]
  let s := if rc = 7 then s.stopRunning
           else s.moduleHalt.eachLp (fun s p => if s.lpExists p then s.modLp p (fun x => { x with hcause := 0x05 }) else s)
  let s := { s with pl := { s.pl with own := false, role := 2, rc := rc, rcIn := false, relN := satInc s.pl.relN
                                      relPend := true, pdrive := false }, rk := { s.rk with running := false } }
  (s.unsync.arrive 0x2E).refreshRlost

/-- A relinquish cause 1-6 is detected (04 R166, 07 R290). -/
def State.relinquishFor (s : State) (rc : BitVec 8) : State :=
  if s.pl.role = 1 ∧ s.partnerFit then s.relinquish rc
  else if rc = 1 ∨ rc = 5 then s
  else s.moduleHalt

/-! ### Output signatures (07 R282) -/

/-- The words of a staged record (05 R214). -/
def Rec.words (r : Rec) : List Word :=
  [at_ 28 r.kind ||| at_ 12 r.axsel ||| at_ 0 r.index] ++
  (if r.kind = 1 then [r.w0, r.hyst, loWord r.value, hiWord r.value] else [loWord r.value, hiWord r.value, 0, 0]) ++
  [loWord r.ref, hiWord r.ref]

/-- The standby compares its own signatures with the OSIGs that have come; on a difference it joins again (07 R282, R284). -/
def State.compareSigs (s : State) : State :=
  s.pl.ownSigs.foldl (fun s o =>
    match s.pl.osigs.find? (fun x => x.1 == o.1 && x.2.1 == o.2.1) with
    | none => s
    | some x =>
      let s := { s with pl := { s.pl with osigs := s.pl.osigs.erase x, ownSigs := s.pl.ownSigs.erase o } }
      if x.2.2 = o.2.2 then s
      else
        let t := ({ s with pl := { s.pl with osigmm := true, osigN := s.pl.osigN + 1 } }.event 0x0705 5 0x3A []).unsync
        { t with pl := { t.pl with autoDue := true } }) s

end Sys2Proof.Machine
end

