-- ==== Sys2Proof/Machine/Sequencer.lean ====
section
/-! DEFINITION. The scan sequencer: operating states, latch, task start, commit, start-up routine, retentive log, and its
ports (04 R154-R184; 07 R278-R282). -/

namespace Sys2Proof.Machine

/-! ### The retentive log (04 R176-R180) -/

/-- The runs of at most 16 consecutive words among the words that changed: first word and length. -/
def changedRuns : List Bool → Nat → Option (Nat × Nat) → List (Nat × Nat)
  | [], _, run => run.toList
  | true :: t, k, some (a, n) => if n < 16 then changedRuns t (k + 1) (some (a, n + 1)) else (a, n) :: changedRuns t (k + 1) (some (k, 1))
  | true :: t, k, none => changedRuns t (k + 1) (some (k, 1))
  | false :: t, k, run => run.toList ++ changedRuns t (k + 1) none

/-- The newest logged value of every word (R177, R178): a commit without its complete marker and a run with an uncorrectable
error count for nothing. -/
def Mram.logged (m : Mram) : SMap Word :=
  (m.log.filter (fun c => c.complete)).foldl (fun v c =>
    (c.runs.filter (fun r => !r.bad)).foldl (fun v r => SMap.setList (fun _ => 0) v r.addr r.words) v) []

/-- 24 h in twelfths of a nanosecond. -/
def dayUnits : Nat := 86400 * 12000000000

/-- sq.rrate (R181): physical writes per second over the last 24 h (notes/assumptions/403.md). -/
def State.rrate (s : State) : Word :=
  BitVec.ofNat 32 (min ((s.wlog.filter (fun e => decide (s.time < e.1 + dayUnits))).foldl (fun n e => n + e.2) 0 / 86400) 0xFFFFFFFF)

/-- RWEAR (R180, R182): the rate is above the limit. -/
def State.rwear (s : State) : Bool := decide (830000 < s.rrate.toNat)

/-- Physical writes count, and the limit is judged on them (R180, R181): RETAIN_WEAR as RWEAR sets. -/
def State.countWrites (s : State) (n : Nat) : State :=
  let t := { s with wlog := s.wlog.filter (fun e => decide (s.time < e.1 + dayUnits)) ++ [(s.time, n)]
                    mram := { s.mram with rwl := s.mram.rwl + BitVec.ofNat 64 n } }
  if t.rwear ∧ s.rwear = false then
    t.event 0x0105 4 0x08 [t.rrate, 830000, BitVec.ofNat 32 (t.prog.retain.foldl (fun n (b : RetBlock) => n + b.len) 0)]
  else t

/-- A log commit with some runs of word data: one header word for each run, and the marker word (R177). -/
def State.logAppend (s : State) (runs : List (Nat × Nat)) : State :=
  if runs = [] then s
  else
    let c : LogCommit := { runs := runs.map (fun r => { addr := r.1, words := s.memGetList r.1 r.2 }) }
    { s with mram := { s.mram with log := s.mram.log ++ [c] } }.countWrites (1 + (runs.map (fun (r : Nat × Nat) => 1 + r.2)).sum)

/-- The runs of a block whose words differ from their newest logged values; a run ends with its block
(notes/assumptions/409.md). -/
def State.blockRuns (s : State) (b : RetBlock) : List (Nat × Nat) :=
  let v := s.mram.logged
  (changedRuns ((List.range b.len).map (fun k => decide (s.memGet (b.addr + k) ≠ v.get (fun _ => 0) (b.addr + k)))) 0 none).map
    (fun r => (b.addr + r.1, r.2))

/-- The log append at the end of a commit of LP p (R177). -/
def State.logCommit (s : State) (p : Nat) : State :=
  s.logAppend ((s.prog.retain.filter (fun b => b.owner = p)).flatMap s.blockRuns)

/-- Blocks from the log (R178): the words that the last commits logged. -/
def State.reloadBlocks (s : State) (bs : List RetBlock) : State :=
  bs.foldl (fun s b => s.memSetList b.addr (SMap.getList (fun _ => 0) s.mram.logged b.addr b.len)) s

/-- At boot, what the log cannot give is discarded: commits without a complete marker, and runs with an uncorrectable error,
each of which is recorded (R178; 07 R288; notes/assumptions/410.md). -/
def State.scanLog (s : State) : State :=
  let bad := (s.mram.log.filter (fun c => c.complete)).flatMap (fun c => c.runs.filter (fun r => r.bad))
  let log := ((s.mram.log.filter (fun c => c.complete)).map (fun c => { c with runs := c.runs.filter (fun r => !r.bad) }))
  let s := { s with mram := { s.mram with log := log }, pl := { s.pl with mramok := s.pl.mramok && bad.isEmpty } }
  bad.foldl (fun s _ => s.event Config.mramErrorCode 5 0x08 []) s

/-- COMPACTION (R180): the log keeps the newest values alone; the physical writes it makes count. -/
def compactionOp (words : Nat) (s : State) : State :=
  let v := s.mram.logged
  let c : LogCommit := { runs := s.prog.retain.map (fun b => { addr := b.addr, words := SMap.getList (fun _ => 0) v b.addr b.len }) }
  { s with mram := { s.mram with log := if s.mram.log = [] then [] else [c] } }.countWrites words

/-! ### Task start (04 R159) -/

/-- The lane's state at the first bundle of a task or of the start-up routine. -/
def Lane.startTask (x : Lane) (entry : Nat) (top lim : Word) : Lane :=
  { ((x.setPort 0x008 top).setPort 0x00A top).setPort 0x009 lim with
           flags := {}, bstk := [], bcnt := 0, pc := entry, wait := false, idleH := false }

/-- LP p's lane takes the task-start state; the trail of a paired region takes it when it has repeated what went before. -/
def State.startLanes (s : State) (p entry : Nat) (top lim : Word) : State :=
  let s := s.modLane (s.laneOf p) (fun x => x.startTask entry top lim)
  if p % 2 = 0 ∧ s.paired (p / 2) then
    if (s.region (p / 2)).outstanding = [] then s.modLane (p + 1) (fun x => x.startTask entry top lim)
    else s.modRegion (p / 2) (fun r => { r with outstanding := r.outstanding ++ [.start entry top lim] })
  else s

/-- The start-up routine of LP p starts (R163). -/
def State.startInit (s : State) (p : Nat) (d : InitDesc) : State :=
  (s.startLanes p d.entry d.stacktop d.stacklim).modLp p (fun x =>
    { x with phase := .init, latchAt := s.time, lseq := x.lseq + 1 })

/-! ### The forward buffer (07 R276, R278, R279) -/

/-- The payload of a FWD (07 R279). -/
def fwdWords (w : Fwd) : List Word :=
  [at_ 29 w.lp.val ||| at_ 24 w.task.val ||| flagAt 23 w.init ||| at_ 0 (w.nw % 65536), w.lseq, loWord w.ltime, hiWord w.ltime,
   loWord w.ttf, hiWord w.ttf] ++ (List.range 7).flatMap (fun k => [loWord (w.axsnap.getD k 0), hiWord (w.axsnap.getD k 0)]) ++ w.delta

/-- What the forward buffer still holds, in bytes: each lane carries 250 bytes a µs (07 R276; notes/assumptions/719.md). -/
def State.fwdLeft (s : State) : Nat :=
  s.pl.fwdFill - (s.time - s.pl.fwdAt) * ((if s.pl.lane0 then 1 else 0) + (if s.pl.lane1 then 1 else 0)) / 48

/-- A FWD enters the forward buffer of 256 KiB; in an overflow it is lost, and the standby falls out of step (07 R278). -/
def State.sendFwd (s : State) (w : Fwd) : State :=
  let n := s.fwdLeft + 4 * (fwdWords w).length
  if 262144 < n then s
  else { s with pl := { s.pl with fwdFill := n, fwdAt := s.time } }.pairSend (.fwd w)

/-! ### Forwarded force changes (07 R280) -/

/-- A force table after a forwarded change. -/
def cmdForces (c : PairCmd) (t : SMap Force) : SMap Force :=
  match c with
  | .ftSet i a v => t.set (fun _ => {}) i.val { addr := a.toNat, val := v, en := true }
  | .ftClr i => t.set (fun _ => {}) i.val { t.get (fun _ => {}) i.val with en := false }
  | .ftClrall => t.map (fun e => (e.1, { e.2 with en := false }))
  | _ => t

/-- The LSEQ at which a forwarded command takes effect on LP p has come (07 R280). -/
def State.lseqReached (s : State) (p : Nat) (ls : List Word) : Bool :=
  !s.lpExists p || decide (((s.lp p).lseq - wordAt ls p).toNat < 2 ^ 31)

/-- The force table that a phase of LP p samples: the changes whose LSEQ has come for p count, wherever the other LPs stand
(04 R175; 07 R280). -/
def State.forcesOf (s : State) (p : Nat) : List (Nat × Word) :=
  State.forceSample { s with force := s.pl.cmds.foldl (fun t c => if s.lseqReached p c.2 then cmdForces c.1 t else t) s.force }

/-! ### Operating states (04 R165-R167, R183) -/

/-- LP p goes from STOP to RUN: counters clear, and the start-up routine or the free-running tasks start; a standby in
step waits for the FWD of its start-up routine. -/
def State.enterRun (s : State) (p : Nat) : State :=
  let s := if s.anyRun then s else { s with econNext := s.prog.modes.getLsbD 4 }
  let s := (List.range 32).foldl (fun s t => s.modTask p t (fun x =>
    { x with ovr := 0, ran := false, tmax := 0, own := none })) s
  let s := s.modLp p (fun x => { x with st := .run, phase := .idle, stopReq := false, idleHandler := false, err := 0, hcause := 0 })
  let s := s.modRegion (p / 2) (fun r => { r with ran := true })
  match s.prog.init p with
  | some d =>
    if s.inStep then s
    else
      let s := s.startInit p d
      if s.pl.role = 1 then
        s.sendFwd ({ lp := ⟨p % 8, by omega⟩, task := 0, init := true, nw := 0, lseq := (s.lp p).lseq, ltime := s.pairTime
                     ttf := 0, axsnap := [], delta := [] })
      else s
  | none => s.triggerFree p

/-- A word data address lies in a retentive block. -/
def Prog.retentive (g : Prog) (a : Nat) : Bool := g.retain.any (fun b => decide (b.addr ≤ a ∧ a < b.addr + b.len))

/-- The addresses and values of the WDATA sections. -/
def Prog.wordInits (g : Prog) : List (Nat × Word) :=
  g.wdata.flatMap (fun d => (List.range d.2.length).map (fun k => (d.1 + k, wordAt d.2 k)))
/-- The marker bits of the MARKER sections (R146). -/
def Prog.markerInits (g : Prog) : List (Nat × Word) :=
  g.marker.flatMap (fun d => (List.range (32 * d.2.length)).map (fun k => (d.1 + k, bit ((wordAt d.2 (k / 32)).getLsbD (k % 32)))))

/-- The words of an address test take their initial values, 0 where no section covers them. -/
def State.initWords (s : State) (t : Nat → Bool) : State :=
  let s := { s with mem := s.mem.filter (fun e => !t e.1) }
  (s.prog.wordInits ++ s.prog.markerInits).foldl (fun s e => if t e.1 then s.memSet e.1 e.2 else s) s

/-- The LPs of a mask that a RUN command takes from STOP to RUN (R165, R168). -/
def State.starters (s : State) (mask : BitVec 8) : List Nat :=
  (List.range 8).filter (fun p => mask.getLsbD p && s.lpExists p && decide ((s.lp p).st = .stop)
    && decide ((s.region (p / 2)).cov ≠ .unavail))

/-- A cold start reinitialises the slices, and the markers, whose every present LP starts (R167; notes/assumptions/401.md). -/
def State.coldStart (s : State) (ps : List Nat) : State :=
  let all := fun (t : Nat → Bool) => (List.range 8).all (fun p => !(s.lpExists p && t p) || ps.contains p)
  s.initWords (fun a =>
    match place a with
    | .word =>
      let r := (a - 0x200000) / 0x80000
      all (fun p => p / 2 == r) && (List.range 8).any (fun p => p / 2 == r && ps.contains p) && !s.prog.retentive a
    | .marker => all (fun _ => true) && ps != []
    | _ => false)

/-- A region enters its first RUN split where SPLIT of MODES says so; the odd LP then follows AUTOSTART
(06 R248, R250; notes/assumptions/402.md). -/
def State.firstSplit (s : State) (r : Nat) : State :=
  let x := s.region r
  if x.ran ∨ !s.prog.modes.getLsbD (12 + r) ∨ x.cov ≠ .paired then s
  else
    let s := s.modRegion r (fun x => { x with cov := .split, splitn := satInc x.splitn, ucstart := s.ax0, ucend := 0, fifo := [] })
    let s := s.event 0x0204 3 (0x10 + r) [BitVec.ofNat 32 r, loWord s.ax0, hiWord s.ax0]
    s.modLp (2 * r + 1) (fun x => { x with st := .stop })

/-- The state command RUN takes effect (R165, R167). -/
def State.runNow (s : State) (mask : BitVec 8) (cold : Bool) : State :=
  let ps := s.starters mask
  let s := if cold then s.coldStart ps else s
  ps.foldl (fun s p =>
    let fresh := decide (p % 2 = 0) && !(s.region (p / 2)).ran
    let s := if p % 2 = 0 then s.firstSplit (p / 2) else s
    let s := s.enterRun p
    if fresh ∧ (s.region (p / 2)).cov = .split ∧ s.prog.modes.getLsbD 0 ∧ (s.lp (p + 1)).st = .stop then s.enterRun (p + 1)
    else s) s

/-- RUN (04 R165, R183; 07 R272; 13 R456): on a pair-provisioned module that does not hold the line and has no LP in RUN
the command waits for the token, if the line is released; a standby with the line asserted by its partner ignores it. -/
def runOp (m : Master) (mask : BitVec 8) (cold : Bool) (s : State) : State :=
  s.guarded m 0x841 fun s =>
    if s.boot ≠ .done ∨ s.halted ∨ !s.lcRuns ∨ !s.prog.valid ∨ mask = 0 then s
    else if s.provisioned then
      if s.pl.own then (s.forward (.run mask cold)).runNow mask cold
      else if s.anyRun ∨ s.pl.sensed then s
      else { s with pl := { s.pl with waitRun := some (mask, cold), waitAt := s.time } }
    else
      let s := if s.pl.own ∨ s.starters mask = [] then s
               else ({ s with pl := { s.pl with own := true } }.becomeMaster false)
      s.runNow mask cold

/-- The state command STOP takes effect (R165): at once on an idle LP with no active handler, otherwise at the next scan
boundary. -/
def State.stopNow (s : State) (mask : BitVec 8) : State :=
  (List.range 8).foldl (fun s p =>
    let x := s.lp p
    if mask.getLsbD p ∧ s.lpExists p ∧ x.st = .run then
      if x.phase = .idle ∧ x.levels = [] then s.stopLp p else s.modLp p (fun x => { x with stopReq := true })
    else s) s

def stopOp (m : Master) (mask : BitVec 8) (s : State) : State :=
  s.guarded m 0x841 fun s => (s.forward (.stop mask)).stopNow mask

/-- LP p leaves HALT for STOP (02 R98; 04 R165, R184; 06 R242): cu.fault and HCAUSE clear, and a paired region's FIFO and
signatures restart empty. -/
def State.leaveHalt (s : State) (p : Nat) : State :=
  let s := s.modLp p (fun x => { x with st := .stop, hcause := 0 })
  let s := s.modLane (s.laneOf p) (fun x => x.setPort 0x00D 0)
  let s := if s.paired (p / 2) then s.modLane (p + 1) (fun x => x.setPort 0x00D 0) else s
  let s := if p % 2 = 0 ∧ s.paired (p / 2) then
      (s.freshOwl (p / 2)).modLane (p + 1) (fun x => { x with items := [], pend := [], blq := [], iuq := [], wait := false })
    else s
  s.modLane (s.laneOf p) (fun x => { x with wait := false })

/-- CLRHALT takes effect (R165, R178): the owner's retentive blocks are reloaded. -/
def State.clrhaltNow (s : State) (mask : BitVec 8) : State :=
  if s.halted then s
  else (List.range 8).foldl (fun s p =>
    let x := s.lp p
    if mask.getLsbD p ∧ s.lpExists p ∧ x.st = .halt ∧ x.unavail = false then
      (s.leaveHalt p).reloadBlocks (s.prog.retain.filter (fun b => b.owner = p))
    else s) s

def clrhaltOp (m : Master) (mask : BitVec 8) (s : State) : State :=
  s.guarded m 0x841 fun s => (s.forward (.clrhalt mask)).clrhaltNow mask

/-! ### Inputs (04 R149, R158; 07 R279) -/

/-- 32 bits to a word, in order. -/
def packBits (bs : List Word) : List Word :=
  (List.range ((bs.length + 31) / 32)).map (fun j =>
    (List.range 32).foldl (fun w k => w ||| flagAt k ((wordAt bs (32 * j + k)).getLsbD 0)) 0)

/-- The bit entries and the word entries of an input set, in set order. -/
def bitEntries (es : List SetEntry) : List SetEntry := es.filter (fun e => bitClass e.cls)
def wordEntries (es : List SetEntry) : List SetEntry := es.filter (fun e => !bitClass e.cls)

/-- The input area of a set from the mirrors (07 R279). -/
def State.inputArea (s : State) (es : List SetEntry) : List Word :=
  packBits ((bitEntries es).flatMap s.entryValues) ++ (wordEntries es).flatMap s.entryValues

/-- Bit entries take the area's bits from bit `off` on. -/
def State.writeBits (s : State) (area : List Word) : List SetEntry → Nat → State
  | [], _ => s
  | e :: es, off =>
    (s.memSetList e.addr ((List.range e.count).map (fun k => bit ((wordAt area ((off + k) / 32)).getLsbD ((off + k) % 32))))).writeBits
      area es (off + e.count)

/-- Word entries take the area's words. -/
def State.writeWords (s : State) : List Word → List SetEntry → State
  | _, [] => s
  | area, e :: es => (s.memSetList e.addr (area.take e.size)).writeWords (area.drop e.size) es

/-- The image and the input word areas take an input area. -/
def State.writeInputs (s : State) (es : List SetEntry) (area : List Word) : State :=
  let nbits := (bitEntries es).foldl (fun n e => n + e.count) 0
  (s.writeBits area (bitEntries es) 0).writeWords (area.drop ((nbits + 31) / 32)) (wordEntries es)

/-- DELTA of a FWD: for each group of 32 words a mask and the changed words; without a previous area every word (notes/assumptions/407.md). -/
def deltaOf (prev area : List Word) : List Word :=
  (List.range ((area.length + 31) / 32)).flatMap (fun g =>
    let ks := (List.range 32).filter (fun k => 32 * g + k < area.length
      && (prev.length != area.length || wordAt prev (32 * g + k) != wordAt area (32 * g + k)))
    (ks.foldl (fun w k => w ||| at_ k 1) (0 : Word)) :: ks.map (fun k => wordAt area (32 * g + k)))

/-- Words i to nw - 1 of the area that a DELTA gives over the previous one; `mask` is the open group's. -/
def deltaWords (prev : List Word) (nw : Nat) : Nat → Nat → Word → List Word → List Word
  | 0, _, _, _ => []
  | fuel + 1, i, mask, ds =>
    if i ≥ nw then []
    else
      let mask' := if i % 32 = 0 then ds.headD 0 else mask
      let ds := if i % 32 = 0 then ds.drop 1 else ds
      if mask'.getLsbD (i % 32) then ds.headD 0 :: deltaWords prev nw fuel (i + 1) mask' (ds.drop 1)
      else wordAt prev i :: deltaWords prev nw fuel (i + 1) mask' ds

/-- The axis snapshot of a latch (05 R208). -/
def State.axisSnapshot (s : State) : SMap (BitVec 64) :=
  SMap.setList (fun _ => 0) [] 0 (s.pairTime :: (List.range 7).map (fun k => long (s.mirrorWord 9 (8 * (k + 1))) (s.mirrorWord 9 (8 * (k + 1) + 1))))

/-- What a forwarded latch brought for the field inputs and the axes, against the own mirrors (07 R287): the bits are
kept for the next own field frames, and an axis more than 2 counts away counts. -/
def State.noteForwarded (s : State) (es : List SetEntry) (axsnap : List (BitVec 64)) : State :=
  let di := (List.range 32).filter (fun i => es.any (fun e => e.hasBit (0x40000 + i)))
  let bits := di.foldl (fun m i => SMap.set (fun _ => 0) m (0x40000 + i) (1 + (s.memGet (0x40000 + i)).toNat)) s.pl.fwdBits
  let far := fun (k : Nat) =>
    let d := (long (s.mirrorWord 9 (8 * k)) (s.mirrorWord 9 (8 * k + 1)) - axsnap.getD (k - 1) 0).toInt
    (axisDesc s.prog.axes k).en && decide (131072 < d.natAbs)
  [1, 2, 3, 4, 6, 7].foldl (fun (s : State) k =>
    if far k then
      { s with pl := { s.pl with disc := satInc s.pl.disc, discTotal := satInc s.pl.discTotal } }.event 0x0707 3 0x3A []
    else s) { s with pl := { s.pl with fwdBits := bits } }

/-! ### The latch (04 R156-R159) -/

/-- LP p may start a latch: it is idle in RUN with no active handler, and no stall or pending change of its region holds
it (04 R156, R157; 06 R249, R253, R260, R264; 07 R285). -/
def State.mayLatch (s : State) (p : Nat) : Bool :=
  let x := s.lp p
  let r := s.region (p / 2)
  s.lpExists p && decide (x.st = .run) && decide (x.phase = .idle) && decide (x.levels = []) && !s.pl.hold
    && (p % 2 == 1 || !(decide (r.cov = .splitPend) || decide (r.cov = .rejoin) || decide (r.cov = .handover)
        || r.pendReq.isSome || (decide (r.cov = .exPrep) && decide (r.exStage = 3))
        || (decide (r.cov = .exRun) && decide (r.exStage = 5))))

/-- The pending task that starts: the lowest PRIO, then the lowest number (R156). -/
def State.nextTask (s : State) (p : Nat) : Option Nat :=
  (List.range 32).foldl (fun best t =>
    if (s.task p t).pend ∧ (s.prog.task p t).en then
      match best with
      | none => some t
      | some b => if (s.prog.task p t).prio < (s.prog.task p b).prio then some t else some b
    else best) none

/-- A latch of task t with an input area starts. -/
def State.beginLatch (s : State) (p t : Nat) (area : List Word) (ax : SMap (BitVec 64)) (lseq : Word) : State :=
  let s := s.modTask p t (fun x => { x with pend := false, prevIn := area })
  let s := s.modLp p (fun x =>
    { x with phase := .latch, task := t, latchAt := s.time, ax := ax, forces := s.forcesOf p, lseq := lseq })
  s.writeInputs (s.prog.taskIn p t) area

/-- LATCH_START (04 R156, R158; 07 R278-R280; 10 R373): the next pending task from the own mirrors, or the head of the
forwarded latches, which a standby in step takes alone, once the interrupts forwarded for the idle time before it have
entered. Either consumes what the set's receive objects hold. -/
def latchStartOp (p : Fin 8) (s : State) : State :=
  let p := p.val
  if !s.mayLatch p then s
  else match s.pl.fwds.find? (fun w => w.lp.val == p) with
  | some w =>
    if s.inStep && s.pl.iarrs.any (fun e => e.1 == p && e.2.1 == (s.lp p).lseq && e.2.2.1.isNone) then s
    else
    let s := { s with pl := { s.pl with fwds := s.pl.fwds.erase w } }
    if w.init then
      match s.prog.init p with
      | some d => (s.startInit p d).modLp p (fun x => { x with lseq := w.lseq })
      | none => s
    else
      let t := w.task.val
      let area := deltaWords (s.task p t).prevIn w.nw w.nw 0 0 w.delta
      let ax := SMap.setList (fun _ => 0) [] 0 (w.ltime :: w.axsnap)
      let lag := (s.pairTime - w.ltime).toNat
      let s := { s with pl := { s.pl with lag := BitVec.ofNat 32 (min lag 0xFFFFFFFF) } }
      let es := s.prog.taskIn p t
      (es.foldl State.consume (s.modTask p t (fun x => { x with ttf := w.ttf, own := match x.own with
        | some o => if w.ttf.toNat < o.toNat then some o else none
        | none => none }))).beginLatch p t area ax w.lseq |>.noteForwarded es w.axsnap
  | none =>
    if s.inStep then s
    else match s.nextTask p with
    | none => s
    | some t =>
      let es := s.prog.taskIn p t
      let area := s.inputArea es
      let ax := s.axisSnapshot
      let prev := (s.task p t).prevIn
      let lseq := (s.lp p).lseq + 1
      let w : Fwd := { lp := ⟨p % 8, by omega⟩, task := ⟨t % 32, by omega⟩, init := false, nw := area.length, lseq := lseq
                       ltime := s.pairTime, ttf := (s.task p t).ttf
                       axsnap := (List.range 7).map (fun k => ax.get (fun _ => 0) (k + 1)), delta := deltaOf prev area }
      let s := (s.beginLatch p t area ax lseq)
      let s := es.foldl State.consume s
      if s.pl.role = 1 then s.sendFwd w else s

/-- Forced inputs replace the latched values of an input set (R158, R173). -/
def State.forceInputs (s : State) (es : List SetEntry) (fs : List (Nat × Word)) : State :=
  fs.foldl (fun s f => if es.any (fun e => e.hasBit f.1 || e.hasWord f.1) then s.memSet f.1 f.2 else s) s

/-- LATCH_END (04 R158, R159): the forced inputs, then the task-start state. -/
def latchEndOp (p : Fin 8) (s : State) : State :=
  let p := p.val
  let x := s.lp p
  if x.st = .run ∧ x.phase = .latch then
    let d := s.prog.task p x.task
    let s := s.forceInputs (s.prog.taskIn p x.task) x.forces
    (s.startLanes p d.entry d.stacktop d.stacklim).modLp p (fun x => { x with phase := .exec, forces := [] })
  else s

/-! ### The commit (04 R158, R177; 05 R215; 09 R359; 10 R376; 07 R281, R282) -/

/-- Every store that the LP's lane issued has been performed (R37). -/
def State.storesDone (s : State) (p : Nat) : Bool :=
  let x := s.lane (s.laneOf p)
  decide (x.items = []) && decide (x.iuq = []) && decide (x.blq = [])

/-- The Owl has passed every window of a paired LP (R33). -/
def State.owlPassed (s : State) (p : Nat) : Bool :=
  let r := s.region (p / 2)
  p % 2 == 1 || !s.paired (p / 2) ||
    (decide (r.outstanding = []) && decide (r.leadSigs = []) && decide (r.trailSigs = []) && decide ((s.lane p).evq = [])
      && decide ((s.lane (p + 1)).evq = []))

/-- COMMIT_START. -/
def commitStartOp (p : Fin 8) (s : State) : State :=
  let p := p.val
  let x := s.lp p
  if x.st = .run ∧ x.phase = .taskEnd ∧ s.storesDone p ∧ s.owlPassed p then
    s.modLp p (fun x => { x with phase := .commit, forces := s.forcesOf p })
  else s

/-- The committed value of unit k of an output entry: the program's, or the sampled force on it. -/
def State.committed (s : State) (fs : List (Nat × Word)) (e : SetEntry) (k : Nat) : Word :=
  (sampledForce fs (e.addr + k)).getD (s.memGet (e.addr + k))

/-- The values of an output entry go to their sinks. -/
def State.sinkEntry (s : State) (fs : List (Nat × Word)) (e : SetEntry) : State :=
  (List.range e.size).foldl (fun s k =>
    let s := { s with sinks := s.sinks.set (fun _ => 0) (e.sinkKey k) (s.committed fs e k) }
    if e.cls = 1 then
      let n := e.addr + k - 0x80000
      let m : BitVec 16 := BitVec.ofNat 16 (2 ^ n)
      { s with outForced := if (sampledForce fs (e.addr + k)).isSome then s.outForced ||| m else s.outForced &&& ~~~m }
    else s) s

/-- The transmit buffers of an output entry of LP p: content, with a request under SMODE; what p sent last is kept for each
owner (10 R376). -/
def State.bufferEntry (s : State) (p : Nat) (e : SetEntry) : State :=
  if e.cls ≠ 0xA ∧ e.cls ≠ 0xB then s
  else (List.range e.count).foldl (fun s k =>
    let c := e.cls - 0xA
    let b := e.first + k
    let ws := (List.range 18).map (fun j => s.sink (e.sinkKey (18 * k + j)))
    let mode := fld (wordAt ws 0) 31 30
    let old := s.fbSent.get (fun _ => []) (8 * (4 * c + b) + p)
    let send := mode == 1 || (mode == 2 && old.drop 1 != ws.drop 1)
    if mode = 3 then s
    else { s with busOut := s.busOut ++ [{ kind := 0, ch := c, send := send, run := false, index := b, words := ws }]
                  fbSent := s.fbSent.set (fun _ => []) (8 * (4 * c + b) + p) ws
                  fbLast := s.fbLast.set (fun _ => 8) (4 * c + b) p
                  fbTxs := if send then (s.busWaits c b).fbTxs else s.fbTxs }) s

/-- What LP p has staged leaves: table records, masks, bus items, its Sett command. -/
def State.releaseStaged (s : State) (p : Nat) : State :=
  let m := 2 + p
  let recs := s.ptStage.get (fun _ => []) m
  let k := s.fdStage.get (fun _ => {}) m
  let bus := s.fbStage.get (fun _ => []) m
  let s := { s with schedOut := s.schedOut ++ recs.map (fun x => (p, x)), ptStage := s.ptStage.erase m, fdStage := s.fdStage.erase m, fbStage := s.fbStage.erase m
                    reqNext := { rst := s.reqNext.rst ||| k.rst, crst := s.reqNext.crst ||| k.crst, dclr := s.reqNext.dclr ||| k.dclr } }
  (bus.foldl State.releaseBus s).settRelease m

/-- The output signature of a commit (07 R282; notes/assumptions/714.md). -/
def State.outputSignature (s : State) (es : List SetEntry) (recs : List Rec) : BitVec 64 :=
  let sinks := es.flatMap (fun e => (List.range e.size).map (fun k =>
    let a := if bitClass e.cls then e.addr + k else (Config.sinkCode e.cls (e.first * unitWords e.cls + k)).toNat
    eventWord 0 a (s.sink (e.sinkKey k))))
  (sinks ++ (recs.flatMap Rec.words).map (fun w => w.setWidth 64)).foldl misr 0xFFFFFFFFFFFFFFFF

/-- A scan boundary or the return to idle: a STOP request takes effect (R165). -/
def State.boundary (s : State) (p : Nat) : State :=
  if (s.lp p).stopReq ∧ (s.lp p).phase = .idle ∧ (s.lp p).levels = [] then s.stopLp p else s

/-- COMMIT_END. The first one after a hand-over is the boundary at which the rejoin starts (06 R264). -/
def commitEndOp (p : Fin 8) (s : State) : State :=
  let p := p.val
  let x := s.lp p
  if x.st = .run ∧ x.phase = .commit then
    let t := x.task
    let es := s.prog.taskOut p t
    let s := es.foldl (fun s e => s.sinkEntry x.forces e) s
    let s := es.foldl (fun s e => s.bufferEntry p e) s
    let sig := s.outputSignature es (s.ptStage.get (fun _ => []) (2 + p))
    let s := (s.releaseStaged p).logCommit p
    let cyc := BitVec.ofNat 32 ((s.time - x.latchAt) / s.cycleUnits)
    let s := s.modTask p t (fun y => { y with ran := true, tlast := cyc, tmax := if y.tmax < cyc then cyc else y.tmax
                                              gap := decide ((s.prog.task p t).trig = 0) })
    let s := s.modLp p (fun y => { y with phase := .idle, forces := [], cseq := y.lseq })
    let s := if p % 2 = 0 then s.modRegion (p / 2) (fun r => { r with exStage := if r.cov = .exRun ∧ r.exStage = 4 then 5 else r.exStage }) else s
    let s := if s.pl.role = 1 then s.pairSend (.osig p x.lseq sig)
             else if s.inStep then { s with pl := { s.pl with ownSigs := s.pl.ownSigs ++ [(p, x.lseq, sig)] } }.compareSigs
             else s
    s.boundary p
  else s

/-- STARTUP_END (04 R163): every store performed and the window passed; the staged items leave, free-running tasks
start. -/
def startupEndOp (p : Fin 8) (s : State) : State :=
  let p := p.val
  let x := s.lp p
  if x.st = .run ∧ x.phase = .initEnd ∧ s.storesDone p ∧ s.owlPassed p then
    let s := (s.releaseStaged p).modLp p (fun y => { y with phase := .idle })
    (s.triggerFree p).boundary p
  else s

/-! ### The ports (04 R181-R184) -/

/-- sq.mstat (R182), with the role of 07 R270; WARM is 1 from reset (16 R534; notes/assumptions/411.md). -/
def State.mstatWord (s : State) : Word :=
  let mask := fun (t : LpState) => (List.range 8).foldl (fun n p => if s.lpExists p ∧ (s.lp p).st = t then n + 2 ^ p else n) 0
  at_ 24 (mask .halt) ||| at_ 16 (mask .run) ||| flagAt 9 s.rwear ||| flagAt 8 s.forced ||| at_ 6 s.pl.role.toNat
    ||| flagAt 5 s.warm ||| flagAt 4 s.econ ||| s.mstate.code.setWidth 32

/-- sq.lp0-sq.lp7 (R184). -/
def State.lpWord (s : State) (p : Nat) : Word :=
  let x := s.lp p
  if !s.lpExists p then 0x2000
  else at_ 30 x.st.code.toNat ||| at_ 24 x.hcause.toNat ||| at_ 16 (x.task % 32)
    ||| flagAt 15 (decide (x.phase = .latch ∨ x.phase = .exec ∨ x.phase = .taskEnd ∨ x.phase = .commit))
    ||| flagAt 14 (decide (x.phase = .init ∨ x.phase = .initEnd))

/-- The reads of the sequencer's ports; sq.tinfo before any task has run is the model's reading (notes/assumptions/412.md). -/
def sqPort (s : State) (m : Master) (a : Nat) : Word :=
  let sel := (s.mport m 0x851).toNat
  let p := sel / 32 % 8
  let t := sel % 32
  let k := s.task p t
  match a with
  | 0x840 => s.mstatWord
  | 0x850 =>
    match m with
    | .lp n =>
      let x := s.lp n.val
      flagAt 31 (!(s.task n.val x.task).ran) ||| flagAt 30 (decide (x.phase = .init ∨ x.phase = .initEnd))
        ||| at_ 16 (x.task % 32) ||| at_ 0 n.val
    | _ => 0
  | 0x852 =>
    at_ 16 k.ovr.toNat ||| flagAt 2 k.pend ||| flagAt 0 (s.prog.task p t).en
      ||| flagAt 1 (decide ((s.lp p).task = t ∧ ((s.lp p).phase = .latch ∨ (s.lp p).phase = .exec ∨ (s.lp p).phase = .taskEnd
            ∨ (s.lp p).phase = .commit)))
  | 0x853 => k.tlast
  | 0x854 => k.tmax
  | 0x858 => loWord s.mram.rwl
  | 0x85A => s.rrate
  | _ => if 0x848 ≤ a ∧ a ≤ 0x84F then s.lpWord (a - 0x848) else s.mport m a

/-- SQ_RWL_READ (R181): the read latches sq.rwh for the master. -/
def sqRwlReadOp (m : Master) (s : State) : State := s.setMport m 0x859 (hiWord s.mram.rwl)

/-- A move into sq.cmd (R183): the command of its row, or no effect. -/
def sqCmdOp (m : Master) (v : Word) (s : State) : State :=
  let mask := v.extractLsb' 16 8
  match fld v 3 0 with
  | 1 => runOp m mask (v.getLsbD 8) s
  | 2 => stopOp m mask s
  | 3 => clrhaltOp m mask s
  | _ => s.guarded m 0x841 id

end Sys2Proof.Machine
end

