-- ==== Sys2Proof/Machine/LaneSig.lean ====
section
/-! DEFINITION. Lead and trail of a paired region: the replay FIFO (06 R228-R231), the events of a lane's signature and
its windows (06 R233-R237), the mismatch (06 R240-R244) and the two Owls of the part that has them (06 R247). -/

namespace Sys2Proof.Machine

/-- How a lane runs: as the lead or the trail of a paired region, or alone (06 R226, R249). -/
inductive Side where
  | lead | trail | solo
  deriving DecidableEq, Repr

def State.side (s : State) (l : Nat) : Side :=
  if s.paired (l / 2) then (if l % 2 = 0 then .lead else .trail) else .solo

/-! ### The replay FIFO (06 R229-R231) -/

/-- The 64 bits of a filled entry (06 R230). -/
def REntry.bits (e : REntry) : BitVec 64 :=
  BitVec.ofNat 64 (e.kind.toNat * 2 ^ 61 + e.word.toNat * 2 ^ 58 + e.slot.toNat * 2 ^ 56
    + (e.addr.getD 0).toNat * 2 ^ 32 + (e.val.getD 0).toNat)

/-- ADDR and VALUE of an entry's 64 bits. -/
def entryAddr (b : BitVec 64) : Nat := b.toNat / 2 ^ 32 % 2 ^ 22
def entryValue (b : BitVec 64) : Word := loWord b

/-- Free entries of the FIFO of region r. -/
def State.fifoFree (s : State) (r : Nat) : Nat := 512 - (s.region r).fifo.length

/-- The lead reserves entries behind the ones in the FIFO; FHWM keeps the highest occupancy (06 R229, R269). -/
def State.reserve (s : State) (l : Nat) (es : List REntry) : State :=
  if s.side l = .lead then
    s.modRegion (l / 2) (fun r =>
      let f := r.fifo ++ es
      { r with fifo := f, fhwm := if r.fhwm.toNat < f.length then BitVec.ofNat 10 f.length else r.fhwm })
  else s

/-- The first entry of a move that is not filled takes its address and value. -/
def fillFirst (seq : Nat) (addr : BitVec 22) (v : Word) : List REntry → List REntry
  | [] => []
  | e :: t => if e.seq = seq ∧ e.val = none then { e with addr := some addr, val := some v } :: t else e :: fillFirst seq addr v t

/-- The lead obtains the value of a volatile read of the move `seq` (06 R229). -/
def State.fill (s : State) (l seq addr : Nat) (v : Word) : State :=
  if s.side l = .lead then
    s.modRegion (l / 2) (fun r => { r with fifo := fillFirst seq (BitVec.ofNat 22 addr) v r.fifo })
  else s

/-! ### Signature events (06 R233-R236) -/

/-- An event joins a lane's signature at its place in program order; its word may still be unknown. -/
def State.pushEv (s : State) (l : Nat) (tag : Nat × Nat) (w : Option (BitVec 64)) : State :=
  if s.side l = .solo then s
  else s.modLane l (fun x => { x with evq := x.evq ++ [{ tag := tag, close := false, word := w }] })

/-- The words of a move's event become known: none, one, or the changed words of a write-back in ascending order. -/
def State.resolveEv (s : State) (l : Nat) (tag : Nat × Nat) (ws : List (BitVec 64)) : State :=
  s.modLane l (fun x => { x with evq := x.evq.flatMap (fun e =>
    if e.tag = tag ∧ e.close = false ∧ e.word = none then ws.map (fun w => { tag := tag, close := false, word := some w })
    else [e]) })

/-- The window closes behind the events so far (06 R236); `baddr` is its last bundle. -/
def State.pushClose (s : State) (l baddr : Nat) : State :=
  if s.side l = .solo then s
  else s.modLane l (fun x => { x with evq := x.evq ++ [{ tag := (0, baddr), close := true, word := none }], wcnt := 0 })

/-- Fold the known events in order, a new window opening at each close (06 R233, R235): the closed windows'
signatures with their last bundles, the open signature, and the events that still wait. -/
def foldEvs : List SigEv → BitVec 64 → List (BitVec 64 × Nat) × BitVec 64 × List SigEv
  | [], g => ([], g, [])
  | e :: t, g =>
    if e.close then
      let r := foldEvs t 0xFFFFFFFFFFFFFFFF
      ((g, e.tag.2) :: r.1, r.2)
    else
      match e.word with
      | some w => foldEvs t (misr g w)
      | none => ([], g, e :: t)

/-- The first two unfilled signature entries take a window's lead signature (06 R230, R237). -/
def fillSig (win : Nat) (g : BitVec 64) : List REntry → List REntry
  | [] => []
  | e :: t =>
    if e.kind = 5 ∧ e.val = none then { e with addr := some (BitVec.ofNat 22 win), val := some (loWord g) } :: fillSig win g t
    else if e.kind = 6 ∧ e.val = none then { e with addr := some (BitVec.ofNat 22 win), val := some (hiWord g) } :: t
    else e :: fillSig win g t

/-- The window length W in bundles (06 R236). -/
def Region.window (r : Region) : Nat := if r.w16k then 16384 else 4096

/-! ### Mismatch (06 R240-R244) -/

/-- What a mismatch of region r reports, apart from the halt (06 R241): record, interrupt source, MKIND and MCNT, and in
a pair the relinquish (07 R290). -/
def State.reportMismatch (s : State) (r mkind win baddr : Nat) : State :=
  let s := s.modRegion r (fun x => { x with mkind := BitVec.ofNat 8 mkind, mcnt := satInc x.mcnt })
  let s := (s.event 0x0201 6 (0x10 + r) [at_ 8 r ||| at_ 0 mkind, BitVec.ofNat 32 win, BitVec.ofNat 32 baddr]).arrive (0x10 + r)
  s.relinquishFor 1

/-- Both lanes of region r stop: the trail repeats nothing more, and no window waits for a verdict (06 R241). -/
def Region.stopOwl (x : Region) : Region :=
  { x with outstanding := [], leadSigs := [], trailSigs := [], leadFault := none, trailFault := none, mxWait := false }

/-- A mismatch of a paired region (06 R241): both lanes stop, LP 2r halts with cause 0x02, and nothing of its task leaves. -/
def State.mismatch (s : State) (r mkind win baddr : Nat) : State :=
  ((s.haltLp (2 * r) 0x02).modRegion r Region.stopOwl).reportMismatch r mkind win baddr

/-- The closes that a lane's events hold back, in order. -/
def Lane.closes (x : Lane) : List SigEv := x.evq.filter (fun e => e.close)

/-- The window that the lead, or the trail, of region r executes now. -/
def State.leadNow (s : State) (r : Nat) : Nat := (s.region r).leadWin + (s.lane (2 * r)).closes.length
def State.trailNow (s : State) (r : Nat) : Nat := (s.region r).trailWin + (s.lane (2 * r + 1)).closes.length

/-- The lead's bundle at the end of window w (06 R241), or its latest one where the window has no end yet. -/
def State.leadEnd (s : State) (r w : Nat) : Nat :=
  match (s.region r).leadSigs.find? (fun e => e.win == w) with
  | some e => e.baddr
  | none => (((s.lane (2 * r)).closes[w - (s.region r).leadWin]?).map (fun e => e.tag.2)).getD (s.lane (2 * r)).last

/-- A mismatch that the trail of region r meets in its window (06 R240, R241). -/
def State.trailMismatch (s : State) (r mkind : Nat) : State :=
  s.mismatch r mkind (s.trailNow r) (s.leadEnd r (s.trailNow r))

/-! ### Folding (06 R233, R235, R237, R247) -/

/-- Signatures of windows numbered from `n` on, as Owl-A and Owl-B keep them. -/
def windows (ws bs : List (BitVec 64 × Nat)) (n : Nat) : List WinSig :=
  (List.range ws.length).map (fun k =>
    { win := n + k, sig := (ws.getD k (0, 0)).1, sigB := (bs.getD k (0, 0)).1, baddr := (ws.getD k (0, 0)).2 })

/-- Owl-A and Owl-B compare all four MISRs of region r: a difference between their copies is OWLDIS (06 R247). -/
def State.owlsCompare (s : State) (r : Nat) : State :=
  let x := s.lane (2 * r)
  let y := s.lane (2 * r + 1)
  if dualOwl ∧ (x.sig ≠ x.sigB ∨ y.sig ≠ y.sigB) ∧ (s.lp (2 * r)).st = .run then s.trailMismatch r 6 else s

/-- The known events of a lane fold; each window that this completes goes to the Owl (06 R237). -/
def State.fold (s : State) (l : Nat) : State :=
  let f := foldEvs (s.lane l).evq (s.lane l).sig
  let g := foldEvs (s.lane l).evq (s.lane l).sigB
  let s := s.modLane l (fun x => { x with sig := f.2.1, sigB := g.2.1, evq := f.2.2 })
  match s.side l with
  | .solo => s
  | .lead => (s.modRegion (l / 2) (fun r =>
      let ws := windows f.1 g.1 r.leadWin
      { r with leadSigs := r.leadSigs ++ ws, leadWin := r.leadWin + f.1.length
               fifo := ws.foldl (fun q w => fillSig w.win w.sig q) r.fifo })).owlsCompare (l / 2)
  | .trail => (s.modRegion (l / 2) (fun r =>
      { r with trailSigs := r.trailSigs ++ windows f.1 g.1 r.trailWin, trailWin := r.trailWin + f.1.length })).owlsCompare (l / 2)

/-! ### Errors in the region's memories (06 R244) -/

/-- The bit errors of region r in memory `m`, at the addresses of a test (06 R244; notes/assumptions/606.md). -/
def State.bitErrors (s : State) (r m : Nat) (t : Nat → Bool) : List (Nat × Nat × Bool) :=
  (s.region r).errs.filter (fun e => e.1 == m && t e.2.1)

/-- The lane's logical processor meets an uncorrectable error (06 R244). -/
def State.memFail (s : State) (l baddr : Nat) : State :=
  let r := l / 2
  if s.paired r then s.mismatch r 5 (if l % 2 = 0 then s.leadNow r else s.trailNow r) baddr
  else
    match s.lpOfLane l with
    | some p => (s.haltLp p 0x02).reportMismatch r 5 (s.region r).leadWin baddr
    | none => s

/-- A single-bit error is corrected, counted and recorded (06 R244). -/
def State.memCorrect (s : State) (r : Nat) (e : Nat × Nat × Bool) : State :=
  (s.modRegion r (fun x => { x with errs := x.errs.erase e, prew := satInc x.prew })).event 0x0202 2 (0x10 + r)
    [at_ 8 r ||| at_ 0 e.1, BitVec.ofNat 32 e.2.1, 0]

/-- A read of memory `m` of region r by lane l at the addresses of a test (06 R244); false where an uncorrectable error
stopped the reader. -/
def State.memCheck (s : State) (l r m : Nat) (t : Nat → Bool) (baddr : Nat) : State × Bool :=
  let es := s.bitErrors r m t
  let s := (es.filter (fun e => !e.2.2)).foldl (fun s e => s.memCorrect r e) s
  if es.any (fun e => e.2.2) then (s.memFail l baddr, false) else (s, true)

/-! ### The verdict (06 R237, R243; 02 R99) -/

/-- Both lanes have reached the halt that closed the window: the logical processor halts with cause 0x01 for a program
fault and 0x03 for MAXRUN (06 R243). -/
def State.pairedHalt (s : State) (r : Nat) : State :=
  match (s.region r).leadFault, (s.region r).trailFault with
  | some a, some b =>
    if a = b ∧ (s.region r).leadSigs = [] ∧ (s.region r).trailSigs = [] then
      (s.haltLp (2 * r) (if a = 0 then 0x03 else 0x01)).modRegion r Region.stopOwl
    else s
  | _, _ => s

/-- Each Owl's verdict over a window's signatures: Owl-A compares its own copies, Owl-B checks the lead value in the FIFO
against its own and then its own copies (06 R237, R247). -/
def verdictA (a b : WinSig) : Bool := a.sig == b.sig && a.win == b.win
def verdictB (a b : WinSig) : Bool := a.sig == a.sigB && a.sigB == b.sigB && a.win == b.win

/-- OWL_VERDICT (06 R237, R241, R247): the next window that both lanes have closed; on the part with two Owls, verdicts that
differ are OWLDIS. -/
def owlVerdictOp (r : Nat) (s : State) : State :=
  match (s.region r).leadSigs, (s.region r).trailSigs with
  | a :: as, b :: bs =>
    let s := s.modRegion r (fun x => { x with leadSigs := as, trailSigs := bs })
    if dualOwl ∧ verdictA a b ≠ verdictB a b then s.mismatch r 6 a.win a.baddr
    else if verdictA a b then (s.modRegion r (fun x => { x with wins := x.wins + 1 })).pairedHalt r
    else s.mismatch r 1 a.win a.baddr
  | _, _ => s

/-! ### The status record (06 R269) -/

def Cov.code : Cov → Nat
  | .paired => 0 | .split => 1 | .splitPend => 2 | .rejoin => 3 | .exPrep => 4 | .handover => 5 | .exRun => 6 | .unavail => 7

/-- The ten words of a region's status record; zeros for a region that is not enabled (11 R421). -/
def State.regionWords (s : State) (r : Nat) : List Word :=
  if !regionPresent r then List.replicate 10 0
  else
    let x := s.region r
    [at_ 28 x.cov.code ||| flagAt 27 (x.owlt || dualOwl) ||| flagAt 26 dualOwl ||| flagAt 25 x.w16k
       ||| at_ 8 x.mkind.toNat ||| at_ 0 x.mcnt.toNat,
     loWord x.wins, hiWord x.wins, at_ 16 x.fhwm.toNat ||| at_ 0 x.prew.toNat, x.fstall, x.splitn,
     loWord x.ucstart, hiWord x.ucstart, loWord x.ucend, hiWord x.ucend]

end Sys2Proof.Machine
end

