-- ==== Sys2Proof/Machine/Program.lean ====
section
/-! DEFINITION. A program comes into effect: code, data, configuration sections, retentive carryover, at a full load and
at boot (04 R170, R172, R178, R179; 05 R222; 08 R306; 14 R502). -/

namespace Sys2Proof.Machine

/-! ### MRAM banks (04 R142) -/

def Mram.current (m : Mram) : List Byte := if m.curB then m.bankB else m.bankA
def Mram.setFree (m : Mram) (bs : List Byte) : Mram := if m.curB then { m with bankA := bs } else { m with bankB := bs }

/-! ### Code and data -/

/-- The bank of code SRAM that a CODE section of region r goes to: the active one, or the load bank. -/
def State.codeBase (s : State) (r : Nat) (load : Bool) : Nat :=
  (2 * r + (if (s.region r).active != load then 1 else 0)) * 2 ^ 18

/-- Every CODE section in the active bank of its region, and every load bank empty (04 R170, R172). -/
def State.loadCode (s : State) (g : Prog) : State :=
  let put := fun (m : SMap (BitVec 192)) (c : Nat × Nat × List (BitVec 192)) =>
    SMap.setList (fun _ => 0) m (s.codeBase c.1 false + c.2.1) c.2.2
  { s with code := g.code.foldl put [] }

/-- The CODE sections of region r in its load bank (06 R259). -/
def State.loadSpare (s : State) (r : Nat) (g : Prog) : State :=
  let s := s.emptyLoadBank r
  let put := fun (m : SMap (BitVec 192)) (c : Nat × Nat × List (BitVec 192)) =>
    SMap.setList (fun _ => 0) m (s.codeBase r true + c.2.1) c.2.2
  { s with code := (g.code.filter (fun c => c.1 == r)).foldl put s.code }

/-! ### Retentive blocks (04 R178, R179) -/

/-- The block of an old list that a new block carries over: equal IDENT and LEN. -/
def carriedBlock (old : List RetBlock) (b : RetBlock) : Option RetBlock := old.find? (fun o => o.ident == b.ident && o.len == b.len)

/-- Blocks take the values that `m` holds for the blocks they carry over. -/
def State.carryBlocks (s : State) (old : List RetBlock) (m : SMap Word) (bs : List RetBlock) : State :=
  bs.foldl (fun s b =>
    match carriedBlock old b with
    | some o => s.memSetList b.addr (SMap.getList (fun _ => 0) m o.addr b.len)
    | none => s) s

/-- One log commit that holds every word of some blocks (04 R177, R179). -/
def State.logWhole (s : State) (bs : List RetBlock) : State :=
  s.logAppend (bs.flatMap (fun b => (changedRuns (List.replicate b.len true) 0 none).map (fun r => (b.addr + r.1, r.2))))

/-- The log holds no value of a block that the program has no more. -/
def State.dropLog (s : State) (t : Nat → Bool) : State :=
  { s with mram := { s.mram with log :=
      (s.mram.log.map (fun c => { c with runs := c.runs.filter (fun r => !t r.addr) })).filter (fun c => c.runs ≠ []) } }

/-! ### Configuration sections -/

/-- The IRQ section (08 R306, R307): thresholds, and the configuration of every source (notes/assumptions/405.md). -/
def State.applyIrq (s : State) (ws : List Word) : State :=
  let s := (List.range 8).foldl (fun s p => s.modLp p (fun x => { x with thr := (wordAt ws 1).extractLsb' (4 * p) 4 })) s
  (List.range 256).foldl (fun s q =>
    if q = 0x2E ∨ q = 0x2F ∨ reservedSource q then s
    else s.modSrc q (fun x => { x with cfg := (((irqEntries ws).find? (fun e => e.1 == q)).map (fun e => cfgWord q e.2)).getD 0 })) s

/-- A program's sections go to their units, and every task is as never run. -/
def State.applySections (s : State) (g : Prog) : State :=
  let s := { s with fbSout := [], fbRun := [] }
  let s := { s with busOut := s.busOut ++ s.stationRecords, tasks := [], ptGen := s.ptGen + 1, ptHost := initialRecords g.axes, cfgDue := true, sinks := [], outForced := 0 }
  let s := (List.range 4).foldl (fun s r => s.modRegion r (fun x => { x with w16k := g.modes.getLsbD (8 + r) })) s
  let s := (s.applyIrq g.irq).applyRack g.rack
  if g.badger = [] then s else s.bdApply g.badger

/-- A program is in effect: its code, its data over zeros, and its sections (04 R170, R172). -/
def State.installProgram (s : State) (g : Prog) : State :=
  (({ s with prog := g }.loadCode g).initWords (fun _ => true)).applySections g

/-! ### Full load (04 R170) -/

/-- Every logical processor is in STOP after a full load (R170), one in HALT too; that of a region whose Owl test failed
stays in HALT (06 R246). -/
def State.loadStops (s : State) : State :=
  (List.range 8).foldl (fun s p =>
    let x := s.lp p
    if s.lpExists p ∧ x.st = .halt ∧ x.unavail = false then s.leaveHalt p else s) s

/-- Steps 4 and 5 of R170 for an image that passed its checks. Carried blocks take the words as they stand in word data
(notes/assumptions/413.md). -/
def State.loadProgram (s : State) (img : List Byte) : State :=
  let old := s.prog.retain
  let mem := s.mem
  let g := parseImage img
  let s := { s with mram := { s.mram.setFree img with curB := !s.mram.curB }, force := [] }
  let s := (s.installProgram g).carryBlocks old mem g.retain
  ((s.dropLog (fun _ => true)).logWhole g.retain).loadStops

/-- LOAD_COMPLETE (04 R169-R171; 11 R420): the image is checked; a refused one, and one whose module has left STOP meanwhile,
leaves everything as it was (notes/assumptions/406.md). A standby joins afterwards (07 R298). -/
def loadCompleteOp (s : State) : State :=
  match s.hc.op with
  | some o =>
    if o.cmd = 0x10 ∧ o.phase = 2 then
      let c := s.imageCause o.bytes
      if c ≠ 0 then s.emptyFreeBank.finishOp .refused (0x100 + BitVec.ofNat 16 c) []
      else if s.forced ∧ o.forceclr = false then s.finishOp .refused 0x19 []
      else if s.mstate ≠ .stop then s.emptyFreeBank.finishOp .refused 0x10 []
      else
        let s := s.loadProgram o.bytes
        { s with pl := { s.pl with autoDue := s.pl.autoDue || decide (s.pl.role = 2) } }.finishOp .ok 0 []
    else s
  | none => s

/-! ### At boot (04 R172, R178; 16 R534, R535) -/

/-- Step 8 of the boot sequence: the program of the current bank, its retentive blocks from the log, the clock mode. -/
def State.bootProgram (s : State) : State :=
  if s.mram.current = [] then { s with prog := {} }
  else
    let g := parseImage s.mram.current
    let s := (s.scanLog.installProgram g).reloadBlocks g.retain
    { s with warm := g.modes.getLsbD 5 }

end Sys2Proof.Machine
end

