-- ==== Sys2Proof/Machine/Coverage.lean ====
section
/-! DEFINITION. Coverage changes of a region and the online program exchange (06 R248-R268). -/

namespace Sys2Proof.Machine

/-! ### Points at which a change may take effect (06 R249, R264) -/

/-- LP 2r is in STOP, or idle in RUN at a boundary, with no active handler. -/
def State.atBoundary (s : State) (r : Nat) : Bool :=
  let x := s.lp (2 * r)
  decide (x.st = .stop ∨ (x.st = .run ∧ x.phase = .idle)) && decide (x.levels = []) && !x.idleHandler

/-! ### Paired to split (06 R250, R251) -/

/-- PAIRED_TO_SPLIT: LP 2r+1 appears in the state that the request named. -/
def pairedToSplitOp (r : Nat) (s : State) : State :=
  match (s.region r).pendReq with
  | some (true, runOdd) =>
    if (s.region r).cov = .splitPend ∧ s.atBoundary r ∧ s.owlPassed (2 * r) ∧ (s.region r).outstanding = [] then
      let s := s.freshOwl r
      let s := s.modRegion r (fun x => { x with cov := .split, back := .split, pendReq := none, splitn := satInc x.splitn
                                                ucstart := s.ax0, ucend := 0 })
      let s := s.event 0x0204 3 (0x10 + r) [BitVec.ofNat 32 r, loWord s.ax0, hiWord s.ax0]
      let s := s.modLp (2 * r + 1) (fun x => { x with st := .stop, phase := .idle, hcause := 0 })
      if runOdd ∧ s.prog.valid then s.enterRun (2 * r + 1) else s
    else s
  | _ => s

/-! ### Rejoin (06 R252-R255, R264) -/

/-- REJOIN: a requested rejoin of a split region, or the one that follows an exchange. After a failed automatic rejoin
(stage 9) it takes a request. -/
def rejoinOp (r : Nat) (s : State) : State :=
  let x := s.region r
  let asked := decide (x.pendReq = some (false, false)) || decide (x.pendReq = some (false, true))
  let ok := (decide (x.cov = .split) && asked && decide ((s.lp (2 * r + 1)).st = .stop)) ||
            (decide (x.cov = .exRun) && (asked || decide (x.exStage ≠ 9)))
  if ok ∧ s.atBoundary r then
    s.modRegion r (fun x => { x with cov := .rejoin, back := x.cov, pendReq := none
                                     active := if x.cov = .exRun then !x.active else x.active })
  else s

/-- The lane-local state of the copy source, in the other lane (06 R252, R253 steps 2 and 3). -/
def State.copyLane (s : State) (src dst : Nat) : State :=
  s.setLane dst { s.lane src with items := [], blq := [], iuq := [], wait := false }

/-- The windows of the Owl test in order (06 R245): the window length W, and the bit of the trail's first event word that
the injector inverts, if any. -/
def owlTestWindows : List (Nat × Option (Fin 64)) :=
  [4096, 16384].flatMap (fun w => (w, none) :: (List.finRange 64).map (fun i => (w, some i)))

/-- The Owl test of a region (06 R245, R246): the first of its 130 windows whose report is wrong (a mismatch without
injection, a pass with one); `wrong` names the windows, by W = 16,384 and the bit, that a faulty Owl reports wrongly. -/
def owlTest (wrong : List (Bool × Option (Fin 64))) : Option (Nat × Option (Fin 64)) :=
  owlTestWindows.find? (fun w => wrong.any (fun x => x.1 == decide (w.1 = 16384) && x.2 == w.2))

/-- The EXCHANGE of region r ends as a long operation (11 R424; notes/assumptions/610.md). -/
def State.exchangeEnds (s : State) (r : Nat) (st : RStat) : State :=
  if s.hc.op.any (fun o => o.cmd == 0x11 && o.region == r) then s.finishOp st 0 [] else s

/-- REJOIN_DONE: the copy of steps 2 and 3 stands, and the verify of step 4 and the Owl test of step 5, where the variant
has it, decide (06 R253, R254, R264; notes/assumptions/610.md). -/
def rejoinDoneOp (r : Nat) (verifyOk : Bool) (wrong : List (Bool × Option (Fin 64))) (s : State) : State :=
  let x := s.region r
  if x.cov ≠ .rejoin then s
  else
    let src := if x.back = .exRun then 2 * r + 1 else 2 * r
    let s := s.copyLane src (if x.back = .exRun then 2 * r else 2 * r + 1)
    if !verifyOk ∨ (!dualOwl ∧ (owlTest wrong).isSome) then
      let s := s.modRegion r (fun x => { x with cov := x.back, mkind := if verifyOk then 7 else 1
                                                active := if x.back = .exRun then !x.active else x.active
                                                exStage := if x.back = .exRun then 9 else x.exStage })
      (s.event 0x0206 5 (0x10 + r) []).exchangeEnds r .aborted
    else
      let s := s.freshOwl r
      let s := s.modRegion r (fun x => { x with cov := .paired, back := .paired, onTrail := false, owlt := x.owlt || !dualOwl
                                                ucend := s.ax0, exStage := 0 })
      let s := s.event 0x0205 3 (0x10 + r) [BitVec.ofNat 32 r, loWord s.ax0, hiWord s.ax0]
      if x.back = .exRun then (s.event 0x0207 3 (0x10 + r) [BitVec.ofNat 32 r, loWord x.ucstart, loWord s.ax0]).exchangeEnds r .ok
      else s

/-! ### The COVER command (06 R248, R249, R256) -/

/-- The refusal of a COVER, or 0 (06 R256; 11 R420; notes/assumptions/608.md). -/
def State.coverRefusal (s : State) (r : Nat) (split : Bool) : BitVec 16 :=
  let x := s.region r
  let p := s.lp (2 * r)
  if s.pl.role = 2 then 0x14
  else if !regionPresent r ∨ x.cov = .unavail ∨ p.unavail then 0x13
  else if x.pendReq.isSome ∨ (x.cov ≠ .paired ∧ x.cov ≠ .split ∧ !(x.cov = .exRun ∧ x.exStage = 9)) then 0x12
  else if split ≠ decide (x.cov = .paired) then 0x11
  else if p.st = .boot ∨ p.st = .halt then 0x10
  else if !split ∧ ((x.cov = .split ∧ (s.lp (2 * r + 1)).st ≠ .stop) ∨ p.levels ≠ []) then 0x10
  else 0

/-- A coverage change is requested; it takes effect at once where LP 2r is in STOP or idle (06 R249). -/
def State.coverNow (s : State) (r : Nat) (split runOdd : Bool) : State :=
  let s := s.modRegion r (fun x => { x with pendReq := some (split, runOdd), cov := if split then .splitPend else x.cov })
  if split then pairedToSplitOp r s else rejoinOp r s

/-! ### The checks of an exchange (06 R257, R258, R266-R268) -/

/-- The word that an image sets at an address. -/
def Prog.imageWord (g : Prog) (a : Nat) : Word := (((g.wordInits.reverse).find? (fun e => e.1 == a)).map (fun e => e.2)).getD 0

/-- The listed records of region r: address, IDENT, TYPE and AXIS. -/
def Prog.instanceList (g : Prog) (r : Nat) : List (Nat × Word × Nat) :=
  (g.instances.get (fun _ => []) r).map (fun a => (a, g.imageWord (a + 1), fld (g.imageWord a) 31 20))

/-- The retentive blocks of an LP. -/
def Prog.blocksOf (g : Prog) (p : Nat) : List RetBlock := g.retain.filter (fun b => b.owner == p)

/-- The records that carry over: old address, new address (06 R266). -/
def carriedRecords (old new : Prog) (r : Nat) : List (Nat × Nat) :=
  (new.instanceList r).filterMap (fun x =>
    ((old.instanceList r).find? (fun y => y.2.1 == x.2.1 && y.2.2 == x.2.2)).map (fun y => (y.1, x.1)))

/-- The blocks of LP 2r that carry over: old address, new address, length (06 R267). -/
def carriedBlocks (old new : Prog) (r : Nat) : List (Nat × Nat × Nat) :=
  (new.blocksOf (2 * r)).filterMap (fun b => (carriedBlock (old.blocksOf (2 * r)) b).map (fun o => (o.addr, b.addr, b.len)))

/-- The new range of a carried item whose address changes meets no old range of another carried item (06 R268). -/
def carryOk (old new : Prog) (r : Nat) : Bool :=
  let items := (carriedRecords old new r).map (fun x => (x.1, x.2, 8)) ++ carriedBlocks old new r
  items.all (fun x => x.1 == x.2.1 || items.all (fun y => y == x || !meets x.2.1 x.2.2 y.1 y.2.2))

/-- No two records of region r, and no two blocks of LP 2r, share one IDENT (06 R257). -/
def identsOk (g : Prog) (r : Nat) : Bool :=
  decide (((g.instanceList r).map (fun x => x.2.1)).Nodup) && decide (((g.blocksOf (2 * r)).map (fun b => b.ident)).Nodup)

/-- The sections of one type, target by target, apart from those of one target. -/
def sameSections (a b : List Byte) (ty except : Nat) : Bool :=
  let f := fun img => ((imgSects img).filter (fun c => c.ty == ty && c.tg != except)).map (fun c => (c.tg, c.addr, c.bytes img))
  f a == f b

/-- The header fields that no exchange changes (04 R143; 06 R258). -/
def sameHeader (a b : List Byte) : Bool := a.take 0x14 == b.take 0x14 && (a.drop 0x20).take 32 == (b.drop 0x20).take 32

/-- The new image differs from the old one only in the items of R258 (notes/assumptions/607.md). -/
def diffOk (a b : List Byte) (r : Nat) : Bool :=
  let p := 2 * r
  let g := parseImage a
  let h := parseImage b
  let outside := fun (x : Prog) => x.wordInits.filter (fun e => !inSlice r e.1)
  let irq := fun (x : Prog) => (irqEntries x.irq).filter (fun e => fld e.2 27 24 != p)
  sameHeader a b && sameSections a b 0x01 r && [0x04, 0x05, 0x06, 0x09].all (fun ty => sameSections a b ty p)
    && sameSections a b 0x08 r && [0x03, 0x10, 0x11, 0x12, 0x13, 0x15].all (fun ty => sameSections a b ty 0x100)
    && outside g == outside h && g.retain.filter (fun x => x.owner != p) == h.retain.filter (fun x => x.owner != p)
    && irq g == irq h && wordAt g.irq 1 == wordAt h.irq 1

/-- The refusal of an EXCHANGE request before its transfer, or 0 (06 R257). -/
def State.exchangeRefusal (s : State) (r : Nat) : BitVec 16 :=
  let x := s.region r
  let idle := fun k => ((s.region k).cov = .paired ∨ (s.region k).cov = .split ∨ (s.region k).cov = .unavail) ∧ (s.region k).pendReq = none
  if s.pl.role ≠ 0 then 0x14
  else if !regionPresent r ∨ x.cov = .unavail ∨ (s.lp (2 * r)).unavail then 0x13
  else if x.cov = .split then 0x11
  else if (s.lp (2 * r)).st ≠ .run then 0x10
  else if (List.range 4).any (fun k => !decide (idle k)) then 0x12
  else 0

/-- The refusal of a transferred image, or 0 (06 R257). -/
def State.exchangeImage (s : State) (r : Nat) (img : List Byte) (forceclr : Bool) : BitVec 16 :=
  let g := parseImage img
  let c := s.imageCause img
  if c ≠ 0 then 0x100 + BitVec.ofNat 16 c
  else if !diffOk s.mram.current img r then 0x16
  else if !identsOk g r ∨ !identsOk s.prog r then 0x17
  else if !carryOk s.prog g r then 0x18
  else if s.forced ∧ !forceclr then 0x19
  else 0

/-! ### Preparation and hand-over (06 R259-R264) -/

/-- EXCHANGE_PREPARED: the image passes, its code stands in the load bank, and the exchange waits for the boundary. -/
def exchangePreparedOp (r : Nat) (s : State) : State :=
  let x := s.region r
  if x.cov = .exPrep ∧ x.exStage = 2 then
    let c := s.exchangeImage r x.exBytes x.exForce
    if c ≠ 0 then
      ((s.modRegion r (fun x => { x with cov := .paired, exStage := 0, exBytes := [] })).emptyFreeBank).finishOp .refused c []
    else
      let op := s.hc.op.map (fun o => { o with phase := 3 })
      let s := { s with mram := s.mram.setFree x.exBytes, hc := { s.hc with op := op } }
      (s.loadSpare r (parseImage x.exBytes)).modRegion r (fun x => { x with exStage := 3 })
  else s

/-- A carried record at its new address: ORIGIN, ET or CV, and word 0 bits [7:0] from the old record; the rest from the
new image (06 R266). -/
def carriedWords (g : Prog) (old : List Word) (a : Nat) : List Word :=
  [(g.imageWord a &&& 0xFFFFFF00) ||| (wordAt old 0 &&& 0xFF), g.imageWord (a + 1), g.imageWord (a + 2), g.imageWord (a + 3)]
    ++ (old.drop 4).take 4

/-- Steps 2 and 3 of the hand-over: new WDATA in the slice, then the carried blocks, then the records (06 R260, R266,
R267); the values are those at B. -/
def State.carryOver (s : State) (g : Prog) (r : Nat) : State :=
  let old := s.prog
  let mem := s.mem
  let at_B := fun a n => SMap.getList (fun _ => (0 : Word)) mem a n
  let s := (g.wordInits.filter (fun e => inSlice r e.1)).foldl (fun s e => s.memSet e.1 e.2) s
  let s := (carriedBlocks old g r).foldl (fun s b => s.memSetList b.2.1 (at_B b.1 b.2.2)) s
  (g.instanceList r).foldl (fun s x =>
    match (carriedRecords old g r).find? (fun c => c.2 == x.1) with
    | some c => s.memSetList x.1 (carriedWords g (at_B c.1 8) x.1)
    | none => s.memSetList x.1 ((List.range 8).map (fun k => g.imageWord (x.1 + k)))) s

/-- The IRQ entries of LP p of a new program (06 R260). -/
def State.loadIrqOf (s : State) (old new : Prog) (p : Nat) : State :=
  let of := fun (g : Prog) => (irqEntries g.irq).filter (fun e => fld e.2 27 24 == p)
  let s := (of old).foldl (fun s e => s.modSrc e.1 (fun x => { x with cfg := cfgWord e.1 0 })) s
  (of new).foldl (fun s e => s.modSrc e.1 (fun x => { x with cfg := cfgWord e.1 e.2 })) s

/-- The tasks of LP p under a new table: PEND stays only where TRIG and ARG are the same, OVR clears (06 R262). A running GAP
interval ends here: the task receives its trigger at step 6 (04 R155; notes/assumptions/612.md). -/
def State.carryTasks (s : State) (old new : Prog) (p : Nat) : State :=
  (List.range 32).foldl (fun s t =>
    let same := (old.task p t).trig == (new.task p t).trig && (old.task p t).arg == (new.task p t).arg
    s.modTask p t (fun x => { x with pend := x.pend && same, ovr := 0, gap := false, prevIn := [] })) s

/-- HANDOVER (06 R260 steps 1-5): lane 2r stops, the carried items and the new data are in place, and LP 2r has its new
tables. The log commit of step 5 counts with step 6: a reset before it restores the old blocks (R265). -/
def handoverOp (r : Nat) (s : State) : State :=
  let x := s.region r
  let p := 2 * r
  if x.cov = .exPrep ∧ x.exStage = 3 ∧ s.atBoundary r ∧ (s.lp p).st = .run ∧ s.owlPassed p then
    let old := s.prog
    let g := parseImage x.exBytes
    let s := s.modRegion r (fun x => { x with cov := .handover, ucstart := s.ax0, ucend := 0, heldTrig := [] })
    let s := s.carryOver g r
    let s := if x.exKeep then s.copyLane p (p + 1) else s
    let s := ({ s with prog := g }.loadIrqOf old g p).carryTasks old g p
    let s := s.freshOwl r
    if x.exForce then { s with force := [] } else s
  else s

/-- HANDOVER_DONE (06 R260 steps 5 and 6, R262; 04 R155): one log commit holds the new and moved blocks, the pointer is
switched, lane 2r+1 executes LP 2r from the load bank, the held triggers and the free-running tasks' come (notes/assumptions/609.md). -/
def handoverDoneOp (r : Nat) (s : State) : State :=
  let x := s.region r
  let p := 2 * r
  if x.cov = .handover then
    let old := parseImage s.mram.current
    let moved := (s.prog.blocksOf p).filter (fun b => !((old.blocksOf p).any (fun o => o == b)))
    let s := (s.dropLog (fun a => (old.blocksOf p).any (fun o => decide (o.addr ≤ a ∧ a < o.addr + o.len)) && !s.prog.retentive a)).logWhole moved
    let s := { s with mram := { s.mram with curB := !s.mram.curB } }
    let s := s.modRegion r (fun x => { x with cov := .exRun, back := .exRun, onTrail := true, exStage := 4, exBytes := [], heldTrig := [] })
    let s := x.heldTrig.foldl (fun s t => s.trigger p t.1 t.2) s
    (List.range 32).foldl (fun s t =>
      if (s.prog.task p t).trig = 0 ∧ (s.task p t).pend = false then s.trigger p t 0 else s) s
  else s

end Sys2Proof.Machine
end

