-- ==== Sys2Proof/Machine/Pair.lean ====
section
/-! DEFINITION. The pair rules: token, link, execution in step, joining, health, relinquish, takeover, switchover, and the
ports of the pair link unit (07 R270-R302; 16 R536). -/

namespace Sys2Proof.Machine

def State.modPair (s : State) (f : Pair → Pair) : State := { s with pl := f s.pl }

def PState.code : PState → BitVec 3
  | .unsync => 0 | .syncing => 1 | .catchup => 2 | .sync => 3 | .ready => 4

/-- A SEQ that is newer than the last accepted one (07 R277; notes/assumptions/717.md). -/
def newerSeq (seq : Word) : Option Word → Bool
  | none => true
  | some q => decide (1 ≤ (seq - q).toNat ∧ (seq - q).toNat < 2 ^ 31)

/-- A link frame comes (07 R277): one whose tag fails, or that is not newer, is discarded and counted, and puts the standby
out of step if it belongs to a message of the execution in step or of a join (notes/assumptions/703.md). -/
def State.linkFrame (s : State) (hd : LinkHead) (stepped : Bool) (f : State → State) : State :=
  if s.pl.link = false then s
  else if hd.tag && newerSeq hd.seq s.pl.rxSeq then f (s.modPair (fun x => { x with rxSeq := some hd.seq }))
  else
    let s := s.modPair (fun x => { x with err := satInc x.err })
    if stepped ∧ s.pl.role = 2 then s.unsync else s

/-! ### Health (07 R287-R289) -/

/-- The partner runs the same program, and the same pair protocol version (07 R284, R288). -/
def State.sameProgram (s : State) : Bool :=
  match s.pl.partner with
  | some h => s.prog.valid && decide (h.prog = long (wordAt (wordsOfBytes s.prog.sm3) 0) (wordAt (wordsOfBytes s.prog.sm3) 1))
  | none => false
def State.sameProtocol (s : State) : Bool :=
  match s.pl.partner with
  | some h => decide (h.proto = s.fwProto)
  | none => false

/-- A failure at an instant lies within the last ms milliseconds. -/
def State.failedWithin (s : State) (ms : Nat) (at0 : Option Nat) : Bool :=
  match at0 with
  | some t => decide (s.time - t ≤ ms * 12000000)
  | none => false

/-- TESTOK (07 R287, R288): no test has failed in its last full coverage period (notes/assumptions/701.md). -/
def State.testOk (s : State) : Bool :=
  !(s.failedWithin 600000 s.pl.scrubBad || s.failedWithin 60000 s.pl.bistBad || s.failedWithin 10000 s.pl.owlBad ||
    s.failedWithin 10 s.pl.loopBad)

/-- A test ends at the current time: the instant of its latest failure. -/
def State.lastBad (s : State) (old : Option Nat) (pass : Bool) : Option Nat := if pass then old else some s.time

/-- The health word (07 R288). -/
def State.healthWord (s : State) : BitVec 64 :=
  let x := s.pl
  let lok := decide (s.fdLs.extractLsb' 0 2 = 0)
  let need := s.sameProtocol && !s.flost && x.supok && lok && !s.slost && x.badgok && x.mramok && s.testOk && s.sameProgram
  let fit := decide (x.ps = .sync) && need && (x.lane0 || x.lane1) && !x.osigmm
  let hi := flagAt 31 fit ||| at_ 28 x.ps.code.toNat ||| flagAt 27 s.sameProgram ||| flagAt 26 s.sameProtocol ||| flagAt 25 x.lane0
    ||| flagAt 24 x.lane1 ||| flagAt 23 (!s.flost) ||| flagAt 22 x.supok ||| flagAt 21 lok ||| flagAt 20 (!s.slost)
    ||| flagAt 19 x.badgok ||| flagAt 18 x.mramok ||| flagAt 17 s.testOk ||| flagAt 16 x.osigmm
    ||| at_ 8 x.disc.toNat ||| at_ 0 x.scerr.toNat
  long (at_ 24 x.bistf.toNat ||| at_ 16 x.owlf.toNat ||| at_ 8 x.lbf.toNat ||| at_ 0 x.hseq.toNat) hi

/-- HEALTH_UPDATE (07 R288): the word is recomputed, and DISC counts the next 10 ms. -/
def healthUpdateOp (s : State) : State :=
  let h := s.healthWord
  s.modPair (fun x => { x with health := h, disc := 0 })

/-- The standby's HEALTH report (07 R289). -/
def State.healthReport (s : State) : List Word :=
  [loWord s.pl.health, hiWord s.pl.health, s.pl.scrubs, s.pl.bists, s.pl.owlWins, s.pl.loops, s.pl.discTotal, s.pl.lag]
    ++ (List.range 4).flatMap s.regionWords

/-- The active takes the partner's HEALTH (07 R282, R290). -/
def State.takeHealth (h : List Word) (s : State) : State :=
  let w := long (wordAt h 0) (wordAt h 1)
  let newDiff := w.getLsbD 48 && !s.pl.phealth.getLsbD 48
  let s := s.modPair (fun x => { x with phealth := w, phealthAt := some s.time })
  if newDiff then s.event 0x0705 5 0x3A [] else s

/-- HEALTH (07 R277, R282, R287, R288, R290): the standby sends its report, which HSEQ counts; the active takes the
partner's. -/
def healthOp (h : List Word) (hd : LinkHead) (s : State) : State :=
  if s.pl.role = 2 then (s.pairSend (.health s.healthReport)).modPair (fun x => { x with hseq := x.hseq + 1 })
  else if s.pl.role = 1 then s.linkFrame hd false (State.takeHealth h)
  else s

/-- The scrub corrects the single-bit errors of region r's memories (06 R244). -/
def State.scrubRegion (s : State) (r : Nat) : State :=
  ((s.region r).errs.filter (fun e => !e.2.2)).foldl (fun s e => s.memCorrect r e) s
/-- The bit errors of the regions' memories: single, and uncorrectable. -/
def State.regionErrors (s : State) (double : Bool) : Nat :=
  ((List.range 4).flatMap (fun r => (s.region r).errs.filter (fun e => e.2.2 == double))).length

/-- MEMORY_SCRUB (07 R287): in STANDBY only. The regions' memories show the errors that they hold; `corrected` and `bad` are
what the scrub finds in MRAM and the other memories. -/
def memoryScrubOp (corrected : Nat) (bad : Bool) (s : State) : State :=
  if s.pl.role = 2 then
    let fixed := corrected + s.regionErrors false
    let lost := bad || decide (s.regionErrors true ≠ 0)
    let s := (List.range 4).foldl State.scrubRegion s
    s.modPair (fun x => { x with scrubs := satInc x.scrubs, scerr := satAdd x.scerr fixed, mramok := x.mramok && !lost
                                 scrubBad := s.lastBad x.scrubBad (!lost) })
  else s

/-- Region r is idle: none of its LPs executes. -/
def State.regionIdle (s : State) (r : Nat) : Bool :=
  [2 * r, 2 * r + 1].all (fun p => !s.lpExists p || (decide ((s.lp p).phase = .idle) && decide ((s.lp p).levels = [])))

/-- LANE_BIST (07 R287): a slice in the idle time of a region, in STANDBY only. -/
def laneBistOp (r : Nat) (pass : Bool) (s : State) : State :=
  if s.pl.role = 2 ∧ regionPresent r ∧ s.regionIdle r then
    s.modPair (fun x => { x with bists := satInc x.bists, bistf := if pass then x.bistf else satInc x.bistf, bistBad := s.lastBad x.bistBad pass })
  else s

/-- OWL_TEST_IDLE_SLOT (07 R287): one window in an idle slot, in STANDBY, where R245 applies. -/
def owlTestIdleSlotOp (r : Nat) (pass : Bool) (s : State) : State :=
  if s.pl.role = 2 ∧ !dualOwl ∧ regionPresent r ∧ s.regionIdle r then
    s.modPair (fun x => { x with owlWins := satInc x.owlWins, owlf := if pass then x.owlf else satInc x.owlf, owlBad := s.lastBad x.owlBad pass })
  else s

/-! ### Takeover (07 R273, R274, R293, R294, R299) -/

/-- The latest own trigger of a task that no forwarded latch has covered sets PEND (07 R293 step 2). -/
def State.ownTriggers (s : State) (p : Nat) : State :=
  (List.range 32).foldl (fun s t =>
    let waits := s.pl.fwds.filter (fun w => w.lp.val == p && w.task.val == t && !w.init)
    if (s.prog.task p t).trig = 0 then
      let running := decide ((s.lp p).task = t ∧ (s.lp p).phase ≠ .idle)
      let s := s.modTask p t (fun x => { x with own := none })
      if (s.task p t).gap = false ∧ running = false ∧ (s.task p t).pend = false ∧ waits = [] then s.trigger p t 0 else s
    else
      match (s.task p t).own with
      | none => s
      | some o =>
        let s := s.modTask p t (fun x => { x with own := none })
        if waits.all (fun w => decide (w.ttf.toNat < o.toNat)) then
          if (s.task p t).pend then s else s.trigger p t o
        else s) s

/-- LP p takes the state that the active sent, without a start-up routine (07 R285 step 6, R299): in RUN its counters restart
as at a start (04 R181; 08 R319), in HALT the cause comes along (notes/assumptions/716.md). -/
def State.takeLpState (s : State) (p : Nat) : State :=
  let w := s.pl.joinSt.get (fun _ => 1) p
  let st : LpState := if fld w 2 0 = 2 then .run else if fld w 2 0 = 3 then .halt else .stop
  if !s.lpExists p then s
  else
    let s := s.modLp p (fun x => { x with st := st, phase := .idle, stopReq := false, hcause := if st = .halt then w.extractLsb' 8 6 else 0
                                          err := if st = .run then 0 else x.err })
    if st = .run then
      (List.range 32).foldl (fun s t => s.modTask p t (fun x => { x with tmax := 0 }))
        (s.modRegion (p / 2) (fun r => { r with ran := true }))
    else s
def State.takeLpStates (s : State) : State := (List.range 8).foldl State.takeLpState s

/-- The standby takes over at the instant T (07 R293, R294): it asserts the line and drives its sinks; PSRC is 0 and own
triggers start tasks. From READY it first enters the active states (R299). -/
def State.takeOver (s : State) (rc : BitVec 8) : State :=
  let s := if s.pl.ps = .ready then s.takeLpStates else s
  let t := s.pl.takeT
  let s := { s with psrc := false
                    pl := { s.pl with role := 1, own := true, ps := .unsync, iarrs := [], cmds := [], osigs := [], ownSigs := []
                                      waitRun := none, relPend := false, pdrive := false, lastRel := none, gotFinal := false
                                      joining := false, joinReady := false, hold := false } }
  let s := (List.range 8).foldl State.ownTriggers s
  (s.becomeMaster true).event 0x0702 6 0x3A [loWord t, hiWord t, rc.setWidth 32] |>.arrive 0x2E

/-- A takeover event finds the standby fit, or in READY with the final state of a SWITCHOVER (07 R273). -/
def State.mayTake (s : State) (rc : BitVec 8) : Bool :=
  s.pl.role == 2 && !s.halted && (s.pl.health.getLsbD 63 || (decide (s.pl.ps = .ready) && s.pl.gotFinal && (rc == 7 || rc == 0)))

/-- A standby that may not take over records it; its logical processors stay in STOP, and the start by a later RUN is cold
(07 R273; notes/assumptions/704.md). -/
def State.noTake (s : State) : State :=
  let s := s.event 0x0703 5 0x3A []
  let s := if s.pl.ps = .sync then s.unsync else s
  s.modPair (fun x => { x with coldNext := true })

/-- RELINQUISH (07 R273, R274, R293): the message comes; with the line still asserted the standby waits. -/
def relinquishOp (rc : BitVec 8) (s : State) : State :=
  if s.pl.role ≠ 2 ∨ s.pl.link = false ∨ s.pl.relPend then s
  else
    let s := s.modPair (fun x => { x with rc := rc, rcIn := true, relN := satInc x.relN, takeT := s.pairTime })
    if !s.mayTake rc then s.noTake
    else if s.pl.sensed then s.modPair (fun x => { x with lastRel := some rc })
    else s.takeOver rc

/-- TOKEN_STUCK (07 R274): the line has read asserted for 10 µs after RELINQUISH. -/
def tokenStuckOp (s : State) : State :=
  match s.pl.lastRel with
  | some rc => if s.pl.sensed then (s.event 0x0704 6 0x3A []).takeOver rc else s
  | none => s

/-- TOKEN_LINE_SENSED (07 R271-R273, R291): a stable level of the control-token line. -/
def tokenLineSensedOp (asserted : Bool) (s : State) : State :=
  let was := s.pl.sensed
  let s := s.modPair (fun x => { x with sensed := asserted })
  if asserted then
    let s := if s.pl.own then s else s.modPair (fun x => { x with waitRun := none })
    if s.pl.role = 2 then s.modPair (fun x => { x with relPend := false, pdrive := true }) else s
  else if s.pl.own then s.relinquishFor 6
  else if s.pl.role ≠ 2 ∨ was = false ∨ s.pl.relPend then s
  else
    match s.pl.lastRel with
    | some rc => s.takeOver rc
    | none => if s.mayTake 0 then (s.modPair (fun x => { x with takeT := s.pairTime })).takeOver 0 else s.noTake

/-- The time that the line must stay released before a RUN, in twelfths of a ns: 10 ms, with PSEL high 510 ms (07 R272). -/
def State.tokenWait (s : State) : Nat := (if s.pl.psel then 510 else 10) * 12000000

/-- TOKEN_ACQUIRE (07 R272, R278): the line has stayed released for its period; the module asserts it, and the RUN takes
effect and is forwarded. -/
def tokenAcquireOp (s : State) : State :=
  match s.pl.waitRun with
  | some (mask, cold) =>
    if s.pl.sensed ∨ s.halted ∨ s.time < s.pl.waitAt + s.tokenWait then s
    else
      let cold := cold || s.pl.coldNext
      let s := s.modPair (fun x => { x with waitRun := none, own := true, role := 1, relPend := false, pdrive := false, coldNext := false })
      (((s.becomeMaster false).arrive 0x2E).forward (.run mask cold)).runNow mask cold
  | none => s

/-- RELINQUISH_CAUSE (07 R290, R291; 04 R166). -/
def relinquishCauseOp (rc : BitVec 4) (s : State) : State :=
  let s := s.modPair (fun x => { x with supok := x.supok && rc != 3, mramok := x.mramok && rc != 4 })
  if 1 ≤ rc.toNat ∧ rc.toNat ≤ 6 then s.relinquishFor (rc.setWidth 8) else s

/-- PARTNER_DRIVE_TIMEOUT (07 R291 step 5). -/
def partnerDriveTimeoutOp (s : State) : State :=
  if s.pl.relPend then s.modPair (fun x => { x with relPend := false, pdrive := false }) else s

/-! ### Joining (07 R284-R286) -/

/-- The Owl test has passed on every enabled region, where it applies (07 R284). -/
def State.owlsOk (s : State) : Bool := dualOwl || (List.range 4).all (fun r => !regionPresent r || (s.region r).owlt)

/-- A join starts (07 R284): a JOINREQ with the target SYNC or READY goes out. -/
def State.startJoin (s : State) : State :=
  if s.pl.role = 2 ∧ s.pl.link ∧ (s.pl.lane0 ∨ s.pl.lane1) ∧ !s.halted ∧ s.owlsOk ∧ s.sameProtocol ∧ !s.pl.joining ∧ s.pl.osigN < 3 then
    let ready := !s.sameProgram
    (s.modPair (fun x => { x with joining := true, joinReady := ready, osigmm := false, rounds := 0 })).pairSend
      (.joinreq s.prog.sm3 s.fwVersion s.fwProto ready)
  else s

/-- The join that starts by itself, at boot, when the link returns, after a full load and 10 s after a failed one (07 R284,
R292, R298): once the partner's program is known to be equal. -/
def State.tryJoin (s : State) : State :=
  if s.pl.autoDue ∧ s.pl.ps = .unsync ∧ s.sameProgram then
    let t := s.startJoin
    t.modPair (fun x => { x with autoDue := x.autoDue && !x.joining })
  else s
def State.autoJoin (s : State) : State := (s.modPair (fun x => { x with autoDue := true })).tryJoin

/-- Image bits packed 32 to a word. -/
def State.bitWords (s : State) (a n : Nat) : List Word :=
  (List.range n).map (fun k => (List.range 32).foldl (fun w j => w ||| flagAt j ((s.memGet (a + 32 * k + j)).getLsbD 0)) 0)
/-- Words spread into image bits. -/
def State.setBitWords (s : State) (a : Nat) (ws : List Word) : State :=
  s.memSetList a (ws.flatMap (fun w => (List.range 32).map (fun j => bit (w.getLsbD j))))

/-- The blocks of one space: n blocks of 64 words that a function reads. -/
def blocks (sp : StateSpace) (base n : Nat) (f : Nat → List Word) : List StateBlock :=
  (List.range n).map (fun k => { space := sp, base := base + 64 * k, words := f (base + 64 * k) })

/-- A host-side record in a STATE block: the entry's words, its status (05 R225), TF and VAL; and back. -/
def HostEntry.words (h : HostEntry) : List Word :=
  [h.w0, h.hyst, loWord h.posn, hiWord h.posn, at_ 16 h.fcnt.toNat ||| flagAt 7 h.late ||| flagAt 6 h.unreached ||| flagAt 5 h.stalef ||| flagAt 4 h.done,
   loWord h.tf, hiWord h.tf, h.val]
def HostEntry.ofWords (ws : List Word) : HostEntry :=
  let st := wordAt ws 4
  { w0 := wordAt ws 0, hyst := wordAt ws 1, posn := long (wordAt ws 2) (wordAt ws 3), fcnt := st.extractLsb' 16 16
    late := st.getLsbD 7, unreached := st.getLsbD 6, stalef := st.getLsbD 5, done := st.getLsbD 4
    tf := long (wordAt ws 5) (wordAt ws 6), val := wordAt ws 7 }

/-- The joined state that the bulk copy and the rounds carry (07 R285 steps 2 and 3; notes/assumptions/715.md). -/
def State.bulkBlocks (s : State) : List StateBlock :=
  ((List.range 4).filter (fun r => regionPresent r)).flatMap (fun r => blocks .word (sliceBase r) 8192 (fun a => s.memGetList a 64))
    ++ blocks .marker 0 512 (fun k => s.bitWords (0x100000 + 32 * k) 64)
    ++ blocks .output 0 128 (fun k => s.bitWords (0x80000 + 32 * k) 64)
    ++ s.force.map (fun e => { space := .force, base := e.1, words := [flagAt 31 e.2.en ||| BitVec.ofNat 32 e.2.addr, e.2.val] })
    ++ s.ptHost.map (fun e => { space := .entries, base := e.1, words := e.2.words })
    ++ ((List.finRange 8).filter (fun l => regionPresent (l.val / 2))).flatMap (fun l =>
      blocks (.opX l) 0 128 (fun k => SMap.getList (fun _ => 0) (s.lane l.val).opX k 64)
        ++ blocks (.opY l) 0 128 (fun k => SMap.getList (fun _ => 0) (s.lane l.val).opY k 64))

/-- What the final hold adds (07 R285 step 5), with the committed sink values that a takeover drives (R293, R299;
notes/assumptions/716.md), and for READY the lists of R299. -/
def State.finalBlocks (s : State) (ready : Bool) : List StateBlock :=
  ((List.finRange 8).filter (fun l => regionPresent (l.val / 2))).map (fun l =>
      { space := .ports l, base := 0, words := (List.range 0x240).map (fun a =>
        if a = 0x00C then (s.lane l.val).flagsWord else (s.lane l.val).ports.get portDefault a) })
    ++ (List.finRange 8).map (fun p => { space := .tasks p, base := 0, words := (List.range 32).map (fun t =>
        flagAt 31 (s.task p.val t).pend ||| flagAt 30 (s.task p.val t).ran ||| (s.task p.val t).ovr.setWidth 32) })
    ++ s.sinks.map (fun e => { space := .sinks, base := 0, words := [BitVec.ofNat 32 e.1, e.2] })
    ++ [{ space := .lpState, base := 0, words := (List.range 8).flatMap (fun p =>
          [at_ 8 (s.lp p).hcause.toNat ||| (s.lp p).st.code.setWidth 32, (s.lp p).lseq]) }]
    ++ (List.finRange 4).map (fun r => { space := .region r, base := 0, words := [BitVec.ofNat 32 (s.region r.val).cov.code] })
    ++ [{ space := .axes, base := 0, words := [loWord s.pairTime, hiWord s.pairTime] ++
          (List.range 7).flatMap (fun k => [s.mirrorWord 9 (8 * (k + 1)), s.mirrorWord 9 (8 * (k + 1) + 1)]) }]
    ++ (if ready then
          (List.finRange 4).map (fun r => { space := .instances r, base := 0
                                            words := (s.prog.instances.get (fun _ => []) r.val).map (BitVec.ofNat 32) })
          ++ [{ space := .retains, base := 0, words := s.prog.retain.flatMap (fun b =>
                  [b.ident, BitVec.ofNat 32 b.addr, BitVec.ofNat 32 b.len, BitVec.ofNat 32 b.owner]) }]
        else [])

/-- Send blocks. -/
def State.sendBlocks (s : State) (bs : List StateBlock) : State := bs.foldl (fun s b => s.pairSend (.state b)) s

/-- JOINREQ (07 R285, R297): the active refuses, or accepts and sends the bulk copy. A join of a partner that is out of step
runs no longer (07 R286). -/
def joinreqOp (sm3 : List Byte) (proto : BitVec 16) (ready : Bool) (s : State) : State :=
  if s.pl.role ≠ 1 ∨ s.pl.link = false then s
  else if s.pl.joining ∧ (s.pl.partner.map (fun h => h.pstate != 0)).getD false then s.pairSend (.joinack 1)
  else if proto ≠ s.fwProto then s.pairSend (.joinack 2)
  else if sm3 ≠ s.prog.sm3 ∧ ready = false then s.pairSend (.joinack 3)
  else ((s.modPair (fun x => { x with joining := true, joinReady := ready, rounds := 0 })).pairSend (.joinack 0)).sendBlocks s.bulkBlocks

/-- A join fails (07 R285). -/
def State.joinFail (s : State) : State := (s.event 0x0706 4 0x3A []).unsync

/-- JOINACK (07 R284, R285): accepted, the standby's logical processors stand in STOP and it is SYNCING; the force table, the
host-side records and the committed values are those that the join brings. -/
def joinackOp (refused : BitVec 8) (s : State) : State :=
  if s.pl.role ≠ 2 ∨ s.pl.joining = false then s
  else if refused ≠ 0 then s.joinFail
  else { s.stopRunning.modPair (fun x => { x with ps := .syncing, rounds := 0, gotFinal := false }) with force := [], ptHost := [], sinks := [] }

/-- Whether a STATE block is taken now. -/
def State.takesState (s : State) : Bool :=
  decide (s.pl.role = 2 ∧ s.pl.joining) && (s.pl.ps == .syncing || s.pl.ps == .catchup || s.pl.ps == .ready)

/-- A lane's ports from their words (07 R285 step 5). -/
def Lane.takePorts (x : Lane) (base : Nat) (ws : List Word) : Lane :=
  let x := { x with ports := (List.range ws.length).foldl (fun m k => SMap.set portDefault m (base + k) (wordAt ws k)) x.ports }
  let f := x.ports.get portDefault 0x00C
  let x := { x with ports := x.ports.set portDefault 0x00C 0, bstk := List.replicate (min (fld f 20 16) 16) false
                    flags := { z := f.getLsbD 0, n := f.getLsbD 1, c := f.getLsbD 2, v := f.getLsbD 3, dz := f.getLsbD 4
                               sat := f.getLsbD 5, acc := f.getLsbD 7, bso := f.getLsbD 8, bsu := f.getLsbD 9 } }
  { x with acc72 := (x.ports.get portDefault 0x19A).setWidth 8 ++ (x.ports.get portDefault 0x199) ++ (x.ports.get portDefault 0x198) }

/-- Retentive blocks from words of four. -/
def oldBlocks (ws : List Word) : List RetBlock := retBlocksOf ws

/-- STATE (07 R285, R299): the standby takes a block. -/
def pairStateOp (b : StateBlock) (s : State) : State :=
  if !s.takesState then s
  else match b.space with
    | .word => s.memSetList (0x200000 + (b.base - 0x200000) % 0x1FFFFF) b.words
    | .marker => s.setBitWords (0x100000 + 32 * (b.base % 32768)) (b.words.take (32768 - b.base % 32768))
    | .output => s.setBitWords (0x80000 + 32 * (b.base % 8192)) (b.words.take (8192 - b.base % 8192))
    | .opX l => s.modLane l.val (fun x => { x with opX := SMap.setList (fun _ => 0) x.opX b.base (b.words.take (8192 - b.base)) })
    | .opY l => s.modLane l.val (fun x => { x with opY := SMap.setList (fun _ => 0) x.opY b.base (b.words.take (8192 - b.base)) })
    | .force =>
      let w := wordAt b.words 0
      { s with force := s.force.set (fun _ => {}) (b.base % 1024) { addr := fld w 21 0, val := wordAt b.words 1, en := w.getLsbD 31 } }
    | .entries =>
      { s with ptHost := s.ptHost.set (fun _ => {}) (b.base % 4096) (HostEntry.ofWords b.words) }
    | .sinks => { s with sinks := s.sinks.set (fun _ => 0) (wordAt b.words 0).toNat (wordAt b.words 1) }
    | .ports l => s.modLane l.val (fun x => x.takePorts b.base b.words)
    | .tasks p => (List.range 32).foldl (fun s t => s.modTask p.val t (fun x =>
        { x with pend := (wordAt b.words t).getLsbD 31, ran := (wordAt b.words t).getLsbD 30, ovr := (wordAt b.words t).setWidth 16
                 prevIn := [] })) s
    | .lpState => (List.range 8).foldl (fun s p =>
        (s.modLp p (fun x => { x with lseq := wordAt b.words (2 * p + 1) })).modPair (fun x =>
          { x with joinSt := x.joinSt.set (fun _ => 1) p (wordAt b.words (2 * p)) })) s
    | .region r => s.modRegion r.val (fun x => { x with cov := if wordAt b.words 0 = 1 then .split else .paired })
    | .axes => s.modPair (fun x => { x with joinAxes := b.words })
    | .instances r => s.modPair (fun x => { x with oldInst := x.oldInst.set (fun _ => []) r.val (b.words.map (fun w => w.toNat)) })
    | .retains => s.modPair (fun x => { x with oldRet := oldBlocks b.words })

/-- CATCHUP_ROUND (07 R285, R286, R299): the active sends the next round, or holds its latches once at most 64 KiB are
dirty; the standby counts the rounds, and after 16 without convergence the join fails. -/
def catchupRoundOp (dirty : Nat) (s : State) : State :=
  if s.pl.joining = false then s
  else if s.pl.role = 1 then
    if dirty ≤ 65536 then
      if s.pl.joinReady ∧ !s.pl.switching then s.sendBlocks s.bulkBlocks else s.modPair (fun x => { x with hold := true })
    else if 16 ≤ s.pl.rounds ∧ !s.pl.joinReady then s.modPair (fun x => { x with joining := false, rounds := 0 })
    else (s.modPair (fun x => { x with rounds := x.rounds + 1 })).sendBlocks s.bulkBlocks
  else if s.pl.role = 2 ∧ (s.pl.ps = .syncing ∨ s.pl.ps = .catchup) then
    if dirty ≤ 65536 ∧ s.pl.joinReady then s.modPair (fun x => { x with ps := .ready })
    else if 65536 < dirty ∧ 16 ≤ s.pl.rounds then s.joinFail
    else s.modPair (fun x => { x with ps := .catchup, rounds := x.rounds + 1 })
  else s

/-- The standby's word data under its own new program (07 R299 step 2): WDATA, then the blocks, then the records, over
the active values. -/
def State.placeState (s : State) : State :=
  let mem := s.mem
  let at_B := fun a n => SMap.getList (fun _ => (0 : Word)) mem a n
  let g := s.prog
  let s := g.wordInits.foldl (fun s e => s.memSet e.1 e.2) s
  let s := s.carryBlocks s.pl.oldRet mem g.retain
  (List.range 4).foldl (fun s r =>
    (g.instanceList r).foldl (fun s x =>
      match (s.pl.oldInst.get (fun _ => []) r).find? (fun a => wordAt (at_B a 8) 1 == x.2.1 && fld (wordAt (at_B a 8) 0) 31 20 == x.2.2) with
      | some a => s.memSetList x.1 (carriedWords g (at_B a 8) x.1)
      | none => s.memSetList x.1 ((List.range 8).map (fun k => g.imageWord (x.1 + k)))) s) s

/-- The staged preset of an axis to the active position (07 R285 step 6; 05 R214). -/
def joinPreset (ws : List Word) (x : Nat) : Rec :=
  { kind := 3, axsel := x, index := 0, w0 := 0, hyst := 0, value := long (wordAt ws (2 * x)) (wordAt ws (2 * x + 1)), ref := 0, live := true }
/-- The write record of a host-side record. -/
def HostEntry.rewrite (h : HostEntry) (i : Nat) : Rec :=
  { kind := 1, axsel := 0, index := i, w0 := h.w0, hyst := h.hyst, value := h.posn, ref := 0, live := true }

/-- No logical processor executes a task (07 R285 step 4). -/
def State.tasksDone (s : State) : Bool := (List.range 8).all (fun p => (s.lp p).phase == .idle)

/-- Step 6 of a join (07 R283, R285): POFS meets the active pair time within ±50 ns, the axes stand at the active positions, and
the field die's table is that of the host-side records. -/
def State.joinPlace (s : State) : State :=
  let t := long (wordAt s.pl.joinAxes 0) (wordAt s.pl.joinAxes 1)
  let err : Int := (Config.freeNat s.free % 101 : Nat) - 50
  let recs := [1, 2, 3, 4, 6, 7].map (joinPreset s.pl.joinAxes) ++ s.ptHost.map (fun e => e.2.rewrite e.1)
  { s.draw with schedOut := s.schedOut ++ recs.map (fun x => (8, x))
                pl := { s.pl with pofs := t - s.ax0 + BitVec.ofInt 64 err } }

/-- JOIN_COMPLETE (07 R285 steps 5 and 6, R286, R299): the active sends the final state and goes on, or relinquishes where
this is a SWITCHOVER, once every running task has committed; the standby enters SYNC, or in READY places the state and
waits for the RELINQUISH (notes/assumptions/707.md). -/
def joinCompleteOp (s : State) : State :=
  if s.pl.joining = false then s
  else if s.pl.role = 1 ∧ s.pl.hold then
    if !s.tasksDone then s else
    let s := (s.sendBlocks s.bulkBlocks).sendBlocks (s.finalBlocks s.pl.switching)
    if s.pl.switching then (s.modPair (fun x => { x with switching := false, joining := false, hold := false })).relinquish 7 |>.autoJoin
    else
      let s := s.modPair (fun x => { x with joining := false, hold := false })
      { s with tasks := s.tasks.map (fun e => (e.1, { e.2 with prevIn := [] })) }
  else if s.pl.role = 2 ∧ s.pl.ps = .ready then s.placeState.joinPlace.modPair (fun x => { x with gotFinal := true })
  else if s.pl.role = 2 ∧ s.pl.ps = .catchup then
    let s := { s.joinPlace with psrc := true }
    s.takeLpStates.modPair (fun x => { x with ps := .sync, joining := false, coldNext := false })
  else s

/-- JOIN_RETRY (07 R284): 10 s after a failed join; a JOINREQ without an answer has failed by then (notes/assumptions/702.md). -/
def joinRetryOp (s : State) : State :=
  (s.modPair (fun x => { x with joining := x.joining && decide (x.role ≠ 2 ∨ x.ps ≠ .unsync) })).autoJoin

/-! ### Link (07 R275, R276, R278) -/

/-- PAIR_LINK_START (07 R276, R284; 13 R481, R482): both sides send an ephemeral key, a nonce and a signature; the partner's
must hold under K5, and the keys of the session come of K4. Otherwise the link stays lost (notes/assumptions/718.md). -/
def pairLinkStartOp (eph nonce sig : List Byte) (s : State) : State :=
  if !s.provisioned ∨ !(s.pl.lane0 ∨ s.pl.lane1) ∨ s.pl.link then s
  else
    let own := Config.sm2Pub ((Config.random s.free).take 32) ++ (Config.random (s.free + 1)).take 32
    let trans := eph ++ nonce ++ own
    let keys := Config.kdf (Config.sm2Agree (s.slot 4).key eph trans) [] 48
    let s := s.draw.draw
    if Config.sm2Verify (s.slot 5).key (sm3Z (s.slot 5).key (eph ++ nonce)) sig then
      ((s.modPair (fun x => { x with link := true, keys := keys, rxSeq := none, partner := none })).arrive 0x2E).autoJoin
    else s

/-- PAIR_LINK_LOSS (07 R275, R276, R285): both keep their roles; a standby falls out of step. -/
def pairLinkLossOp (s : State) : State :=
  if s.pl.link = false then s
  else
    let s := (s.modPair (fun x => { x with link := false, keys := [] })).arrive 0x2E
    if s.pl.role = 2 then (if s.pl.joining then s.joinFail else s.unsync)
    else s.modPair (fun x => { x with joining := false, hold := false, switching := false })

/-- PAIR_LINK_LANE_CHANGE (07 R276). -/
def pairLinkLaneChangeOp (n : Nat) (up : Bool) (s : State) : State :=
  s.modPair (fun x => if n = 0 then { x with lane0 := up } else { x with lane1 := up })

/-- The module's own HEARTBEAT (07 R278). -/
def State.ownHeartbeat (s : State) : PairHeartbeat :=
  { role := s.pl.role, pstate := s.pl.ps.code, mstate := s.mstate.code
    prog := long (wordAt (wordsOfBytes s.prog.sm3) 0) (wordAt (wordsOfBytes s.prog.sm3) 1), fw := s.fwVersion, proto := s.fwProto }

/-- A standby in step or in READY follows the active's pair time by at most 100 ns per ms (07 R283): at each heartbeat, 10 of
them in a ms, by at most 10 ns towards the PTIME of its header (notes/assumptions/711.md). -/
def State.slew (s : State) (ptime : BitVec 64) : State :=
  if s.pl.role = 2 ∧ (s.pl.ps = .sync ∨ s.pl.ps = .ready) then
    let d : Int := max (-10) (min 10 (ptime - s.pairTime).toInt)
    s.modPair (fun x => { x with pofs := x.pofs + BitVec.ofInt 64 d })
  else s

/-- The partner's HEARTBEAT (07 R278, R283, R284; 16 R536). -/
def State.takeHeartbeat (h : PairHeartbeat) (ptime : BitVec 64) (s : State) : State :=
  ((s.slew ptime).modPair (fun x => { x with partner := some h, presetSent := x.presetSent && h.mstate == 3 })).tryJoin

/-- PAIR_LINK_HEARTBEAT (07 R277, R278; 16 R536): the own one goes out and the partner's comes. -/
def pairLinkHeartbeatOp (h : PairHeartbeat) (hd : LinkHead) (s : State) : State :=
  (s.pairSend (.heartbeat s.ownHeartbeat)).linkFrame hd false (State.takeHeartbeat h hd.ptime)

/-- STANDBY_LAG_TIMEOUT (07 R280; notes/assumptions/712.md). -/
def standbyLagTimeoutOp (s : State) : State := if s.inStep then s.unsync else s

/-! ### Execution in step (07 R280, R282) -/

/-- The standby takes forwarded messages until a takeover has begun (07 R280, R293). -/
def State.takesForwarded (s : State) : Bool := s.inStep && s.pl.lastRel.isNone

/-- FWD. -/
def fwdOp (w : Fwd) (s : State) : State :=
  if s.takesForwarded then { s.modPair (fun x => { x with fwds := x.fwds ++ [w] }) with psrc := true } else s

/-- OSIG (07 R282). -/
def osigOp (p : Nat) (lseq : Word) (sig : BitVec 64) (s : State) : State :=
  if s.inStep then (s.modPair (fun x => { x with osigs := x.osigs ++ [(p, lseq, sig)] })).compareSigs else s

/-- A forwarded command takes effect. -/
def State.applyCmd (s : State) : PairCmd → State
  | .run mask cold => s.runNow mask cold
  | .stop mask => s.stopNow mask
  | .clrhalt mask => s.clrhaltNow mask
  | .cover r split runOdd => s.coverNow r.val split runOdd
  | .preset => if s.pl.role = 2 ∧ s.pl.ps = .unsync then s.assertReset .pairCommand else s
  | c => { s with force := cmdForces c s.force }

/-- The logical processors whose LSEQ a command waits for (07 R278, R280): those it acts on, and every one for the force
table. -/
def cmdLps : PairCmd → List Nat
  | .run mask _ | .stop mask | .clrhalt mask => (List.range 8).filter (fun p => mask.getLsbD p)
  | .cover r _ _ => [2 * r.val, 2 * r.val + 1]
  | .preset => []
  | _ => List.range 8

/-- The first forwarded command that is due: the LSEQ of its logical processors has come, and no earlier one waits for one of
them. -/
def State.firstDue (s : State) : List Nat → List (PairCmd × List Word) → Option (PairCmd × List Word)
  | _, [] => none
  | busy, c :: t =>
    if (cmdLps c.1).all (fun p => !busy.contains p && s.lseqReached p c.2) then some c else s.firstDue (busy ++ cmdLps c.1) t

/-- The forwarded commands whose place has come take effect, in order. -/
def applyDueCmds : Nat → State → State
  | 0, s => s
  | n + 1, s =>
    match s.firstDue [] s.pl.cmds with
    | some c => applyDueCmds n ((s.modPair (fun x => { x with cmds := x.cmds.erase c })).applyCmd c.1)
    | none => s
def State.applyCmds (s : State) : State := if s.inStep then applyDueCmds s.pl.cmds.length s else s

/-- A STOP is a command for each of its logical processors. -/
def cmdParts : PairCmd → List PairCmd
  | .stop mask => ((List.range 8).filter (fun p => mask.getLsbD p)).map (fun p => .stop (BitVec.ofNat 8 (2 ^ p)))
  | c => [c]

/-- CMDFWD (07 R280; 16 R536): at its LSEQ; a PRESET at once, in STANDBY and UNSYNC only. -/
def cmdfwdOp (c : PairCmd) (ls : List Word) (s : State) : State :=
  match c with
  | .preset => s.applyCmd .preset
  | c => if s.takesForwarded then (s.modPair (fun x => { x with cmds := x.cmds ++ (cmdParts c).map (fun c => (c, ls)) })).applyCmds else s

/-- PRESET (16 R536). -/
def presetOp (s : State) : State := s.applyCmd .preset

/-- PARTNER_HALT_TIMEOUT (16 R536): one PRESET for each halt of the partner. -/
def partnerHaltTimeoutOp (s : State) : State :=
  if s.pl.role = 1 ∧ s.pl.presetSent = false ∧ (s.pl.partner.map (fun h => h.mstate == 3)).getD false then
    (s.pairSend (.cmd .preset (List.replicate 8 0))).modPair (fun x => { x with presetSent := true })
  else s

/-! ### Commands and ports (07 R299-R302) -/

/-- A pair command is accepted or refused; CREJ shows it to its master (07 R301, R302; notes/assumptions/709.md). -/
def State.pairCommand (s : State) (m : Master) (ok : Bool) (f : State → State) : State :=
  s.guarded m 0xA88 fun s => if ok then (f s).setMport m 0xA80 0 else s.setMport m 0xA80 1

/-- The partner is in READY (07 R299). -/
def State.partnerReady (s : State) : Bool := (s.pl.partner.map (fun h => h.pstate == 4)).getD false

/-- SWITCHOVER (07 R299): the relinquish, or the final hold towards a partner in READY. -/
def switchoverOp (m : Master) (s : State) : State :=
  s.pairCommand m (decide (s.pl.role = 1) && (s.partnerFit || s.partnerReady)) fun s =>
    if s.partnerFit then (s.relinquish 7).autoJoin
    else s.modPair (fun x => { x with switching := true, joining := true, hold := true })

/-- DESYNC (07 R298, R302). -/
def desyncOp (m : Master) (s : State) : State := s.pairCommand m (decide (s.pl.role = 2)) State.unsync

/-- JOIN (07 R284, R302). -/
def joinOp (m : Master) (s : State) : State := s.pairCommand m (decide (s.pl.role = 2)) State.startJoin

/-- A move into pl.cmd: the command of its row, or no effect. -/
def plCmdOp (m : Master) (v : Word) (s : State) : State :=
  match fld v 3 0 with
  | 1 => switchoverOp m s
  | 2 => desyncOp m s
  | 3 => joinOp m s
  | _ => s.guarded m 0xA88 id

/-- PL_HL_READ and PL_PHL_READ (07 R300): the high word is latched for the master. -/
def plHlReadOp (m : Master) (s : State) : State := s.setMport m 0xA82 (hiWord s.pl.health)
def plPhlReadOp (m : Master) (s : State) : State := s.setMport m 0xA84 (hiWord s.pl.phealth)

/-- pl.role (07 R301). -/
def State.plRole (s : State) (m : Master) : Word :=
  flagAt 23 (s.mport m 0xA80 = 1) ||| at_ 20 s.pl.ps.code.toNat ||| flagAt 19 s.pl.psel ||| flagAt 18 s.provisioned
    ||| flagAt 17 s.pl.lane1 ||| flagAt 16 s.pl.lane0 ||| flagAt 15 s.pl.link ||| flagAt 14 s.pl.sensed ||| flagAt 13 s.pl.own
    ||| at_ 6 s.pl.role.toNat

/-- The reads of the pair link's ports (07 R300). -/
def plPort (s : State) (m : Master) (a : Nat) : Word :=
  match a with
  | 0xA80 => s.plRole m
  | 0xA81 => loWord s.pl.health
  | 0xA83 => loWord s.pl.phealth
  | 0xA85 =>
    match s.pl.phealthAt with
    | some t => BitVec.ofNat 32 (min ((s.time - t) / 12000) 0xFFFFFFFF)
    | none => 0xFFFFFFFF
  | 0xA86 => s.pl.lag
  | 0xA89 => s.pl.err.setWidth 32
  | 0xA8A => at_ 24 s.pl.rc.toNat ||| flagAt 23 s.pl.rcIn ||| s.pl.relN.setWidth 32
  | _ => s.mport m a

end Sys2Proof.Machine
end

