-- ==== Sys2Proof/Machine/SharedPorts.lean ====
section
/-! DEFINITION. The ports of the shared units as one place of reads and writes with the world check of 00 R9 and the
silent violation rule of 13 R484-R486, and memory as a master outside the lanes reaches it (01 R22; 02 R68-R71). -/

namespace Sys2Proof.Machine

/-! ### Force commands (04 R174, R175; 07 R278) -/

/-- FT_SET: an accepted entry is forwarded by the active module. -/
def ftSetCmd (m : Master) (s : State) : State :=
  let t := ftSetOp m s
  if t.mport m 0xBCB = 0 then
    t.forward (.ftSet ⟨(s.mport m 0xBC0).toNat % 1024, by omega⟩ ((s.mport m 0xBC1).setWidth 22) (s.mport m 0xBC2))
  else t
def ftClrCmd (m : Master) (s : State) : State :=
  (ftClrOp m s).forward (.ftClr ⟨(s.mport m 0xBC0).toNat % 1024, by omega⟩)
def ftClrallCmd (s : State) : State := (ftClrallOp s).forward .ftClrall

/-! ### The host channel's ports (11 R427, R428) -/

/-- The mailbox is served (11 R411, R573). -/
def State.mailboxServed (s : State) : Bool := s.rackMaster && (s.rk.running || decide (s.rk.cyc ≠ 0)) && decide (fld (wordAt s.rk.sect 0) 12 8 ≠ 0)
/-- Open sessions (11 R417). -/
def State.openSessions (s : State) : Nat := (s.hc.sess.filter (fun e => e.2.opened)).length
/-- PROG and PHASE of the running operation: the spec gives no rule for PROG, a free value from 0 to 100 (notes/assumptions/408.md). -/
def State.progress (s : State) : Nat := Config.freeNat s.free % 101

def State.hcStat (s : State) : Word :=
  (match s.hc.op with
   | some o => at_ 24 (o.cmd.toNat % 256) ||| at_ 16 s.progress ||| at_ 14 o.phase.toNat
   | none => 0) ||| at_ 8 s.openSessions ||| flagAt 2 s.mailboxServed
    ||| flagAt 1 (s.hc.eth.get (fun _ => {}) 1).up ||| flagAt 0 (s.hc.eth.get (fun _ => {}) 0).up

def hcPort (s : State) (a : Nat) : Word :=
  match a with
  | 0xA40 => s.hcStat
  | 0xA41 => s.hc.last
  | 0xA42 => s.hc.rej.setWidth 32
  | _ => s.hc.busy.setWidth 32

/-! ### Reads -/

/-- The value of a shared port that a master may read. -/
def State.portRead (s : State) (m : Master) (a : Nat) : Word :=
  if a < 0x800 then icPort s m a
  else if a < 0x840 then s.bdPort m a
  else if a < 0x880 then sqPort s m a
  else if a < 0x900 then mrPort s m a
  else if a < 0x940 then fdPort s m a
  else if a < 0x980 then ptPort s m a
  else if a < 0xA00 then fbPort s m a
  else if a < 0xA40 then rkPort s m a
  else if a < 0xA80 then hcPort s a
  else if a < 0xAC0 then plPort s m a
  else if a < 0xB00 then s.ksPort m a
  else if a < 0xB40 then rtPort s m a
  else if a < 0xB80 then erPort s m a
  else if a < 0xBC0 then stPort s m a
  else ftPort s m a

/-- What a read of a shared port does beyond its value: the latches of 04 R181, R186 and 07 R300. -/
def State.readEffect (s : State) (m : Master) (a : Nat) : State :=
  if a = 0x880 then mrDiReadOp m s
  else if a = 0x858 then sqRwlReadOp m s
  else if a = 0xA81 then plHlReadOp m s
  else if a = 0xA83 then plPhlReadOp m s
  else s

/-- A read of a shared unit's address by a master: its value, or 0 and a silent violation. -/
def State.sharedRead (s : State) (m : Master) (a : Nat) : State × Word :=
  if mayRead m.world a then (s.readEffect m a, s.portRead m a)
  else (s.violation m a (if (portRow a).any (fun r => decide (r.dir = .res ∨ r.dir = .rw)) then .world else .dirOrReserved), 0)

/-! ### Writes -/

/-- Moves into the interrupt controller (08 R324). -/
def icWrite (m : Master) (a : Nat) (v : Word) (s : State) : State :=
  match a with
  | 0x401 => icCfgOp m v s
  | 0x404 => icDoneOp m v s
  | 0x405 => icRaiseOp v s
  | 0x406 => icClrOp v s
  | 0x408 => icThrOp m v s
  | 0x409 => icHoldOp v s
  | _ => s.setMport m a v

/-- Moves into the Badger (14 R500). -/
def bdWrite (m : Master) (a : Nat) (v : Word) (s : State) : State :=
  match a with
  | 0x801 => bdAnsOp m v s
  | 0x802 => bdChkOp m v s
  | 0x81C => bdStartOp m s
  | _ => bdConfigWriteOp m a v s

/-- Moves into the field message and table ports (09 R358, 05 R223). -/
def fieldWrite (m : Master) (a : Nat) (v : Word) (s : State) : State :=
  match a with
  | 0x908 => fdRstOp m v s
  | 0x909 => fdCrstOp m v s
  | 0x90A => fdDclrOp m v s
  | 0x90D => fdDrdOp m s
  | 0x948 => ptWrOp m s
  | 0x949 => ptDisOp m s
  | 0x950 => ptPresetOp m s
  | 0x951 => ptHomeOp m s
  | 0x958 => ptRdOp m s
  | 0x990 => fbAckOp m v s
  | 0x995 => fbTxreqOp m s
  | 0x998 => fbSputOp m s
  | 0x99C => fbCmdOp v s
  | _ => s.setMport m a v

/-- Moves into the rack, pair link, key store, clock, recorder, Sett and force ports (11 R412; 07 R300; 13 R487;
15 R516, R530; 12 R452; 04 R174). -/
def unitWrite (m : Master) (a : Nat) (v : Word) (s : State) : State :=
  match a with
  | 0xA08 => rkCmdOp v s
  | 0xA88 => plCmdOp m v s
  | 0xAC1 => ksStartOp m (v.setWidth 8) s
  | 0xAC5 => ksBwOp m v s
  | 0xAC6 => ksBrOp m s
  | 0xB00 => rtSnapOp m s
  | 0xB0A => rtSetOp m s
  | 0xB42 => erRead m s
  | 0xB44 => erFindOp m v s
  | 0xB53 => erLogOp m v s
  | 0xB90 => stCmdOp m v s
  | 0xB93 => stRrdOp m s
  | 0xBC4 => ftSetCmd m s
  | 0xBC5 => ftClrCmd m s
  | 0xBC6 => ftClrallCmd s
  | 0xBC7 => ftRdOp m s
  | _ =>
    if a = 0xB06 ∨ a = 0xB08 ∨ a = 0xB09 ∨ a = 0xB0C ∨ (0xB10 ≤ a ∧ a ≤ 0xB13) then rtWrite a v s else s.setMport m a v

/-- A permitted move of a value, narrowed to the port, into a shared port. -/
def State.portWrite (s : State) (m : Master) (a : Nat) (v : Word) : State :=
  if a < 0x800 then icWrite m a v s
  else if a < 0x840 then bdWrite m a v s
  else if a < 0x880 then (if a = 0x841 then sqCmdOp m v s else s.setMport m a v)
  else if a < 0x900 then (if a = 0x889 then mrRdOp m s else s.setMport m a v)
  else if a < 0xA00 then fieldWrite m a v s
  else unitWrite m a v s

/-- A move of a master into a shared unit's address; a violating one has no other effect (13 R484-R486). -/
def State.sharedWrite (s : State) (m : Master) (a : Nat) (v : Word) : State :=
  s.guarded m a (fun s => s.portWrite m a (portValue a v))

/-! ### Memory as masters outside the lanes reach it -/

/-- A read by moves of a place outside the lanes (02 R66, R68, R70). -/
def State.moveRead (s : State) (m : Master) (a : Nat) : State × Word :=
  match place a with
  | .shared => s.sharedRead m a
  | .imm => if m.world = .sett then (s.violation m a .world, 0) else (s, immValue a)
  | .laneLocal => (s.violation m a (if (portRow a).isSome then .world else .dirOrReserved), 0)
  | k =>
    if k.readable m.world then (s, s.memGet a)
    else (s.violation m a (if k.isMem then .world else .dirOrReserved), 0)

/-- A write by moves of a place outside the lanes (02 R66, R68, R70). -/
def State.moveWrite (s : State) (m : Master) (a : Nat) (v : Word) : State :=
  match place a with
  | .shared => s.sharedWrite m a v
  | .imm => s.violation m a .imm
  | .laneLocal => s.violation m a (if (portRow a).isSome then .world else .dirOrReserved)
  | k => if k.writable m.world then s.memSet a v else s.violation m a (if k.isMem then .world else .dirOrReserved)

end Sys2Proof.Machine
end

