-- ==== Sys2Proof/Machine/Boot.lean ====
section
/-! DEFINITION. Reset and boot: firmware banks and the apply of a staged image, the boot sequence, and the reset sources
(16 R531-R551; 17 R553, R571). -/

namespace Sys2Proof.Machine

/-! ### Firmware banks and manifests (16 R539-R541) -/

def State.fwImage (s : State) (b : Bool) : List Byte := if b then s.mram.fw1 else s.mram.fw0
def State.fwDescOf (s : State) (b : Bool) : List Byte := if b then s.mram.desc1 else s.mram.desc0
def State.setFwImage (s : State) (b : Bool) (bs : List Byte) : State :=
  { s with mram := if b then { s.mram with fw1 := bs } else { s.mram with fw0 := bs } }
def State.setFwDesc (s : State) (b : Bool) (d : List Byte) : State :=
  { s with mram := if b then { s.mram with desc1 := d } else { s.mram with desc0 := d } }

/-- Fields of a manifest. -/
def mfVersion (d : List Byte) : Word := wordAtByte d 8
def mfRbc (d : List Byte) : Word := wordAtByte d 0x0C
def mfNewLen (d : List Byte) : Nat := (wordAtByte d 0x10).toNat
def mfDeltaLen (d : List Byte) : Nat := (wordAtByte d 0x14).toNat
def mfRecords (d : List Byte) : Nat := (wordAtByte d 0x18).toNat
def mfOldSm3 (d : List Byte) : List Byte := (d.drop 0x20).take 32
def mfNewSm3 (d : List Byte) : List Byte := (d.drop 0x40).take 32
def mfDeltaSm3 (d : List Byte) : List Byte := (d.drop 0x60).take 32
/-- A full image: OLDSM3 is all zero (R544). -/
def mfFull (d : List Byte) : Bool := (mfOldSm3 d).all (fun b => b == 0)

/-- The first n bytes of a bank; what was never written is 0 (R539). -/
def bankBytes (bs : List Byte) (n : Nat) : List Byte := bs.take n ++ List.replicate (n - bs.length) 0

/-- SIG of a manifest verifies under the vendor key in K2, which a failed key store refuses (R540; 13 R473). -/
def State.mfSigOk (s : State) (d : List Byte) : Bool :=
  (s.slot 2).occ && !s.ks.fail && Config.sm2Verify (s.slot 2).pub (sm3Z (s.slot 2).pub (d.take 0x80)) ((d.drop 0x80).take 64)

/-- A bank is valid (R539). -/
def State.fwValid (s : State) (b : Bool) : Bool :=
  let d := s.fwDescOf b
  s.mfSigOk d && Config.sm3 (bankBytes (s.fwImage b) (mfNewLen d)) == mfNewSm3 d
/-- A bank may boot: it is valid and its RBC is at least FWRBC (R550). -/
def State.fwQualifies (s : State) (b : Bool) : Bool := s.fwValid b && decide (s.ks.fwrbc.toNat ≤ (mfRbc (s.fwDescOf b)).toNat)

/-! ### Applying a delta (16 R544-R548) -/

/-- The check of the staged manifest: the reason of R548, 0 for a pass. -/
def State.manifestReason (s : State) : Nat :=
  let d := s.mram.staged
  let n := mfNewLen d
  if d.length ≠ 192 ∨ wordAtByte d 0 ≠ 0x4B46574D ∨ halfAt d 4 ≠ 1 ∨ n % 4096 ≠ 0 ∨ n < 4096 ∨ 4190208 < n
      ∨ mfRecords d ≠ n / 4096 ∨ s.mram.delta.length < mfDeltaLen d then 1
  else if !s.mfSigOk d then 2
  else if (mfRbc d).toNat < s.ks.fwrbc.toNat then 3
  else if Config.sm3 (s.mram.delta.take (mfDeltaLen d)) ≠ mfDeltaSm3 d then 4
  else if !mfFull d ∧ Config.sm3 (bankBytes (s.fwImage s.fwBank1) (mfNewLen s.fwDesc)) ≠ mfOldSm3 d then 5
  else 0

/-- The runs of an ADD record on a block: the new block and the bytes the runs take. -/
def applyRuns : Nat → List Byte → List Byte → Nat → Option (List Byte × Nat)
  | 0, blk, _, used => some (blk, used)
  | n + 1, blk, r, used =>
    let ofs := halfAt r 0
    let len := halfAt r 2
    let pad := (len + 3) / 4 * 4
    if len = 0 ∨ 4096 < ofs + len ∨ r.length < 4 + pad ∨ ((r.drop (4 + len)).take (pad - len)).any (fun b => b != 0) then none
    else
      let sum := List.zipWith (fun (a b : Byte) => a + b) ((blk.drop ofs).take len) ((r.drop 4).take len)
      applyRuns n (blk.take ofs ++ sum ++ blk.drop (ofs + len)) (r.drop (4 + pad)) (used + 4 + pad)

/-- Record i of a delta at a byte offset: the new block and the offset of the next record; none where it breaks R544. -/
def applyRecord (old : List Byte) (blocks : Nat) (full : Bool) (delta : List Byte) (i ofs : Nat) : Option (List Byte × Nat) :=
  let h := delta.drop ofs
  let sblk := halfAt h 4
  let nrun := halfAt h 6
  let src := bankBytes (old.drop (4096 * sblk)) 4096
  if h.length < 8 ∨ byteAt h 1 ≠ 0 ∨ halfAt h 2 ≠ i then none
  else if byteAt h 0 = 3 then
    (if sblk ≠ 0 ∨ nrun ≠ 0 ∨ h.length < 4104 then none else some ((h.drop 8).take 4096, ofs + 4104))
  else if full ∨ blocks ≤ sblk then none
  else if byteAt h 0 = 1 then (if nrun ≠ 0 then none else some (src, ofs + 8))
  else if byteAt h 0 = 2 then
    (if nrun = 0 ∨ 4096 < nrun then none
     else (applyRuns nrun src (h.drop 8) 0).map (fun x => (x.1, ofs + 8 + x.2)))
  else none

/-- Block i of a bank takes new bytes. -/
def writeBlock (bs : List Byte) (i : Nat) (blk : List Byte) : List Byte :=
  bankBytes bs (4096 * i) ++ blk ++ bs.drop (4096 * (i + 1))

/-- Apply records from NEXT on, `fuel` of them; false where one breaks R544. -/
def State.applyRecords : Nat → State → State × Bool
  | 0, s => (s, true)
  | fuel + 1, s =>
    let d := s.mram.staged
    match applyRecord (s.fwImage s.fwBank1) (mfNewLen s.fwDesc / 4096) (mfFull d) (s.mram.delta.take (mfDeltaLen d))
        s.mram.next.toNat s.mram.dofs.toNat with
    | none => (s, false)
    | some (blk, ofs) =>
      let s := s.setFwImage (!s.fwBank1) (writeBlock (s.fwImage (!s.fwBank1)) s.mram.next.toNat blk)
      State.applyRecords fuel { s with mram := { s.mram with next := s.mram.next + 1, dofs := BitVec.ofNat 32 ofs } }

/-- A rejection (R548). -/
def State.fwReject (s : State) (reason : Nat) : State :=
  { s with mram := { s.mram with bstate := 0 } }.event 0x0A04 5 0x09
    [BitVec.ofNat 32 reason, mfVersion s.mram.staged, s.mram.next]

/-- VERIFIED (R546): BANKPTR names the bank whose descriptor holds the staged manifest, and the trial begins. -/
def State.fwSwitch (s : State) : State :=
  let p := if s.fwDesc = s.mram.staged then s.mram.bankptr else if s.fwBank1 then 0 else 1
  { s with mram := { s.mram with bankptr := p, btry := 0, bstate := 4 } }

/-- APPLYING after its manifest check (R546). -/
def State.fwApply (s : State) : State :=
  let s := if s.mram.next = 0 then s
    else { s with mram := { s.mram with applyn := s.mram.applyn + 1 } }.event 0x0A05 4 0x09
      [s.mram.next, (s.mram.applyn + 1).setWidth 32, 0]
  let d := s.mram.staged
  let r := s.applyRecords (mfRecords d - s.mram.next.toNat)
  let t := r.1
  if !r.2 ∨ t.mram.dofs.toNat ≠ mfDeltaLen d then t.fwReject 6
  else
    let t := t.setFwImage (!t.fwBank1) (bankBytes (t.fwImage (!t.fwBank1)) (mfNewLen d))
    if Config.sm3 (t.fwImage (!t.fwBank1)) ≠ mfNewSm3 d then t.fwReject 8
    else { t.setFwDesc (!t.fwBank1) d with mram := { (t.setFwDesc (!t.fwBank1) d).mram with bstate := 3 } }.fwSwitch

/-- Step 3 of the boot sequence (R542, R546). -/
def State.bootStage (s : State) : State :=
  let reason := s.manifestReason
  if s.mram.bstate = 1 then
    (if reason ≠ 0 then s.fwReject reason
     else { s with mram := { s.mram with applyn := s.mram.applyn + 1, next := 0, dofs := 0, bstate := 2 } }.fwApply)
  else if s.mram.bstate = 2 then
    (if 8 ≤ s.mram.applyn.toNat then s.fwReject 7 else if reason ≠ 0 then s.fwReject reason else s.fwApply)
  else if s.mram.bstate = 3 then s.fwSwitch
  else s

/-- Step 4: the bank to boot (R550, R551), with whether it is the trial bank; none where no bank qualifies. A trial bank
that has had three boots is not started (notes/assumptions/1604.md). -/
def State.bootBank (s : State) : Option (State × Bool) :=
  let b := s.fwBank1
  let trial := decide (s.mram.bstate = 4)
  let other : Word := if b then 0 else 1
  if trial ∧ s.mram.btry = 3 then
    (if s.fwQualifies (!b) then
       some ({ s with mram := { s.mram with bankptr := other, bstate := 0 } }.event 0x0A06 6 0x09
         [mfVersion (s.fwDescOf b), mfVersion (s.fwDescOf (!b)), 3], false)
     else none)
  else
    let s := if trial then { s with mram := { s.mram with btry := s.mram.btry + 1 } } else s
    if s.fwQualifies b then some (s, trial)
    else if s.fwQualifies (!b) then
      some ({ s with mram := { s.mram with bankptr := other } }.event 0x0A07 6 0x09
        [bit b, bit (!b), 0], false)
    else none

/-- Step 10: the trial bank is confirmed (R551). -/
def State.fwConfirm (s : State) : State :=
  { s with ks := { s.ks with fwrbc := mfRbc s.fwDesc }, mram := { s.mram with bstate := 0 } }.event 0x0A03 5 0x09
    [mfVersion (s.fwDescOf (!s.fwBank1)), mfVersion s.fwDesc, mfRbc s.fwDesc]

/-! ### The boot sequence (16 R535) -/

/-- The services of the Badger while the boot runs: the question moves on once for each (14 R489, R494). -/
def bdAsked : Nat → BitVec 16 → BitVec 16
  | 0, q => q
  | n + 1, q => bdAsked n (bdNext q)

/-- The Badger under hardware start counts and is serviced during the boot; how often is open (14 R489). -/
def State.bootBadger (s : State) : State :=
  if Config.hws then
    let n := Config.freeNat s.free
    { s.draw with bd := { s.bd with q := bdAsked n s.bd.q, scnt := BitVec.ofNat 8 n } }.bdInterval
  else s

/-- Step 2 and the slots that a reset destroys (13 R459, R471; notes/assumptions/1304.md). -/
def State.bootKeys (s : State) : State :=
  let s := s.destroySlots ((List.range 64).filter (fun k => (s.slot k).occ && !(s.slot k).persist))
  match s.ks.pendTo with
  | some dest => s.lcSteps dest true
  | none => s

/-- Step 6: the recorder's scan, then POWER_GAP or CLOCK_RESET, then the boot events, BOOT first (R535, R538; 15 R507,
R508, R528; notes/assumptions/1503.md). -/
def State.bootRecords (s : State) (src : ResetSource) (ms : Nat) : State :=
  let booted := s.er.queue
  let s := { s with er := { s.er with queue := [] } }.bootScan
  let c := s.rtc
  let s := if c.stat.getLsbD 26 then
      { s with rtc := { c with stat := c.stat &&& 0xFBFFFFFF } }.event 0x0003 4 0x08 [c.bkin, c.bkout] else s
  let s := if c.clkReset then { s with rtc := { s.rtc with clkReset := false } }.event 0x0005 5 0x08 [] else s
  let s := s.event 0x0A01 3 0x09 [BitVec.ofNat 32 (resetCode src), s.fwVersion, BitVec.ofNat 32 ms]
  booted.foldl (fun s q => s.enqueue q) s

/-- An Ethernet port comes up with the policy's static address, or asks for one (11 R414; 13 R476; notes/assumptions/1606.md). -/
def State.bootPort (s : State) (k : Nat) : State :=
  let ip := wordAt s.ks.policy (2 + 3 * k)
  let p : EthPort := { up := true, ip := ip, dhcp := decide (ip = 0), linkLocal := false }
  { s with hc := { s.hc with eth := s.hc.eth.set (fun _ => {}) k p } }

/-- Step 9 for a region (06 R245-R247): the Owl test, or its failure. -/
def State.bootOwl (s : State) (wrong : List (Fin 4 × Bool × Option (Fin 64))) (r : Nat) : State :=
  if !regionPresent r ∨ dualOwl then s
  else match owlTest ((wrong.filter (fun f => f.1.val == r)).map (fun f => f.2)) with
    | none => s.modRegion r (fun x => { x with owlt := true })
    | some f =>
      let s := s.modRegion r (fun x => { x with cov := .unavail, mkind := 0x07 })
      s.event 0x0203 6 (0x10 + r) [BitVec.ofNat 32 r, BitVec.ofNat 32 f.1, (f.2.map (fun i => BitVec.ofNat 32 i.val)).getD 0xFFFFFFFF]

/-- Step 10: every LP enters STOP, or HALT in a region that failed its test (04 R165; 06 R246). -/
def State.bootLp (s : State) (p : Nat) : State :=
  if !regionPresent (p / 2) then s
  else if (s.region (p / 2)).cov = .unavail then
    s.modLp p (fun x => { x with st := .halt, hcause := 2, unavail := true })
  else s.modLp p (fun x => { x with st := .stop })

/-- Steps 6 to 10 with system firmware. AUTOSTART acts as a RUN command of the house core, so that a pair-provisioned module
first acquires the control-token line (04 R165; 07 R270, R272; notes/assumptions/1605.md). -/
def State.bootSystem (s : State) (src : ResetSource) (ms : Nat) (wrong : List (Fin 4 × Bool × Option (Fin 64))) (trial : Bool) : State :=
  let s := s.bootRecords src ms
  let s := (s.bootPort 0).bootPort 1
  let s := s.bootProgram
  let s := { s with bd := { s.bd with mode := if s.prog.valid then s.prog.modes.extractLsb' 6 2 else 0 } }
  let s := (List.range 4).foldl (fun s r => s.bootOwl wrong r) s
  let s := if trial then s.fwConfirm else s
  let s := (List.range 8).foldl State.bootLp s
  let pair := s.provisioned
  let s := { s with boot := .done, resetReq := none
                    pl := { s.pl with role := if pair then 2 else 0, pdrive := pair, psel := Config.psel } }
  let s : State := if s.halted then s.moduleHalt else s
  if s.prog.valid && s.prog.modes.getLsbD 0 then runOp .house 0xFF false s else s

/-- MODULE_RESET (16 R532-R535): the die stops and boot runs; step 5 comes `ms` after reset release, and `wrong` names
the windows of the Owl test that a region's Owl reports wrongly (06 R245). With no bootable bank the module stays in BOOT (R550; notes/assumptions/1601.md). -/
def moduleResetOp (src : ResetSource) (ms : Nat) (wrong : List (Fin 4 × Bool × Option (Fin 64))) (s : State) : State :=
  let s := s.assertReset src
  let src := s.resetReq.getD src
  let s := { s with boot := .running, time := s.time + ms * 12000000 }
  let s := (s.bootBadger.bootKeys).bootStage
  match s.bootBank with
  | none => { s with boot := .dead, resetReq := none }
  | some (t, trial) => t.bootSystem src ms wrong trial

/-! ### The sources (16 R531; 17 R553) -/

def powerOnOp (s : State) : State := s.assertReset .powerOn
/-- BROWN_OUT: the supply of the host and Sett domains is gone (01 R47; 12 R439). -/
def brownOutOp (s : State) : State := (settSupplyLossOp s).assertReset .brownOut

/-- BADGER_ACTION (14 R499): a reset, or RCAUSE 0x2. -/
def badgerActionOp (s : State) : State :=
  if !s.bd.actionDue then s
  else
    let t := { s with bd := { s.bd with actionDue := false } }
    if s.bdResets then t.assertReset .badger else t.relinquishFor 2

/-- HOST_COMMAND_RESET (16 R537). -/
def hostCommandResetOp (s : State) : State := if s.hc.resetDue then s.assertReset .hostCommand else s

/-! ### The indicators (17 R571) -/

/-- An indicator after the lamp test of step 1. -/
inductive Led where
  | off | on | flash | green | greenFlash | yellow | yellowFlash
  deriving DecidableEq, Repr

/-- RUN, FORCE, PAIR, FAULT and SETT. -/
def State.leds (s : State) : List Led :=
  let m := s.mstate
  let someHalt := (List.range 8).any (fun p => s.lpExists p && decide ((s.lp p).st = .halt))
  [if m = .run then .on else if m = .stop then .flash else .off,
   if s.forced then .on else .off,
   if s.pl.role = 1 then (if s.partnerFit then .green else .yellow)
     else if s.pl.role = 2 then (if s.pl.ps = .sync then .greenFlash else .yellowFlash) else .off,
   if m = .halt ∨ s.boot = .dead ∨ s.ks.fail then .on else if someHalt then .flash else .off,
   match s.sett.st with | .meter => .on | .service => .flash | _ => .off]

end Sys2Proof.Machine
end

