-- ==== Sys2Proof/Machine/HostChannel.lean ====
section
/-! DEFINITION. The host channel: Ethernet ports, sessions, requests, move lists, long operations, and the KEYGEN
sub-operations (11 R414-R428, R573; 13 R456-R459, R474-R482; 15 R529; 16 R537, R543). -/

namespace Sys2Proof.Machine

/-! ### Ethernet ports (11 R414) -/

def State.ethPort (s : State) (k : Nat) : EthPort := s.hc.eth.get (fun _ => {}) k
def State.setEthPort (s : State) (k : Nat) (p : EthPort) : State := { s with hc := { s.hc with eth := s.hc.eth.set (fun _ => {}) k p } }

/-- ETHERNET_LINK_CHANGE: no port has a link before step 7 of the boot sequence (R573). -/
def ethernetLinkChangeOp (k : Nat) (up : Bool) (s : State) : State :=
  if s.boot ≠ .done then s
  else if up then (if (s.ethPort k).up then s else s.bootPort k)
  else s.setEthPort k { s.ethPort k with up := false }

/-- LINK_LOCAL_FALLBACK: a port that asks for an address and has none takes a link-local one. -/
def linkLocalFallbackOp (k : Nat) (ip : Word) (s : State) : State :=
  let p := s.ethPort k
  if p.up ∧ p.dhcp ∧ p.ip = 0 then s.setEthPort k { p with ip := ip, linkLocal := true } else s

/-- DHCP_ANSWER. -/
def dhcpAnswerOp (k : Nat) (ip : Word) (s : State) : State :=
  let p := s.ethPort k
  if p.up ∧ p.dhcp then s.setEthPort k { p with ip := ip, linkLocal := false } else s

/-! ### SETTDUMP (11 R424; 12 R454) -/

/-- The house core reads the next audit entry by a READ command. -/
def State.dumpRead (s : State) : State :=
  match s.hc.op with
  | none => s
  | some o =>
    if (s.stCmd 1).pend then s
    else
      let s := { s with hc := { s.hc with op := some { o with started := true } } }
      (s.settStage 1 3 (BitVec.ofNat 32 o.chunk) [0, 0, 0, 0]).settSend 1

/-- The READ of a dump has its answer: the waiting OPDATA is answered with the LAST flag and the entry. A READ
that could not be staged is staged now, and a closed session's dump reads on. The audit trail's length is AUDN of the mirror (12 R448; notes/assumptions/1110.md). -/
def State.dumpAdvance (s : State) : State :=
  match s.hc.op with
  | none => s
  | some o =>
    let c := s.stCmd 1
    if o.cmd ≠ 0x16 ∨ c.pend then s
    else if !o.started then (if o.wait.isSome ∨ !(s.session o.sess).opened then s.dumpRead else s)
    else
      let audn := fld (wordAt s.mrSett 4) 12 0
      let last := decide (audn ≤ o.chunk + 1)
      let data := wordsOfBytes ((if last then (1 : Byte) else 0) :: bytesOfWords c.words)
      if c.result ≠ 0 ∧ c.result ≠ 2 then s.finishOp .aborted 0 []
      else if last then s.finishOp .ok 0 data
      else
        let s := { s with hc := { s.hc with op := some { o with started := false, wait := none, chunk := o.chunk + 1 } } }
        match o.wait with
        | some w => s.reply o.sess w.1 w.2 .ok 0 data
        | none => s.dumpRead

/-! ### The end of a session (11 R416, R417, R426) -/

/-- A long operation in its transfer phase ends ABORTED, its target area empty (11 R426, 06 R265, 16 R543). -/
def State.cancelOp (s : State) : State :=
  match s.hc.op with
  | none => s
  | some o =>
    if o.cmd = 0x11 then s.abortExchange o.region
    else if o.cmd = 0x12 then
      (if o.started then { s with mram := { s.mram with staged := [], delta := [] } } else s).finishOp .aborted 0 []
    else s.emptyFreeBank.finishOp .aborted 0 []

/-- Session i is closed: an operation of it in its transfer phase ends, and a later final reply is dropped. -/
def State.closeSession (s : State) (i : Nat) : State :=
  let s := s.setSession i {}
  match s.hc.op with
  | none => s
  | some o =>
    if o.sess ≠ i then s
    else if o.phase = 1 then { s with hc := { s.hc with op := some { o with wait := none } } }.cancelOp
    else { s with hc := { s.hc with op := some { o with wait := none } } }.dumpAdvance

/-- An ALERT is sent and counted (R416). -/
def State.alert (s : State) (x : Session) (code : BitVec 8) : State :=
  { s with hc := { s.hc with rej := satInc s.hc.rej } }.send x (.alert code)
def State.alertSession (s : State) (i : Nat) (code : BitVec 8) : State := (s.closeSession i).alert (s.session i) code

/-! ### Opening a session (11 R416, R417; 13 R456, R474, R477, R481) -/

def roleCode : Role → Nat
  | .read => 0 | .operate => 1 | .owner => 2
def roleOf (n : Nat) : Role := if n = 0 then .read else if n = 1 then .operate else .owner

/-- HELLO_H (R416, R417, R573). A session takes the first free place of four; HELLO_M carries fresh values and K0's
signature over both messages (notes/assumptions/1102.md). -/
def helloOp (path : HostPath) (ver : BitVec 8) (role : Role) (ident key nonce : List Byte) (s : State) : State :=
  let carried := match path with
    | .x6 => (s.ethPort 0).up | .x6b => (s.ethPort 1).up | .mailbox => s.mailboxServed
  if s.boot ≠ .done ∨ !carried then s
  else if ver ≠ 1 then s.alert { path := path } 1
  else match (List.range 4).find? (fun i => !(s.session i).used) with
    | none => s.alert { path := path } 4
    | some i =>
      if path = .mailbox ∧ (s.hc.sess.any (fun e => e.2.used && decide (e.2.path = .mailbox))) then s.alert { path := path } 4
      else
        let eph := Config.sm2Pub ((Config.random s.free).take 32)
        let mine := (Config.random (s.free + 1)).take 32
        let hello := [ver, BitVec.ofNat 8 (roleCode role)] ++ ident ++ key ++ nonce ++ eph ++ mine ++ s.ks.cert
        let sig := if (s.slot 0).occ && !s.ks.fail then Config.sm2Sign (s.slot 0).key (sm3Z (s.slot 0).pub hello) (s.free + 2)
                   else List.replicate 64 0
        let s := s.draw.draw.draw
        let x : Session := { used := true, path := path, want := role, ident := ident, key := key, trans := hello }
        (s.setSession i x).send x (.helloM i eph mine s.ks.cert sig)

/-- The admission entry of a host key identifier: its slot and its ROLE (13 R476, R477). -/
def State.admission (s : State) (ident : List Byte) : Option (Nat × Nat) :=
  (((List.range 16).map (fun k => (fld (wordAt s.ks.policy (8 + k)) 5 0, fld (wordAt s.ks.policy (8 + k)) 31 30))).find?
    (fun e => decide (e.2 ≠ 0) && (s.slot e.1).occ && (Config.sm3 (s.slot e.1).key).take 8 == ident))

/-- FIN_H (R416; 13 R456, R477, R481): admission, signature, session keys, FIN_M (notes/assumptions/1103.md). -/
def finHOp (i : Nat) (sig : List Byte) (s : State) : State :=
  let x := s.session i
  let lc := s.ks.lc.toNat
  let openAs := fun (r : Role) =>
    let keys := Config.kdf (Config.sm2Agree (s.slot 0).key x.key x.trans) [] 48
    (s.setSession i { x with opened := true, role := r, keys := keys, rxSeq := 0, txSeq := 0 }).send x (.finM i r)
  if !x.used ∨ x.opened then s
  else if lc = 3 then
    match s.admission x.ident with
    | none => s.alertSession i 2
    | some e =>
      if Config.sm2Verify (s.slot e.1).key (sm3Z (s.slot e.1).key x.trans) sig then openAs (roleOf (min (roleCode x.want) (e.2 - 1)))
      else s.alertSession i 2
  else if lc = 2 ∨ lc = 4 then
    (if Config.sm2Verify x.key (sm3Z x.key x.trans) sig then openAs x.want else s.alertSession i 2)
  else s.alertSession i 3

/-- HANDSHAKE_TIMEOUT and SESSION_TIMEOUT (R416, R417). -/
def handshakeTimeoutOp (i : Nat) (s : State) : State :=
  if (s.session i).used ∧ !(s.session i).opened then s.alertSession i 5 else s
def sessionTimeoutOp (i : Nat) (s : State) : State := if (s.session i).opened then s.alertSession i 5 else s

/-- SESSION_REKEY (13 R482): every open session and the pair link session has new keys and starts its record numbers again (notes/assumptions/1111.md). -/
def State.rekey (s : State) (i : Nat) : State :=
  let x := s.session i
  if x.opened then s.draw.setSession i { x with keys := (Config.random s.free).take 48, rxSeq := 0, txSeq := 0 } else s
def sessionRekeyOp (s : State) : State :=
  let s := (List.range 4).foldl State.rekey s
  if s.pl.link then { s.draw with pl := { s.pl with keys := (Config.random s.free).take 48 } } else s

/-! ### Requests: code, role and state (11 R421, R573; 13 R456) -/

def reqCmd : HostReq → BitVec 16
  | .status => 0x01 | .ident => 0x02 | .region _ => 0x03 | .moves _ => 0x04 | .cover .. => 0x05 | .lastop => 0x06 | .ping => 0x07
  | .load _ => 0x10 | .exchange .. => 0x11 | .fwstage => 0x12 | .keygen _ => 0x13 | .recclr _ => 0x14 | .memtest => 0x15
  | .settdump => 0x16 | .opdata _ => 0x20 | .opend .. => 0x21 | .opcancel => 0x22 | .unknown c => c

/-- Every entry of a move list reads (R422). -/
def readsOnly (ms : List HostMove) : Bool := ms.all (fun m => match m with | .read _ => true | _ => false)

/-- The role a request needs. -/
def reqRole : HostReq → Nat
  | .cover .. | .load _ | .exchange .. | .fwstage | .memtest => 1
  | .keygen _ | .recclr _ => 2
  | .moves ms => if readsOnly ms then 0 else 1
  | _ => 0

/-- A request that boot answers from step 7 on (R573). -/
def bootReq : HostReq → Bool
  | .status | .ident | .region _ | .lastop | .ping => true
  | _ => false

/-- The lifecycle state permits a request (13 R456, R458, R478): an OWNER session in PROVISIONED and every session in
DECOMMISSIONED have READ commands and the KEYGEN sub-operations of their state (notes/assumptions/1113.md). -/
def State.lcPermits (s : State) (role : Role) (q : HostReq) : Bool :=
  match q with
  | .keygen _ => true
  | q => decide (reqRole q = 0) || s.ks.lc == 3 || (s.ks.lc == 2 && decide (role ≠ .owner))

/-! ### Move lists (11 R422) -/

/-- Host accesses that wait for the master's key store operation (13 R468). -/
def ksWaits (a : Nat) : Bool := a == 0xAC1 || a == 0xAC6 || a == 0xAC7 || a == 0xACA || a == 0xACB || a == 0xACC

/-- The operations in front of the host channel's own complete in their order (notes/assumptions/1302.md). -/
def State.hostWait : Nat → State → State
  | 0, s => s
  | fuel + 1, s =>
    if s.ksBusy .host then State.hostWait fuel (ksOpCompleteOp (Config.freeBool s.free) s).draw else s

def State.hostAccess (s : State) (a : Nat) : State := if ksWaits a then s.hostWait s.ks.queue.length else s

/-- One entry: the state and the words read. -/
def State.hostMove (s : State) (m : HostMove) : State × List Word :=
  match m with
  | .move src dst =>
    let r := (s.hostAccess src.toNat).moveRead .host src.toNat
    ((r.1.hostAccess dst.toNat).moveWrite .host dst.toNat r.2, [])
  | .lit v dst => ((s.hostAccess dst.toNat).moveWrite .host dst.toNat v, [])
  | .read src =>
    let r := (s.hostAccess src.toNat).moveRead .host src.toNat
    (r.1, [r.2])
  | .invalid => (s, [])

def State.hostMoves (s : State) (ms : List HostMove) : State × List Word :=
  ms.foldl (fun x m => let r := x.1.hostMove m; (r.1, x.2 ++ r.2)) (s, [])

/-! ### KEYGEN (13 R458, R459, R476, R478) -/

/-- The first bytes of a digest. -/
def digestHead (bs : List Byte) (n : Nat) : List Byte := (Config.sm3 bs).take n

/-- A policy under an owner root key (R476): a signature, a higher PVER, and admission entries that name keys (notes/assumptions/1307.md). -/
def State.policyOk (s : State) (root : List Byte) (ws : List Word) : Bool :=
  ws.length == 40
    && Config.sm2Verify root (sm3Z root (bytesOfWords (ws.take 24) ++ Config.serial)) (bytesOfWords (ws.drop 24))
    && (s.ks.policy == [] || decide ((wordAt s.ks.policy 0).toNat < (wordAt ws 0).toNat))
    && (List.range 16).all (fun k =>
      let e := wordAt ws (8 + k)
      let n := fld e 5 0
      decide (fld e 31 30 = 0) || (decide (8 ≤ n ∧ n ≤ 23) && (s.slot n).occ))

/-- The confirmation of RELEASE and DECOMMISSION. -/
def State.confirm (s : State) (code : Nat) : List Byte :=
  digestHead ((s.slot 0).pub ++ Config.serial ++ [BitVec.ofNat 8 code, 0]) 4

/-- An authorization towards a state (R478). -/
def State.authOk (s : State) (auth : List Word) (dest : Nat) : Bool :=
  auth.length == 24 && auth.take 8 == (wordsOfBytes (Config.serial.take 8)).take 2 ++ [s.ks.lc.setWidth 32, s.ks.tcnt, BitVec.ofNat 32 dest, 0, 0, 0]
    && (s.slot 2).occ && !s.ks.fail
    && Config.sm2Verify (s.slot 2).pub (sm3Z (s.slot 2).pub (bytesOfWords (auth.take 8))) (bytesOfWords (auth.drop 8))

/-- The states in which a sub-operation is carried out, and the target state of a transition (R478). -/
def kgStates : KeygenReq → List Nat
  | .claim .. => [2]
  | .lcReturn _ => [2, 3, 4]
  | .restore _ => [5]
  | _ => [3]
def kgTarget : KeygenReq → Option Nat
  | .claim .. => some 3
  | .release _ => some 2
  | .decommission _ => some 4
  | .lcReturn _ => some 5
  | .restore _ => some 2
  | _ => none

/-- The answer to a KEYGEN before it is accepted: none where it is (notes/assumptions/1109.md). -/
def State.kgRefusal (s : State) (k : KeygenReq) : Option (RStat × BitVec 16) :=
  let bad : Option (RStat × BitVec 16) := some (.badreq, 0)
  if !(kgStates k).contains s.ks.lc.toNat then some (.state, 0)
  else if (kgTarget k).isSome ∧ s.pl.role ≠ 0 ∧ kgTarget k ≠ some 5 then some (.state, 0)
  else match k with
    | .generate slot a0 a1 =>
      if slot.val = 4 then none
      else if slot.val < 24 then bad
      else if s.attrsOk 10 a0 a1 none && makesKey a0 then none else bad
    | .claim code root policy =>
      if 16 ≤ s.ks.wrongCodes then some (.refused, 0x202)
      else if code.length ≠ 8 ∨ root.length ≠ 64 ∨ policy.length ≠ 40 then bad
      else if code ≠ (Config.hmac (s.slot 1).key [0x43, 0x4C, 0x41, 0x49, 0x4D]).take 8 ∨ !(s.slot 1).occ then some (.refused, 0x201)
      else if s.policyOk root policy then none else some (.refused, 0x200)
    | .policy ws =>
      if ws.length ≠ 40 then bad
      else if (s.slot 3).occ && s.policyOk (s.slot 3).key ws then none else some (.refused, 0x200)
    | .keyImport slot a0 a1 key =>
      if slot.val < 5 ∨ key.length ≠ 64 then bad
      else if slot.val < 24 then none
      else if s.attrsOk 10 a0 a1 none && fld a0 30 28 == 2 then none else bad
    | .destroy slot => if slot.val < 4 then bad else none
    | .release conf => if conf = s.confirm 6 then none else bad
    | .decommission conf => if conf = s.confirm 7 then none else bad
    | .lcReturn auth => if s.authOk auth 5 then none else bad
    | .restore auth => if s.authOk auth 2 then none else bad

/-- A sub-operation that is no transition does its work: the state and the payload. `errs` says that a destruction does
not read back zero (R463, R470, R473, R478, R485; notes/assumptions/1303.md). -/
def State.kgPerform (s : State) (k : KeygenReq) (errs : Bool) : State × List Byte :=
  let zeros := List.replicate 64 (0 : Byte)
  let put := fun (slot : Nat) (a0 a1 : Word) (key out : List Byte) =>
    let f := fixedAttrs slot
    let a := if slot < 24 then f else (a0, a1)
    if (s.slot slot).occ ∨ s.ks.fail then (s.violation .host slot .slotLow, if out = [] then [] else zeros)
    else (s.setSlot slot (madeSlot a.1 a.2 none key), out)
  match k with
  | .generate slot a0 a1 =>
    let kt := if slot.val = 4 then 1 else fld a0 30 28
    let key := (Config.random s.free).take (keyLen kt)
    let r := put slot.val a0 a1 key (if kt = 1 then Config.sm2Pub key else [])
    (r.1.draw, r.2)
  | .keyImport slot a0 a1 key => put slot.val a0 a1 key key
  | .policy ws => ({ s with ks := { s.ks with policy := ws } }, (s.slot 0).pub)
  | .destroy slot =>
    if s.ks.fail then (s.violation .host slot.val .occ, [])
    else
      let t := s.destroySlots [slot.val]
      (if errs then t.zeroFail (BitVec.ofNat 32 slot.val) else t, [])
  | _ => (s, [])

/-- An accepted transition up to its pending record (R459 steps 1 and 2); CLAIM first writes K3 and the policy. -/
def State.kgTransition (s : State) (k : KeygenReq) : State :=
  let s := match k with
    | .claim _ root policy =>
      let a := fixedAttrs 3
      let t := s.setSlot 3 (madeSlot a.1 a.2 none root)
      { t with ks := { t.ks with policy := policy } }
    | _ => s
  match kgTarget k with
  | some dest => { s.stopAll with ks := { s.stopAll.ks with pendTo := some (BitVec.ofNat 8 dest) } }
  | none => s

/-! ### Long operations (11 R424-R426) -/

/-- A long operation is accepted. -/
def State.acceptOp (s : State) (i : Nat) (o : LongOp) : State :=
  { s with hc := { s.hc with op := some { o with sess := i, key := (s.session i).ident } } }

/-- A long operation without parameters of its own. -/
def plainOp (cmd : BitVec 16) (phase : BitVec 2) : LongOp := { cmd := cmd, sess := 0, key := [], phase := phase }

/-- LOAD (04 R169, R170). -/
def State.reqLoad (s : State) (i : Nat) (tag : BitVec 16) (forceclr : Bool) : State :=
  if s.mstate ≠ .stop then s.reply i 0x10 tag .state 0 []
  else (s.acceptOp i { plainOp 0x10 1 with forceclr := forceclr }).reply i 0x10 tag .ok 0 []

/-- EXCHANGE (06 R257, R259): coverage is EXPREP from the start of the transfer. -/
def State.reqExchange (s : State) (i : Nat) (tag : BitVec 16) (n : Word) (keep forceclr : Bool) : State :=
  if 4 ≤ n.toNat then s.reply i 0x11 tag .badreq 0 []
  else
    let c := s.exchangeRefusal n.toNat
    if c ≠ 0 then s.reply i 0x11 tag .refused c []
    else
      let s := s.modRegion n.toNat (fun x => { x with cov := .exPrep, exStage := 1, exKeep := keep, exForce := forceclr, exBytes := [] })
      (s.acceptOp i { plainOp 0x11 1 with forceclr := forceclr, region := n.toNat }).reply i 0x11 tag .ok 0 []

/-- COVER (06 R249, R256; 07 R278). -/
def State.reqCover (s : State) (i : Nat) (tag : BitVec 16) (n : Word) (split runOdd : Bool) : State :=
  if h : 4 ≤ n.toNat then s.reply i 0x05 tag .badreq 0 []
  else
    let c := s.coverRefusal n.toNat split
    if c ≠ 0 then s.reply i 0x05 tag .refused c []
    else (((s.forward (.cover ⟨n.toNat, by omega⟩ split runOdd)).coverNow n.toNat split runOdd)).reply i 0x05 tag .ok 0 []

/-- KEYGEN: a wrong claim code is counted; a transition starts at once, every other sub-operation ends with
LONG_OP_COMPLETE. -/
def State.reqKeygen (s : State) (i : Nat) (tag : BitVec 16) (k : KeygenReq) : State :=
  match s.kgRefusal k with
  | some (st, reason) =>
    let s := if reason = 0x201 then { s with ks := { s.ks with wrongCodes := s.ks.wrongCodes + 1 } } else s
    s.reply i 0x13 tag st reason []
  | none => (s.acceptOp i { plainOp 0x13 3 with wait := some (0x13, tag), kg := some k }).kgTransition k

/-- The RECCLR token (15 R529). -/
def State.recToken (s : State) : List Byte :=
  digestHead (Config.serial.take 8 ++ bytesOfWord s.er.nseq ++ [0x52, 0x45, 0x43, 0x43, 0x4C, 0x52]) 4

/-- RECCLR (15 R529). -/
def State.reqRecclr (s : State) (i : Nat) (tag : BitVec 16) (token : List Byte) : State :=
  if token ≠ s.recToken then s.reply i 0x14 tag .refused 0x300 []
  else { s with er := { s.er with clr := true } }.acceptOp i { plainOp 0x14 3 with wait := some (0x14, tag) }

/-- MEMTEST overwrites the free program bank and the staging area (11 R424, 16 R543). -/
def State.reqMemtest (s : State) (i : Nat) (tag : BitVec 16) : State :=
  let s := s.emptyFreeBank
  { s with mram := { s.mram with bstate := 0, staged := [], delta := [] } }.acceptOp i { plainOp 0x15 3 with wait := some (0x15, tag) }

/-- The staging area holds a manifest and at most 2,031,360 delta bytes; a program bank 25,165,824 bytes (16 R543,
11 R424). -/
def opRoom (cmd : BitVec 16) : Nat := if cmd = 0x12 then 192 + 2031360 else 25165824

/-! ### Transfer (11 R424, R426; 16 R537, R543) -/

/-- The operation that the request of a session continues, in its transfer phase. -/
def State.ownOp (s : State) (i : Nat) : Option LongOp := s.hc.op.filter (fun o => decide (o.sess = i))

/-- What OPDATA, OPEND and OPCANCEL find when no operation of the session runs: an operation that ended ABORTED meanwhile,
or no operation (11 R424; 06 R265; notes/assumptions/1107.md). -/
def State.noOp (s : State) (i : Nat) (cmd tag : BitVec 16) : State :=
  s.reply i cmd tag (if s.hc.last.toNat % 65536 = 5 then .aborted else .state) 0 []

/-- OPDATA. -/
def State.reqOpdata (s : State) (i : Nat) (tag : BitVec 16) (bs : List Byte) : State :=
  match s.ownOp i with
  | none => s.noOp i 0x20 tag
  | some o =>
    let o' := { o with wait := some (0x20, tag) }
    if o.cmd = 0x16 then { s with hc := { s.hc with op := some o' } }.dumpRead
    else if 16376 < bs.length then s.reply i 0x20 tag .badreq 0 []
    else if opRoom o.cmd < o.bytes.length + bs.length then { s with hc := { s.hc with op := some o' } }.cancelOp
    else
      let s := if o.cmd = 0x12 ∧ !o.started then { s with mram := { s.mram with bstate := 0 } } else s
      let s := { s with hc := { s.hc with op := some { o with bytes := o.bytes ++ bs, started := true } } }
      s.reply i 0x20 tag .ok 0 []

/-- OPEND of a FWSTAGE whose bytes are intact: a reset request, or a staged image (notes/assumptions/1603.md). -/
def State.endStage (s : State) (bs : List Byte) (started : Bool) : State :=
  if bs = [] ∧ !started then
    (if s.anyRun then s.finishOp .state 0 []
     else { (s.finishOp .ok 0 []) with hc := { (s.finishOp .ok 0 []).hc with resetDue := true } })
  else
    let m := bs.take 192
    let s := { s with mram := { s.mram with staged := m, delta := bs.drop 192, bstate := 1, applyn := 0, next := 0 } }
    (s.event 0x0A02 3 0x09 [mfVersion m, mfRbc m, BitVec.ofNat 32 (bs.length - 192)]).finishOp .ok 0 []

/-- OPEND: length and SM3 are checked; the work follows. -/
def State.reqOpend (s : State) (i : Nat) (tag : BitVec 16) (len : Nat) (digest : List Byte) : State :=
  match s.ownOp i with
  | none => s.noOp i 0x21 tag
  | some o =>
    let o' := { o with wait := some (0x21, tag) }
    let s := { s with hc := { s.hc with op := some o' } }
    if len ≠ o.bytes.length ∨ digest ≠ Config.sm3 o.bytes then
      (if o.cmd = 0x11 then
         ((s.modRegion o.region (fun x => { x with cov := .paired, exStage := 0, exBytes := [] })).emptyFreeBank).finishOp .refused 1 []
       else if o.cmd = 0x10 then s.emptyFreeBank.finishOp .refused 1 []
       else s.finishOp .refused 1 [])
    else if o.cmd = 0x12 then s.endStage o.bytes o.started
    else
      let s := { s with hc := { s.hc with op := some { o' with phase := 2 } } }
      if o.cmd = 0x11 then s.modRegion o.region (fun x => { x with exBytes := o.bytes, exStage := 2 }) else s

/-- OPCANCEL. -/
def State.reqOpcancel (s : State) (i : Nat) (tag : BitVec 16) : State :=
  match s.ownOp i with
  | none => s.noOp i 0x22 tag
  | some o => { s with hc := { s.hc with op := some { o with wait := some (0x22, tag) } } }.cancelOp

/-- LONG_OP_COMPLETE (R426): KEYGEN, RECCLR or MEMTEST ends; `found` is the errors that MEMTEST found, or whether a destroyed
slot does not read back zero (notes/assumptions/1305.md). -/
def longOpCompleteOp (found : Nat) (s : State) : State :=
  match s.hc.op with
  | none => s
  | some o =>
    if o.cmd = 0x15 then s.finishOp .ok 0 [BitVec.ofNat 32 found]
    else if o.cmd = 0x14 then
      let n := s.er.cnt
      let s := { s with mram := { s.mram with records := [] }
                        er := { s.er with clr := false, cnt := 0, newest := none, newestSlot := 0 } }
      let e : Event := { code := 0x0001, source := 0x3E, sev := 6, p0 := BitVec.ofNat 32 n, p1 := s.er.nseq - 1, p2 := keyWord o.key }
      (s.newRecord { ev := e, time := s.recTime, forced := s.forced, tinv := s.rtc.invalid, occurred := s.ns }).finishOp .ok 0 []
    else match o.kg with
      | some k =>
        if o.cmd = 0x13 ∧ (kgTarget k).isNone then
          let r := s.kgPerform k (decide (found ≠ 0))
          r.1.finishOp .ok 0 (wordsOfBytes r.2)
        else s
      | none => s

/-! ### One request -/

/-- The identity record (R423). -/
def State.identRecord (s : State) : List Word :=
  [identWord0] ++ (List.range 2).map (fun k => wordAt (wordsOfBytes (Config.serial.take 8)) k)
    ++ [s.fwVersion, Config.bootRomVersion, s.ks.lc.setWidth 32]
    ++ (List.range 2).map (fun k => wordAt (wordsOfBytes ((Config.mac 0).take 6)) k)

/-- The payload of BUSY (R419). -/
def State.busyWord (s : State) (o : LongOp) : Word :=
  at_ 24 o.phase.toNat ||| at_ 16 s.progress ||| at_ 0 o.cmd.toNat

/-- A long operation runs and this request does not continue it (R425). -/
def LongOp.blocks (o : LongOp) (i : Nat) (q : HostReq) : Bool :=
  match q with
  | .opdata _ => !(o.sess == i && (decide (o.phase = 1) || decide (o.cmd = 0x16)))
  | .opend .. | .opcancel => !(o.sess == i && decide (o.phase = 1))
  | _ => true

/-- MOVES (R422; 13 R476): 1 to 256 valid entries; a policy may bar every entry that does not read. -/
def State.reqMoves (s : State) (i : Nat) (tag : BitVec 16) (ms : List HostMove) : State :=
  if !readsOnly ms ∧ (wordAt s.ks.policy 1).getLsbD 1 then s.reply i 0x04 tag .role 0 []
  else
    let r := s.hostMoves ms
    r.1.reply i 0x04 tag .ok 0 r.2

/-- Parameters outside what a request may carry (R419). -/
def malformed : HostReq → Bool
  | .moves ms => ms.isEmpty || decide (256 < ms.length) || ms.any (fun m => decide (m = .invalid))
  | .region n => decide (4 ≤ n.toNat)
  | .unknown _ => true
  | _ => false

/-- A permitted request is executed. -/
def State.performReq (s : State) (i : Nat) (tag : BitVec 16) (q : HostReq) : State :=
  let ok := fun (ws : List Word) => s.reply i (reqCmd q) tag .ok 0 ws
  match q with
  | .status => ok [s.portRead .host 0x840, s.hcStat, s.rkStat, s.portRead .host 0xA80]
  | .ident => ok s.identRecord
  | .region n => ok (s.regionWords n.toNat)
  | .lastop => ok [at_ 16 (fld s.hc.last 15 0) ||| at_ 0 (fld s.hc.last 31 16)]
  | .ping => ok []
  | .moves ms => s.reqMoves i tag ms
  | .cover n split runOdd => s.reqCover i tag n split runOdd
  | .load forceclr => s.reqLoad i tag forceclr
  | .exchange n keep forceclr => s.reqExchange i tag n keep forceclr
  | .fwstage => (s.acceptOp i (plainOp 0x12 1)).reply i 0x12 tag .ok 0 []
  | .keygen k => s.reqKeygen i tag k
  | .recclr token => s.reqRecclr i tag token
  | .memtest => s.reqMemtest i tag
  | .settdump => (s.acceptOp i (plainOp 0x16 3)).reply i 0x16 tag .ok 0 []
  | .opdata bs => s.reqOpdata i tag bs
  | .opend len digest => s.reqOpend i tag len digest
  | .opcancel => s.reqOpcancel i tag
  | .unknown _ => s.reply i (reqCmd q) tag .badreq 0 []

/-- A request of session i (R418, R419, R425, R573; 13 R456): BUSY, malformed, role and state, in this order; the session has
no request that still waits for its reply (notes/assumptions/1104.md). -/
def State.request (s : State) (i : Nat) (tag : BitVec 16) (q : HostReq) : State :=
  let x := s.session i
  let no := fun (st : RStat) => s.reply i (reqCmd q) tag st 0 []
  if !x.opened then s
  else match s.hc.op with
    | some o =>
      if o.sess = i ∧ o.wait.isSome then s
      else if o.blocks i q then
        (({ s with hc := { s.hc with busy := satInc s.hc.busy } }.reply i (reqCmd q) tag .busy 0 [s.busyWord o])).draw
      else s.performReq i tag q
    | none =>
      if s.boot ≠ .done ∧ !bootReq q then no .state
      else if malformed q then no .badreq
      else if roleCode x.role < reqRole q then no .role
      else if !s.lcPermits x.role q then no .state
      else s.performReq i tag q

/-- DATA (R415, R417; 13 R481): the next SEQ with a good tag, and the request it carries. -/
def hostDataOp (i : Nat) (seq : Word) (intact : Bool) (tag : BitVec 16) (q : HostReq) (s : State) : State :=
  let x := s.session i
  if !x.opened ∨ (s.hc.op.any (fun o => decide (o.sess = i) && o.wait.isSome)) then s
  else if !intact ∨ seq ≠ x.rxSeq ∨ x.rxSeq = 0xFFFFFFFF ∨ x.txSeq = 0xFFFFFFFF then s.alertSession i 6
  else (s.setSession i { x with rxSeq := x.rxSeq + 1 }).request i tag q

end Sys2Proof.Machine
end

