-- ==== Sys2Proof/Machine/Integer.lean ====
section
/-! DEFINITION. The results of the integer unit, the multiply and divide unit and the compare unit (03 R112-R119, R124). -/

namespace Sys2Proof.Machine

/-- A 32-bit result of the integer unit: ia.rh takes the sign extension (03 R103, R114). -/
def ia32 (r : Word) (c v : Bool) (sat : Bool := false) : UnitRes :=
  { ports := [(0xA0, r), (0xA1, signWord r)], z := decide (r = 0), n := r.msb, c := c, v := v, sat := sat }

/-- A 64-bit result of the integer unit (03 R103, R114). -/
def ia64 (r : BitVec 64) (c v : Bool) : UnitRes :=
  { ports := [(0xA0, loWord r), (0xA1, hiWord r)], z := decide (r = 0), n := r.msb, c := c, v := v }

/-- A saturated 32-bit result: V and SAT where the true result does not fit (03 R114, R124). -/
def iaSat (x : Int) (c : Bool) : UnitRes :=
  ia32 (BitVec.ofInt 32 (clampSigned 32 x)) c (!fitsSigned 32 x) (!fitsSigned 32 x)

/-- Left shift and the last bit shifted out (03 R113, R114). -/
def shlC {w : Nat} (a : BitVec w) (k : Nat) : BitVec w × Bool :=
  (if k < w then a <<< k else 0, decide (1 ≤ k ∧ k ≤ w) && a.getLsbD (w - k))
/-- Logical right shift and the last bit shifted out. -/
def shrC {w : Nat} (a : BitVec w) (k : Nat) : BitVec w × Bool :=
  (if k < w then a >>> k else 0, decide (1 ≤ k ∧ k ≤ w) && a.getLsbD (k - 1))
/-- Arithmetic right shift; C is the sign for a count above the width (03 R114). -/
def sarC {w : Nat} (a : BitVec w) (k : Nat) : BitVec w × Bool :=
  (a.sshiftRight (min k w), if k > w then a.msb else decide (1 ≤ k) && a.getLsbD (k - 1))

/-- The operations of the integer unit, in port order from 0x084 (03 R112). -/
inductive IaOp where
  | add | addc | sub | subb | adds | subs | neg | negs | abs | abss | and | or | xor | andn | not | mov
  | shl | shr | sar | rotl | rotr | add64 | sub64 | neg64 | shl64 | shr64 | sar64 | zext
  deriving DecidableEq, Repr

/-- The operation of an integer trigger port. -/
def iaOpOf (a : Nat) : Option IaOp :=
  [IaOp.add, .addc, .sub, .subb, .adds, .subs, .neg, .negs, .abs, .abss, .and, .or, .xor, .andn, .not, .mov,
   .shl, .shr, .sar, .rotl, .rotr, .add64, .sub64, .neg64, .shl64, .shr64, .sar64, .zext][a - 0x84]?

/-- The result of an integer operation from ia.a, ia.ah, ia.bh, the trigger operand and the C taken at issue
(03 R103, R112-R114, R124; 02 R74). -/
def iaResult (op : IaOp) (a ah bh b : Word) (cin : Bool) : UnitRes :=
  let la := long a ah
  let lb := long b bh
  let k := b.toNat
  match op with
  | .add => let r := addC a b false; ia32 r.1 r.2.1 r.2.2
  | .addc => let r := addC a b cin; ia32 r.1 r.2.1 r.2.2
  | .sub => let r := subC a b false; ia32 r.1 r.2.1 r.2.2
  | .subb => let r := subC a b cin; ia32 r.1 r.2.1 r.2.2
  | .adds => iaSat (a.toInt + b.toInt) (addC a b false).2.1
  | .subs => iaSat (a.toInt - b.toInt) (subC a b false).2.1
  | .neg => let r := subC 0 b false; ia32 r.1 r.2.1 r.2.2
  | .negs => iaSat (-b.toInt) false
  | .abs => ia32 (if b.msb then 0 - b else b) false (decide (b = 0x80000000))
  | .abss => iaSat (if b.msb then -b.toInt else b.toInt) false
  | .and => ia32 (a &&& b) false false
  | .or => ia32 (a ||| b) false false
  | .xor => ia32 (a ^^^ b) false false
  | .andn => ia32 (a &&& ~~~b) false false
  | .not => ia32 (~~~b) false false
  | .mov => ia32 b false false
  | .shl => let r := shlC a k; ia32 r.1 r.2 false
  | .shr => let r := shrC a k; ia32 r.1 r.2 false
  | .sar => let r := sarC a k; ia32 r.1 r.2 false
  | .rotl => let r := a.rotateLeft (k % 32); ia32 r (decide (k % 32 ≠ 0) && r.getLsbD 0) false
  | .rotr => let r := a.rotateRight (k % 32); ia32 r (decide (k % 32 ≠ 0) && r.getLsbD 31) false
  | .add64 => let r := addC la lb false; ia64 r.1 r.2.1 r.2.2
  | .sub64 => let r := subC la lb false; ia64 r.1 r.2.1 r.2.2
  | .neg64 => let r := subC 0 lb false; ia64 r.1 r.2.1 r.2.2
  | .shl64 => let r := shlC la k; ia64 r.1 r.2 false
  | .shr64 => let r := shrC la k; ia64 r.1 r.2 false
  | .sar64 => let r := sarC la k; ia64 r.1 r.2 false
  | .zext => { ports := [(0xA0, b), (0xA1, 0)], z := decide (b = 0), n := false, c := false, v := false }

/-- The operations of the multiply and divide unit (03 R115). -/
inductive ImOp where
  | mul | mulu | muls | div | divu
  deriving DecidableEq, Repr

/-- The operation of a multiply or divide trigger port. -/
def imOpOf (a : Nat) : Option ImOp := [some ImOp.mul, some .mulu, some .muls, none, some .div, some .divu].getD (a - 0xC4) none

/-- A product (03 R117). -/
def imProduct (r : BitVec 64) (fits : Bool) : UnitRes :=
  { ports := [(0xD0, loWord r), (0xD1, hiWord r)], z := decide (r = 0), n := r.msb, c := false, v := !fits }

/-- A quotient and its remainder (03 R117). -/
def imQuotient (q rem : Word) (v dz : Bool) : UnitRes :=
  { ports := [(0xD2, q), (0xD3, rem)], z := decide (q = 0), n := q.msb, c := false, v := v, dz := dz }

/-- The result of a multiply or a divide from im.a and the trigger operand (03 R115, R117, R124). -/
def imResult (op : ImOp) (a b : Word) : UnitRes :=
  match op with
  | .mul => imProduct (BitVec.ofInt 64 (a.toInt * b.toInt)) (fitsSigned 32 (a.toInt * b.toInt))
  | .mulu => imProduct (BitVec.ofNat 64 (a.toNat * b.toNat)) (decide (a.toNat * b.toNat < 2 ^ 32))
  | .muls =>
    let x := a.toInt * b.toInt
    let r : Word := BitVec.ofInt 32 (clampSigned 32 x)
    { ports := [(0xD0, r), (0xD1, signWord r)], z := decide (r = 0), n := r.msb, c := false
      v := !fitsSigned 32 x, sat := !fitsSigned 32 x }
  | .div =>
    if b = 0 then imQuotient 0 a false true
    else imQuotient (BitVec.ofInt 32 (a.toInt.tdiv b.toInt)) (BitVec.ofInt 32 (a.toInt.tmod b.toInt))
      (decide (a = 0x80000000 ∧ b = 0xFFFFFFFF)) false
  | .divu => if b = 0 then imQuotient 0 a false true else imQuotient (a / b) (a % b) false false

/-- The nine result ports of the compare unit (03 R118). -/
def cpPorts (eq lt le gt ge ltu geu un : Bool) : List (Nat × Word) :=
  [(0x150, bit eq), (0x151, bit (!eq)), (0x152, bit lt), (0x153, bit le), (0x154, bit gt), (0x155, bit ge),
   (0x156, bit ltu), (0x157, bit geu), (0x158, bit un)]

/-- An integer compare sets the flags of the subtraction (03 R119). -/
def cpInt {w : Nat} (a b : BitVec w) : UnitRes :=
  let d := subC a b false
  { ports := cpPorts (decide (a = b)) (a.slt b) (a.sle b) (b.slt a) (b.sle a) (a.ult b) (b.ule a) false
    z := decide (d.1 = 0), n := d.1.msb, c := d.2.1, v := d.2.2 }

/-- cp.tst (03 R119). -/
def cpTst (a b : Word) : UnitRes :=
  let r := a &&& b
  { ports := [(0x150, bit (decide (r = 0))), (0x151, bit (decide (r ≠ 0))), (0x152, 0), (0x153, 0), (0x154, 0),
              (0x155, 0), (0x156, 0), (0x157, 0), (0x158, 0)]
    z := decide (r = 0), n := r.msb, c := false, v := false }

/-- A float compare from its ordering: unordered, equal, less (03 R119). -/
def cpFloat (un eq lt : Bool) : UnitRes :=
  let eq := !un && eq
  let lt := !un && lt
  let gt := !un && !eq && !lt
  { ports := cpPorts eq lt (lt || eq) gt (gt || eq) (lt || un) (gt || eq || un) un
    z := eq, n := lt, c := un, v := false }

end Sys2Proof.Machine
end

