-- ==== Sys2Proof/Machine/Float.lean ====
section
/-! DEFINITION. IEEE 754 arithmetic of the floating-point and compare units: exact values, one rounding, nearest with ties
to even, subnormals kept, one canonical NaN (03 R120-R124). -/

namespace Sys2Proof.Machine

/-- A binary format: precision p, the exponent of the least subnormal bit, and the width. -/
structure Fmt where
  p : Nat
  elow : Int
  width : Nat
  deriving DecidableEq, Repr

def binary32 : Fmt := ⟨24, -149, 32⟩
def binary64 : Fmt := ⟨53, -1074, 64⟩

/-- A float: NaN, an infinity, or a finite value (−1)^s × m × 2^e. -/
inductive Flt where
  | nan
  | inf (s : Bool)
  | fin (s : Bool) (m : Nat) (e : Int)
  deriving DecidableEq, Repr

/-- The exponent field's all-ones value. -/
def Fmt.emax (f : Fmt) : Nat := 2 ^ (f.width - f.p) - 1

/-- Read a float from its bits. -/
def Fmt.read (f : Fmt) (x : Nat) : Flt :=
  let s := x / 2 ^ (f.width - 1) % 2 == 1
  let e := x / 2 ^ (f.p - 1) % 2 ^ (f.width - f.p)
  let m := x % 2 ^ (f.p - 1)
  if e = f.emax then (if m = 0 then .inf s else .nan)
  else if e = 0 then .fin s m f.elow
  else .fin s (m + 2 ^ (f.p - 1)) (f.elow + (e : Int) - 1)

/-- The bits of an infinity and of the canonical NaN (03 R121). -/
def Fmt.infBits (f : Fmt) (s : Bool) : Nat := carryIn s * 2 ^ (f.width - 1) + f.emax * 2 ^ (f.p - 1)
def Fmt.nanBits (f : Fmt) : Nat := f.emax * 2 ^ (f.p - 1) + 2 ^ (f.p - 2)

/-- m / 2^k rounded to nearest, ties to even. -/
def roundEven (m k : Nat) : Nat :=
  let q := m / 2 ^ k
  let r := m % 2 ^ k
  if k = 0 then m
  else if 2 * r > 2 ^ k ∨ (2 * r = 2 ^ k ∧ q % 2 = 1) then q + 1 else q

/-- The bits of a finite value rounded into the format (03 R121): the quantum is that of the value's magnitude, not
below the subnormal one; a value beyond the largest finite one becomes an infinity. -/
def Fmt.round (f : Fmt) (s : Bool) (m : Nat) (e : Int) : Nat :=
  let sg := carryIn s * 2 ^ (f.width - 1)
  if m = 0 then sg else
  let q := max (e + (m.log2 : Int) + 1 - (f.p : Int)) f.elow
  let n := if q ≤ e then m * 2 ^ (e - q).toNat else roundEven m (q - e).toNat
  let b := (q - f.elow).toNat * 2 ^ (f.p - 1) + n
  if b ≥ f.emax * 2 ^ (f.p - 1) then f.infBits s else sg + b

/-- A float's bits in a format. -/
def Fmt.write (f : Fmt) : Flt → Nat
  | .nan => f.nanBits
  | .inf s => f.infBits s
  | .fin s m e => f.round s m e

def Flt.neg : Flt → Flt
  | .nan => .nan
  | .inf s => .inf (!s)
  | .fin s m e => .fin (!s) m e

/-- A signed integer multiple of a power of two; a zero takes the given sign. -/
def Flt.ofScaled (x : Int) (e : Int) (zeroSign : Bool) : Flt :=
  if x = 0 then .fin zeroSign 0 e else .fin (decide (x < 0)) x.natAbs e

/-- The exact sum; ∞ − ∞ is NaN, a zero sum is −0 only when both are −0 (03 R121, R124). -/
def Flt.add : Flt → Flt → Flt
  | .nan, _ => .nan
  | _, .nan => .nan
  | .inf s, .inf t => if s = t then .inf s else .nan
  | .inf s, .fin _ _ _ => .inf s
  | .fin _ _ _, .inf t => .inf t
  | .fin s m e, .fin t n d =>
    let k := min e d
    let a : Int := (if s then -1 else 1) * (m * 2 ^ (e - k).toNat : Nat)
    let b : Int := (if t then -1 else 1) * (n * 2 ^ (d - k).toNat : Nat)
    Flt.ofScaled (a + b) k (s && t)

/-- The exact product; 0 × ∞ is NaN (03 R124). -/
def Flt.mul : Flt → Flt → Flt
  | .nan, _ => .nan
  | _, .nan => .nan
  | .inf s, .inf t => .inf (s != t)
  | .inf s, .fin t n _ => if n = 0 then .nan else .inf (s != t)
  | .fin s m _, .inf t => if m = 0 then .nan else .inf (s != t)
  | .fin s m e, .fin t n d => .fin (s != t) (m * n) (e + d)

/-- The quotient to 2^-130 relative precision and an inexactness bit below it, so that one rounding of it is the rounding
of the exact quotient; 0 ÷ 0 and ∞ ÷ ∞ are NaN, a finite value over 0 is ∞ (03 R124). -/
def Flt.div : Flt → Flt → Flt
  | .nan, _ => .nan
  | _, .nan => .nan
  | .inf _, .inf _ => .nan
  | .inf s, .fin t _ _ => .inf (s != t)
  | .fin s _ _, .inf t => .fin (s != t) 0 0
  | .fin s m e, .fin t n d =>
    if n = 0 then (if m = 0 then .nan else .inf (s != t))
    else
      let q := m * 2 ^ 130 / n
      let r := m * 2 ^ 130 % n
      .fin (s != t) (2 * q + (if r = 0 then 0 else 1)) (e - d - 131)

/-- A finite non-zero value over a zero (03 R123). -/
def Flt.divZero : Flt → Flt → Bool
  | .fin _ m _, .fin _ n _ => decide (m ≠ 0 ∧ n = 0)
  | _, _ => false

/-- An ordering of two values that are no NaN: equal, less. -/
def Flt.cmp : Flt → Flt → Bool × Bool
  | .inf s, .inf t => (s == t, s && !t)
  | .inf s, _ => (false, s)
  | _, .inf t => (false, !t)
  | .fin s m e, .fin t n d =>
    let k := min e d
    let a : Int := (if s then -1 else 1) * (m * 2 ^ (e - k).toNat : Nat)
    let b : Int := (if t then -1 else 1) * (n * 2 ^ (d - k).toNat : Nat)
    (decide (a = b), decide (a < b))
  | _, _ => (false, false)

def Flt.isNan : Flt → Bool
  | .nan => true
  | _ => false

/-- The integer nearest to a float, ties to even, or the integer toward zero (03 R120); none for NaN. An infinity gives
a value outside the signed 32-bit range. -/
def Flt.toInt (trunc : Bool) : Flt → Option Int
  | .nan => none
  | .inf s => some (if s then -(2 : Int) ^ 64 else (2 : Int) ^ 64)
  | .fin s m e =>
    let n := if e ≥ 0 then m * 2 ^ e.toNat else if trunc then m / 2 ^ (-e).toNat else roundEven m (-e).toNat
    some (if s then -(n : Int) else n)

/-- The flags of a float result from its bits (03 R123). -/
def fpFlags (f : Fmt) (r : Nat) (ports : List (Nat × Word)) (dz : Bool) : UnitRes :=
  { ports := ports, z := decide (r % 2 ^ (f.width - 1) = 0), n := decide (r ≥ 2 ^ (f.width - 1)), c := false
    v := decide (r % 2 ^ (f.width - 1) ≥ f.emax * 2 ^ (f.p - 1)), dz := dz }

/-- A binary32 result: fp.rh is 0 (03 R120). -/
def fp32 (x : Flt) (dz : Bool := false) : UnitRes :=
  let r := binary32.write x
  fpFlags binary32 r [(0x120, BitVec.ofNat 32 r), (0x121, 0)] dz

/-- A binary64 result. -/
def fp64 (x : Flt) (dz : Bool := false) : UnitRes :=
  let r := binary64.write x
  fpFlags binary64 r [(0x120, BitVec.ofNat 32 r), (0x121, BitVec.ofNat 32 (r / 2 ^ 32))] dz

/-- An integer result, saturated with V and SAT outside the range, 0 with V and SAT for NaN (03 R123, R124). -/
def fpInt (x : Option Int) : UnitRes :=
  let ok := match x with | some i => fitsSigned 32 i | none => false
  let r : Word := match x with | some i => BitVec.ofInt 32 (clampSigned 32 i) | none => 0
  { ports := [(0x120, r), (0x121, signWord r)], z := decide (r = 0), n := r.msb, c := false, v := !ok, sat := !ok }

/-- The operations of the floating-point unit, in port order from 0x104 (03 R120). -/
inductive FpOp where
  | fadd | fsub | fmul | fdiv | dadd | dsub | dmul | ddiv | itof | ftoi | ftrunc | itod | dtoi | dtrunc | ftod | dtof
  deriving DecidableEq, Repr

/-- The operation of a floating-point trigger port. -/
def fpOpOf (a : Nat) : Option FpOp :=
  [FpOp.fadd, .fsub, .fmul, .fdiv, .dadd, .dsub, .dmul, .ddiv, .itof, .ftoi, .ftrunc, .itod, .dtoi, .dtrunc, .ftod,
   .dtof][a - 0x104]?

/-- An operation of the divider. -/
def FpOp.isDiv : FpOp → Bool
  | .fdiv | .ddiv => true
  | _ => false

/-- Its latency in cycles (03 R122). -/
def FpOp.latency : FpOp → Nat
  | .fmul | .dmul => 4
  | .fdiv | .ddiv => 14
  | _ => 3

/-- A signed word as an exact float. -/
def fltOfWord (b : Word) : Flt := Flt.ofScaled b.toInt 0 false

/-- The result of a floating-point operation from fp.a, fp.ah, fp.bh and the trigger operand (03 R120-R124). -/
def fpResult (op : FpOp) (a ah bh b : Word) : UnitRes :=
  let fa := binary32.read a.toNat
  let fb := binary32.read b.toNat
  let da := binary64.read (long a ah).toNat
  let db := binary64.read (long b bh).toNat
  match op with
  | .fadd => fp32 (fa.add fb)
  | .fsub => fp32 (fa.add fb.neg)
  | .fmul => fp32 (fa.mul fb)
  | .fdiv => fp32 (fa.div fb) (fa.divZero fb)
  | .dadd => fp64 (da.add db)
  | .dsub => fp64 (da.add db.neg)
  | .dmul => fp64 (da.mul db)
  | .ddiv => fp64 (da.div db) (da.divZero db)
  | .itof => fp32 (fltOfWord b)
  | .ftoi => fpInt (fb.toInt false)
  | .ftrunc => fpInt (fb.toInt true)
  | .itod => fp64 (fltOfWord b)
  | .dtoi => fpInt (db.toInt false)
  | .dtrunc => fpInt (db.toInt true)
  | .ftod => fp64 fb
  | .dtof => fp32 db

/-- The operations of the compare unit, in port order from 0x144 (03 R118). -/
inductive CpOp where
  | cmp | cmp64 | cmpf | cmpd | tst
  deriving DecidableEq, Repr

def cpOpOf (a : Nat) : Option CpOp := [CpOp.cmp, .cmp64, .cmpf, .cmpd, .tst][a - 0x144]?

/-- A float compare of two values (03 R119). -/
def cpFlt (x y : Flt) : UnitRes :=
  cpFloat (x.isNan || y.isNan) (x.cmp y).1 (x.cmp y).2

/-- The result of a compare from cp.a, cp.ah, cp.bh and the trigger operand (03 R118, R119). -/
def cpResult (op : CpOp) (a ah bh b : Word) : UnitRes :=
  match op with
  | .cmp => cpInt a b
  | .cmp64 => cpInt (long a ah) (long b bh)
  | .cmpf => cpFlt (binary32.read a.toNat) (binary32.read b.toNat)
  | .cmpd => cpFlt (binary64.read (long a ah).toNat) (binary64.read (long b bh).toNat)
  | .tst => cpTst a b

end Sys2Proof.Machine
end

