-- ==== Sys2Proof/Machine/Mac.lean ====
section
/-! DEFINITION. The multiply-accumulate unit's run and results (03 R125-R128). -/

namespace Sys2Proof.Machine

/-- The operand ports of the unit as a run reads them (03 R125). -/
structure MacPorts where
  px : Nat
  py : Nat
  sx : Int
  sy : Int
  xlo : Nat
  xlen : Nat
  mode : Word
  sh : Nat
  xa : Nat
  deriving DecidableEq, Repr

/-- The X index after one step under the window rule (03 R127). -/
def MacPorts.advx (p : MacPorts) (x : Nat) (step : Int) : Nat :=
  if p.xlen = 0 then (((x : Int) + step) % 8192).toNat
  else (((p.xlo : Int) + ((x : Int) - (p.xlo : Int) + step) % (p.xlen : Int)) % 8192).toNat

/-- The running state of a run. -/
structure MacRun where
  x : Nat
  y : Nat
  acc : Int
  ovf : Bool
  deriving DecidableEq, Repr

/-- One product added to the accumulator, saturated or wrapped at 72 bits (03 R127). -/
def MacPorts.product (p : MacPorts) (xm ym : SMap Word) (r : MacRun) : MacRun :=
  let s := r.acc + (xm.get (fun _ => 0) r.x).toInt * (ym.get (fun _ => 0) r.y).toInt
  let acc := if fitsSigned 72 s then s
             else if p.mode.getLsbD 0 then clampSigned 72 s else (BitVec.ofInt 72 s).toInt
  { x := p.advx r.x p.sx, y := (((r.y : Int) + p.sy) % 8192).toNat, acc := acc, ovf := r.ovf || !fitsSigned 72 s }

/-- n products. -/
def MacPorts.products (p : MacPorts) (xm ym : SMap Word) : Nat → MacRun → MacRun
  | 0, r => r
  | n + 1, r => p.products xm ym n (p.product xm ym r)

/-- The X index at which a run starts (03 R127). -/
def MacPorts.start (p : MacPorts) : Nat :=
  let x := if p.mode.getLsbD 2 then p.xa else p.px
  if p.xlen = 0 then x
  else (((p.xlo : Int) + ((x : Int) - (p.xlo : Int)) % (p.xlen : Int)) % 8192).toNat

/-- The result ports of the accumulator (03 R125). -/
def accPorts (acc : BitVec 72) : List (Nat × Word) :=
  [(0x198, acc.extractLsb' 0 32), (0x199, acc.extractLsb' 32 32), (0x19A, (acc.extractLsb' 64 8).signExtend 32)]

/-- The shifted accumulator saturated to 32 bits (03 R127). -/
def macShifted (acc : Int) (sh : Nat) : Int := acc / 2 ^ sh

/-- What a run or a load of the accumulator leaves (03 R127): accumulator and shifted result, flags, and for a run the
indices after its last product. -/
def macDone (p : MacPorts) (acc : Int) (ovf : Bool) (idx : List (Nat × Word)) : UnitRes × BitVec 72 :=
  let a : BitVec 72 := BitVec.ofInt 72 acc
  let r := macShifted acc p.sh
  ({ ports := accPorts a ++ [(0x1A0, BitVec.ofInt 32 (clampSigned 32 r))] ++ idx
     z := decide (acc = 0), n := a.msb, c := false, v := ovf
     sat := (ovf && p.mode.getLsbD 0) || !fitsSigned 32 r }, a)

/-- A run of n products from accumulator `acc` (03 R127). -/
def macRun (p : MacPorts) (xm ym : SMap Word) (acc : BitVec 72) (n : Nat) : UnitRes × BitVec 72 :=
  let r := p.products xm ym n
    { x := p.start, y := p.py, acc := if p.mode.getLsbD 1 then 0 else acc.toInt, ovf := false }
  macDone p r.acc r.ovf [(0x1A2, BitVec.ofNat 32 r.x), (0x1A3, BitVec.ofNat 32 r.y)]

end Sys2Proof.Machine
end

