-- ==== Sys2Proof/Machine/Instance.lean ====
section
/-! DEFINITION. The evaluation of instance records: timers, counters and edge detectors (03 R132-R139). -/

namespace Sys2Proof.Machine

/-- The operations of the instance unit (03 R133). -/
inductive IuOp where
  | ton | tof | tp | ctu | ctd | ctud | rtrig | ftrig | clr
  deriving DecidableEq, Repr

/-- The operation of an instance trigger port. -/
def iuOpOf (a : Nat) : Option IuOp := [IuOp.ton, .tof, .tp, .ctu, .ctd, .ctud, .rtrig, .ftrig, .clr][a - 0x204]?

/-- The TYPE code that an operation evaluates; `clr` takes every valid one (03 R132). -/
def IuOp.type : IuOp → Nat
  | .ton => 0x01 | .tof => 0x02 | .tp => 0x03 | .ctu => 0x11 | .ctd => 0x12 | .ctud => 0x13
  | .rtrig => 0x21 | .ftrig => 0x22 | .clr => 0

def validType (t : Nat) : Bool := [0x01, 0x02, 0x03, 0x11, 0x12, 0x13, 0x21, 0x22].contains t

/-- An instance record taken apart (03 R132). -/
structure IRec where
  hd : Nat
  init : Bool
  co : Bool
  cu : Bool
  qd : Bool
  q : Bool
  run : Bool
  in2 : Bool
  in1 : Bool
  ident : Word
  pt : BitVec 64
  origin : BitVec 64
  et : BitVec 64
  deriving DecidableEq, Repr

def IRec.type (r : IRec) : Nat := r.hd / 2 ^ 24
def IRec.axis (r : IRec) : Nat := r.hd / 2 ^ 20 % 16

/-- Read a record from its eight words. -/
def IRec.ofWords (ws : List Word) : IRec :=
  let w := wordAt ws 0
  { hd := w.toNat / 256 * 256, init := w.getLsbD 7, co := w.getLsbD 6, cu := w.getLsbD 5, qd := w.getLsbD 4
    q := w.getLsbD 3, run := w.getLsbD 2, in2 := w.getLsbD 1, in1 := w.getLsbD 0, ident := wordAt ws 1
    pt := long (wordAt ws 2) (wordAt ws 3), origin := long (wordAt ws 4) (wordAt ws 5)
    et := long (wordAt ws 6) (wordAt ws 7) }

/-- Word 0 of a record. -/
def IRec.word0 (r : IRec) : Word :=
  BitVec.ofNat 32 r.hd ||| flagAt 7 r.init ||| flagAt 6 r.co ||| flagAt 5 r.cu ||| flagAt 4 r.qd ||| flagAt 3 r.q |||
  flagAt 2 r.run ||| flagAt 1 r.in2 ||| flagAt 0 r.in1

/-- The eight words of a record. -/
def IRec.words (r : IRec) : List Word :=
  [r.word0, r.ident, loWord r.pt, hiWord r.pt, loWord r.origin, hiWord r.origin, loWord r.et, hiWord r.et]

/-- A timing timer compares its net travel with the preset; `q` is the output once it is reached (03 R136). -/
def IRec.time (r : IRec) (v : BitVec 64) (q : Bool) : IRec :=
  let d := v - r.origin
  if d.msb = false ∧ r.pt.toNat ≤ d.toNat then { r with q := q, run := false, et := r.pt }
  else { r with et := if d.msb then 0 else d }

/-- TON (03 R136). -/
def IRec.ton (r : IRec) (i : Bool) (v : BitVec 64) : IRec :=
  let r' :=
    if i then
      let a := if !r.run && !r.q then { r with origin := v, run := true } else r
      if a.run then a.time v true else a
    else { r with q := false, run := false, et := 0 }
  { r' with in1 := i, init := true }

/-- TOF (03 R136). -/
def IRec.tof (r : IRec) (i : Bool) (v : BitVec 64) : IRec :=
  let r' :=
    if i then { r with q := true, run := false, et := 0 }
    else
      let a := if r.in1 && r.q then { r with origin := v, run := true } else r
      if a.run then a.time v false else a
  { r' with in1 := i, init := true }

/-- TP (03 R136). -/
def IRec.tp (r : IRec) (i : Bool) (v : BitVec 64) : IRec :=
  let a := if !r.run && !r.q && i && !r.in1 then { r with origin := v, run := true, q := true } else r
  let b := if a.run then a.time v false else a
  let c := if !b.run && !i then { b with et := 0 } else b
  { c with in1 := i, init := true }

/-- CV and PV of a counter (03 R132). -/
def IRec.cv (r : IRec) : Word := loWord r.et
def IRec.pv (r : IRec) : Word := loWord r.pt
def IRec.setCv (r : IRec) (x : Word) : IRec := { r with et := long x (hiWord r.et) }
/-- One count up or down, stopping at the ends with CO or CU (03 R124, R137). -/
def IRec.up (r : IRec) : IRec := if r.cv = 0x7FFFFFFF then { r with co := true } else r.setCv (r.cv + 1)
def IRec.down (r : IRec) : IRec := if r.cv = 0x80000000 then { r with cu := true } else r.setCv (r.cv - 1)

/-- CTU (03 R137): bit 0 UP, bit 1 R. -/
def IRec.ctu (r : IRec) (w : Word) : IRec :=
  let u := w.getLsbD 0
  let a := if w.getLsbD 1 then { r.setCv 0 with co := false } else if u && !r.in1 then r.up else r
  { a with q := a.pv.sle a.cv, in1 := u, init := true }

/-- CTD (03 R137): bit 0 DN, bit 1 LD. -/
def IRec.ctd (r : IRec) (w : Word) : IRec :=
  let d := w.getLsbD 0
  let a := if w.getLsbD 1 then { r.setCv r.pv with cu := false } else if d && !r.in1 then r.down else r
  { a with q := a.cv.sle 0, in1 := d, init := true }

/-- CTUD (03 R137): bit 0 UP, bit 1 DN, bit 2 R, bit 3 LD. -/
def IRec.ctud (r : IRec) (w : Word) : IRec :=
  let u := w.getLsbD 0
  let d := w.getLsbD 1
  let up := u && !r.in1
  let dn := d && !r.in2
  let a :=
    if w.getLsbD 2 then { r.setCv 0 with co := false, cu := false }
    else if w.getLsbD 3 then { r.setCv r.pv with co := false, cu := false }
    else if up && !dn then r.up else if dn && !up then r.down else r
  { a with q := a.pv.sle a.cv, qd := a.cv.sle 0, in1 := u, in2 := d, init := true }

/-- R_TRIG and F_TRIG (03 R138). -/
def IRec.rtrig (r : IRec) (c : Bool) : IRec := { r with q := r.init && c && !r.in1, in1 := c, init := true }
def IRec.ftrig (r : IRec) (c : Bool) : IRec := { r with q := r.init && !c && r.in1, in1 := c, init := true }

/-- iu.clr (03 R139). -/
def IRec.clear (r : IRec) : IRec :=
  { r with q := false, qd := false, run := false, co := false, cu := false, in1 := false, in2 := false
           init := false, origin := 0, et := 0 }

/-- The record after an operation with operand w at axis value v (03 R136-R139). -/
def IuOp.eval (op : IuOp) (r : IRec) (w : Word) (v : BitVec 64) : IRec :=
  match op with
  | .ton => r.ton (w.getLsbD 0) v
  | .tof => r.tof (w.getLsbD 0) v
  | .tp => r.tp (w.getLsbD 0) v
  | .ctu => r.ctu w
  | .ctd => r.ctd w
  | .ctud => r.ctud w
  | .rtrig => r.rtrig (w.getLsbD 0)
  | .ftrig => r.ftrig (w.getLsbD 0)
  | .clr => r.clear

/-- Whether the unit refuses an operation (03 R134). -/
def IuOp.refuses (op : IuOp) (region ptr : Nat) (r : IRec) : Bool :=
  decide (ptr % 8 ≠ 0) || !(inSlice region ptr) || decide (7 < r.axis) ||
  (match op with
   | .clr => !validType r.type
   | _ => decide (r.type ≠ op.type))

/-- ET of a timer, or CV sign-extended (03 R133); of an edge detector, which has neither, words 6 and 7 (notes/assumptions/306.md). -/
def IRec.elapsed (r : IRec) : BitVec 64 :=
  if 0x10 ≤ r.type ∧ r.type < 0x20 then long r.cv (signWord r.cv) else r.et

end Sys2Proof.Machine
end

