-- ==== Sys2Proof/Machine/LaneCore.lean ====
section
/-! DEFINITION. A lane's moves in flight: which operations are pending, own stores seen by own loads (02 R83), the four
kinds of write, and what a trigger write starts in each lane-local unit (01 R18-R21; 02 R74-R85; 03). -/

namespace Sys2Proof.Machine

/-! ### Pending operations (02 R74, R77, R85; 03 R102, R104) -/

/-- Triggers that set Z, N, C and V, and bit-logic triggers (03 R102). -/
def flagTrigger (a : Nat) : Bool :=
  decide ((0x84 ≤ a ∧ a ≤ 0x9F) ∨ (0xC4 ≤ a ∧ a ≤ 0xC9) ∨ (0x104 ≤ a ∧ a ≤ 0x113) ∨ (0x144 ≤ a ∧ a ≤ 0x148) ∨ a = 0x18C ∨ a = 0x191)
def blTrigger (a : Nat) : Bool := decide (0x40 ≤ a ∧ a ≤ 0x7B)
def blStore (a : Nat) : Bool := decide (0x68 ≤ a ∧ a ≤ 0x77)
def iuTrigger (a : Nat) : Bool := decide (0x204 ≤ a ∧ a ≤ 0x20C)
/-- Control moves (02 R88). -/
def controlMove (a : Nat) : Bool := decide (a ≤ 5)
/-- Places that a posted write reaches outside the lane: everything but the lane-local block (02 R81, R84). -/
def outside (a : Nat) : Bool := decide (0x400 ≤ a)

def Lane.flagPending (x : Lane) : Bool := x.pend.any (fun r => r.fl.isSome) || x.items.any (fun i => flagTrigger i.dst)
def Lane.blPending (x : Lane) : Bool := decide (x.blq ≠ []) || x.items.any (fun i => blTrigger i.dst)

/-- The result group that a trigger writes, and the one that a result port shows (03 R104). -/
def triggerGroup (a : Nat) : Option ResGroup :=
  if blTrigger a then some .bl
  else if 0x84 ≤ a ∧ a ≤ 0x9F then some .ia
  else if 0xC4 ≤ a ∧ a ≤ 0xC6 then some .imMul
  else if a = 0xC8 ∨ a = 0xC9 then some .imDiv
  else if 0x104 ≤ a ∧ a ≤ 0x113 then some .fp
  else if 0x144 ≤ a ∧ a ≤ 0x148 then some .cp
  else if a = 0x18C ∨ a = 0x191 then some .macRun
  else if a = 0x18F ∨ a = 0x190 then some .macV
  else if a = 0x1C4 ∨ a = 0x1C6 then some .ls
  else none
def resultGroup (a : Nat) : Option ResGroup :=
  if a = 0x7C then some .bl
  else if a = 0xA0 ∨ a = 0xA1 then some .ia
  else if a = 0xD0 ∨ a = 0xD1 then some .imMul
  else if a = 0xD2 ∨ a = 0xD3 then some .imDiv
  else if a = 0x120 ∨ a = 0x121 then some .fp
  else if 0x150 ≤ a ∧ a ≤ 0x158 then some .cp
  else if a = 0x1A1 then some .macV
  else if 0x198 ≤ a ∧ a ≤ 0x1A3 then some .macRun
  else if a = 0x1D0 then some .ls
  else none

/-- A read of result port a waits for an earlier operation of its group (01 R20, 03 R104). -/
def Lane.resultWaits (x : Lane) (a : Nat) : Bool :=
  if 0x210 ≤ a ∧ a ≤ 0x214 then decide (x.iuq ≠ []) || x.items.any (fun i => iuTrigger i.dst)
  else
    match resultGroup a with
    | none => false
    | some g => x.pend.any (fun r => r.g == g) || x.items.any (fun i => triggerGroup i.dst == some g)
        || (g == .bl && decide (x.blq ≠ [])) || (g == .ls && x.items.any (fun i => i.unit))

/-- Entries in use (02 R85): the two stores of a frame hold one. -/
def Lane.inFlight (x : Lane) : Nat :=
  (x.items.filter (fun i => i.seq % 64 ≠ 32)).length + x.pend.length + x.blq.length + x.iuq.length

/-- The unit of a trigger port accepts an operation now (02 R84; 03 R116, R122, R128). -/
def Lane.accepts (x : Lane) (a : Nat) : Bool :=
  match triggerGroup a with
  | some .imDiv => !x.pend.any (fun r => r.g == .imDiv && r.busy)
  | some .fp =>
    !x.pend.any (fun r => r.g == .fp && r.busy) &&
      (match fpOpOf a with
       | some op => x.pend.all (fun r => r.g != .fp || decide (r.due < x.cyc + op.latency))
       | none => true)
  | _ => if 0x18C ≤ a ∧ a ≤ 0x191 then decide (x.macBusy ≤ x.cyc) else true

/-! ### The lane's masters and violations -/

/-- The master of LP p. -/
def lpMaster (p : Nat) : Master := .lp ⟨p % 8, by omega⟩
/-- The LP that lane l works for; the trail works for the LP of its region (01 R29). -/
def State.lpFor (s : State) (l : Nat) : Nat := (s.lpOfLane l).getD (if s.paired (l / 2) then l / 2 * 2 else l)
/-- A violating access of lane l; the trail's accesses have no effect outside it (01 R32). -/
def State.laneViol (s : State) (l a : Nat) (v : Viol) : State :=
  if s.side l = .trail then s else s.violation (lpMaster (s.lpFor l)) a v

/-! ### Loads and the lane's own stores (02 R81, R83; 03 R105) -/

/-- A place that the PROGRAM world may write by a store (02 R68). -/
def storable (a : Nat) : Bool := (place a).writable .program

/-- What a move in flight stores to address a of region r: nothing, a value that is not known yet, or a value. -/
def Item.storeTo (i : Item) (r a : Nat) : Option (Option Word) :=
  if !storable a then none
  else if i.dst = a then some (i.val.map (storedValue a))
  else if blStore i.dst then
    match i.val with
    | some v => if v.toNat % 2 ^ 22 = a then some none else none
    | none => if (place a).isBit then some none else none
  else if i.dst = 0x1C5 then (if place a = .word then some none else none)
  else if i.dst = 0x1C7 then (if (place a).isBit then some none else none)
  else if iuTrigger i.dst then (if inSlice r a then some none else none)
  else none

/-- The latest store of the lane to address a before the move `lim`: none, not known yet, or its value (R83). -/
def Lane.lastStore (x : Lane) (r a lim : Nat) : Option (Option Word) :=
  let c1 := x.items.filterMap (fun i => (i.storeTo r a).map (fun v => (i.seq, v)))
  let c2 := x.blq.filterMap (fun w =>
    match w.op with
    | .st | .stn | .set | .rst => if w.operand.toNat % 2 ^ 22 = a ∧ storable a then some (w.seq, (none : Option Word)) else none
    | _ => none)
  let c3 := x.iuq.filterMap (fun q => (q.changed.find? (fun e => e.1 == a)).map (fun e => (q.seq, some e.2)))
  ((c1 ++ c2 ++ c3).filter (fun e => decide (e.1 < lim))).foldl
    (fun (best : Option (Nat × Option Word)) e =>
      match best with
      | some b => if b.1 ≤ e.1 then some e else some b
      | none => some e) none |>.map (fun b => b.2)

/-- The value of a memory place for the lane's load before the move `lim`; none while an own store is not computed (notes/assumptions/13.md). -/
def State.ownGet (s : State) (l a lim : Nat) : Option Word :=
  match (s.lane l).lastStore (l / 2) a lim with
  | some v => v
  | none => some (s.memGet a)

/-- The lead or only lane reads a place outside itself in the issue cycle (R81; notes/assumptions/13.md). -/
def State.sample (s : State) (l a lim : Nat) : State × LoadSrc :=
  if (place a).readable .program then (s, { addr := a, got := s.ownGet l a lim })
  else
    let r := s.moveRead (lpMaster (s.lpFor l)) a
    (r.1, { addr := a, got := some r.2 })

/-- Loads that waited for a store of the lane take its value once it is known (R83). -/
def State.resolveLoads (s : State) (l : Nat) : State :=
  (s.lane l).items.foldl (fun s i =>
    match i.ld with
    | some d =>
      if d.got = none then
        match s.ownGet l d.addr (if i.unit then i.seq else i.seq / 64 * 64) with
        | some v =>
          let i' : Item := { i with ld := some ⟨d.addr, some v⟩ }
          s.modLane l (fun x => { x with items := x.items.map (fun j => if j = i then i' else j) })
        | none => s
      else s
    | none => s) s

/-! ### Posted writes and unit stores -/

/-- Insert an item at its place in program order. -/
def insertItem (i : Item) : List Item → List Item
  | [] => [i]
  | j :: t => if i.seq < j.seq then i :: j :: t else j :: insertItem i t

/-- The event word of a move or unit store to a place outside the lane (06 R234); none folds nothing. -/
def storeWord (a : Nat) (v : Word) : Option (BitVec 64) :=
  if outside a ∧ a < 0x1000 then some (eventWord 3 a v)
  else if 0x200000 ≤ a ∧ a < 0x3FFFFF then some (eventWord 1 a v)
  else if (place a).isBit then some (eventWord 2 a (v &&& 1))
  else none

/-- A store that a unit makes at the position of its trigger (03 R105); one that 02 R68 does not permit is dropped. -/
def State.unitStore (s : State) (l seq baddr a : Nat) (v : Word) : State :=
  let s := s.resolveEv l (seq, 0) (storeWord a v).toList
  if s.side l = .trail then s
  else if storable a then
    let i : Item := { seq := seq, baddr := baddr, slot := 0, dst := a, val := some v, ld := none, cin := false, replay := [] }
    s.modLane l (fun x => { x with items := insertItem i x.items })
  else s.laneViol l a .unitStore

/-! ### Bit logic (03 R108-R111; 02 R100) -/

/-- The operation of a bit-logic trigger. -/
def blOpOf (a : Nat) : BlOp :=
  [BlOp.ld, .ldn, .and, .andn, .or, .orn, .push, .pushn, .anb, .orb, .st, .stn, .set, .rst, .xor].getD ((a - 0x40) / 4) .ld

def Lane.setAcc (x : Lane) (b : Bool) : Lane := { x with flags := { x.flags with acc := b } }
/-- Push ACC: the new lane, and whether the stack was full. -/
def Lane.push (x : Lane) : Lane × Bool :=
  if x.bstk.length < 16 then ({ x with bstk := x.flags.acc :: x.bstk }, false)
  else ({ x with flags := { x.flags with bso := true } }, true)
/-- Pop: the new lane, the entry, and whether the stack was empty. -/
def Lane.pop (x : Lane) : Lane × Bool × Bool :=
  match x.bstk with
  | b :: t => ({ x with bstk := t }, b, false)
  | [] => ({ x with flags := { x.flags with bsu := true } }, false, true)

/-- A setting of BSO (0x100) or BSU (0x200) at a bundle: record and program-fault source (02 R100). -/
def State.stackEvent (s : State) (l : Nat) (what : Word) (baddr : Nat) : State :=
  if s.side l = .trail then s
  else s.programFault (s.lpFor l) { code := 0x0101, source := BitVec.ofNat 8 (s.lpFor l), sev := 5, p0 := what
                                    p1 := BitVec.ofNat 32 baddr, p2 := 0 }

/-- One bit-logic operation is performed (R108-R110). -/
def State.blPerform (s : State) (l : Nat) (w : BlWait) : State :=
  let x := s.lane l
  let acc := x.flags.acc
  let v := w.operand.getLsbD 0
  let a := w.operand.toNat % 2 ^ 22
  let put := fun (b : Bool) => s.setLane l (x.setAcc b)
  let pushed := fun (b : Bool) =>
    let r := x.push
    let s := s.setLane l (r.1.setAcc b)
    if r.2 then s.stackEvent l 0x100 w.baddr else s
  let popped := fun (f : Bool → Bool) =>
    let r := x.pop
    let s := s.setLane l (r.1.setAcc (f r.2.1))
    if r.2.2 then s.stackEvent l 0x200 w.baddr else s
  let store := fun (c b : Bool) =>
    if c then
      (if (place a).isBit then s.unitStore l w.seq w.baddr a (bit b)
       else (s.resolveEv l (w.seq, 0) [eventWord 2 a (bit b)]).laneViol l a .unitStore)
    else s.resolveEv l (w.seq, 0) []
  match w.op with
  | .ld => put v | .ldn => put !v | .and => put (acc && v) | .andn => put (acc && !v)
  | .or => put (acc || v) | .orn => put (acc || !v) | .xor => put (acc ^^ v)
  | .push => pushed v | .pushn => pushed !v
  | .anb => popped (fun e => acc && e) | .orb => popped (fun e => acc || e)
  | .st => store true acc | .stn => store true !acc | .set => store acc true | .rst => store acc false

/-! ### What trigger writes start -/

/-- An operation of an arithmetic unit: its result appears `lat` cycles later (02 R84). -/
def Lane.start (x : Lane) (g : ResGroup) (seq lat : Nat) (r : UnitRes) (arith busy : Bool) (acc : Option (BitVec 72)) : Lane :=
  { x with pend := x.pend ++ [{ g := g, seq := seq, due := x.cyc + lat, ports := r.ports, fl := some (r.z, r.n, r.c, r.v)
                                dz := r.dz, sat := r.sat, arith := arith, busy := busy, acc := acc }] }

/-- ia, im, cp and fp (03 R112-R124); im.dze counts as the trigger write takes effect (R115). -/
def Lane.arith (x : Lane) (a seq : Nat) (v : Word) (cin : Bool) : Lane :=
  let dze := x.port 0xE0 = 1
  match triggerGroup a with
  | some .ia =>
    match iaOpOf a with
    | some op => x.start .ia seq 1 (iaResult op (x.port 0x80) (x.port 0x81) (x.port 0x82) v cin) false false none
    | none => x
  | some .imMul =>
    match imOpOf a with
    | some op => x.start .imMul seq 3 (imResult op (x.port 0xC0) v) false false none
    | none => x
  | some .imDiv =>
    match imOpOf a with
    | some op =>
      let r := imResult op (x.port 0xC0) v
      x.start .imDiv seq 18 r (r.dz && dze) true none
    | none => x
  | some .cp =>
    match cpOpOf a with
    | some op => x.start .cp seq 1 (cpResult op (x.port 0x140) (x.port 0x141) (x.port 0x142) v) false false none
    | none => x
  | some .fp =>
    match fpOpOf a with
    | some op =>
      let r := fpResult op (x.port 0x100) (x.port 0x101) (x.port 0x102) v
      x.start .fp seq op.latency r (r.dz && dze) op.isDiv none
    | none => x
  | _ => x

/-- The operand ports of a run (03 R125). -/
def Lane.macPorts (x : Lane) : MacPorts :=
  { px := (x.port 0x180).toNat, py := (x.port 0x181).toNat, sx := (x.port 0x182).toInt, sy := (x.port 0x183).toInt
    xlo := (x.port 0x184).toNat, xlen := (x.port 0x185).toNat, mode := x.port 0x186, sh := (x.port 0x187).toNat, xa := (x.port 0x188).toNat }

/-- The accumulator that a run continues from: that of the latest run still in flight (03 R128). -/
def Lane.finalAcc (x : Lane) : BitVec 72 :=
  x.pend.foldl (fun a r => r.acc.getD a) x.acc72

/-- The operand memory places that a run of n products fetches: X at 0 to 8191, Y at 8192 to 16383. -/
def MacPorts.fetched (p : MacPorts) : Nat → Nat → Nat → List Nat
  | 0, _, _ => []
  | n + 1, x, y => x :: (8192 + y) :: p.fetched n (p.advx x p.sx) (((y : Int) + p.sy) % 8192).toNat

/-- The multiply-accumulate unit's triggers (03 R125-R128); mac.ldacc makes no run, and mac.pxe and mac.pye keep the indices
of the latest run (notes/assumptions/304.md). -/
def State.macStart (s : State) (l a seq baddr : Nat) (v : Word) : State :=
  let x := s.lane l
  let p := x.macPorts
  let check := fun (t : List Nat) => s.memCheck l (l / 2) (2 + l % 2) (fun k => t.contains k) baddr
  if a = 0x18C then
    let n := v.toNat % 65536
    let c := check (p.fetched n p.start p.py)
    if c.2 then
      let r := macRun p x.opX x.opY x.finalAcc n
      c.1.modLane l (fun x => { x.start .macRun seq (if n = 0 then 4 else n + 3) r.1 false false (some r.2) with macBusy := x.cyc + max n 1 })
    else c.1
  else if a = 0x191 then
    let acc : BitVec 72 := (x.port 0x18B).setWidth 8 ++ x.port 0x18A ++ v
    let r := macDone p acc.toInt false []
    s.setLane l (x.start .macRun seq 1 r.1 false false (some r.2))
  else if a = 0x18D then
    s.setLane l { x.setPort 0x188 (BitVec.ofNat 32 (p.advx p.xa 1)) with opX := x.opX.set (fun _ => 0) p.xa v }
  else if a = 0x18E then
    let y := (x.port 0x189).toNat
    s.setLane l { x.setPort 0x189 (BitVec.ofNat 32 ((y + 1) % 8192)) with opY := x.opY.set (fun _ => 0) y v }
  else
    let k := v.toNat % 8192
    let c := check [if a = 0x18F then k else 8192 + k]
    let w := if a = 0x18F then x.opX.get (fun _ => 0) k else x.opY.get (fun _ => 0) k
    if c.2 then
      let r : Pend := { g := .macV, seq := seq, due := x.cyc + 2, ports := [(0x1A1, w)], fl := none
                        dz := false, sat := false, arith := false, busy := false, acc := none }
      c.1.modLane l (fun x => { x with pend := x.pend ++ [r] })
    else c.1

/-- The effective address of an indexed access (03 R130). -/
def Lane.ea (x : Lane) (off : Word) : Nat := ((x.port 0x1C0) + (x.port 0x1C1) + off).toNat % 2 ^ 22

/-- The indexed load and store unit (03 R130, R131); a trail load takes its replay entry (06 R231). -/
def State.lsStart (s : State) (l a seq baddr slot : Nat) (v : Word) (replay : List (BitVec 64)) : State :=
  let load := a = 0x1C4 ∨ a = 0x1C6
  let isBit := a = 0x1C6 ∨ a = 0x1C7
  let x := s.lane l
  let ea := x.ea (if load then v else 0)
  let ok : Bool := if isBit then (place ea).isBit else place ea == .word
  let s := s.setLane l (x.setPort 0x1C1 (x.port 0x1C1 + x.port 0x1C2))
  if load then
    let item := fun (got : Option Word) (s : State) =>
      let i : Item := { seq := seq, baddr := baddr, slot := slot, dst := 0x1D0, val := none, ld := some ⟨ea, got⟩, cin := false, replay := [], unit := true }
      s.modLane l (fun x => { x with items := insertItem i x.items })
    if s.side l = .trail then
      let e := replay.headD 0
      if entryAddr e = ea then item (some (entryValue e)) s else s.trailMismatch (l / 2) 2
    else if ok then item (s.ownGet l ea seq) s
    else item (some 0) (s.laneViol l ea .unitStore)
  else if ok then s.unitStore l seq baddr ea v
  else (s.resolveEv l (seq, 0) [eventWord (if isBit then 2 else 1) ea (if isBit then v &&& 1 else v)]).laneViol l ea .unitStore

/-- The instance unit's record: eight words, or none while one of them waits for a store of the lane (03 R140). -/
def State.recordWordsAt (s : State) (l ptr seq : Nat) : Option (List Word) :=
  (List.range 8).foldr (fun k acc =>
    match s.ownGet l (ptr + k) seq, acc with
    | some w, some ws => some (w :: ws)
    | _, _ => none) (some [])

/-- An instance operation computes (03 R134-R140); none while it waits for a word of its record. A timer reads its axis as
the latest latch took it, 0 before the first (notes/assumptions/305.md). -/
def State.iuStart (s : State) (l a seq baddr : Nat) (v : Word) (replay : List (BitVec 64)) : Option State :=
  let x := s.lane l
  let r := l / 2
  let ptr := (x.port 0x200).toNat
  let trail := s.side l = .trail
  let reach := ptr % 8 = 0 ∧ inSlice r ptr
  let words := if trail then some (replay.map entryValue)
               else if reach then s.recordWordsAt l ptr seq else some (List.replicate 8 0)
  match words, iuOpOf a with
  | some ws, some op =>
    let s := if trail then s
             else (List.range 8).foldl (fun s k => s.fill l seq (ptr + k) (wordAt ws k)) s
    if trail ∧ replay.map entryAddr ≠ (List.range 8).map (fun k => (ptr + k) % 2 ^ 22) then
      some (s.trailMismatch r 2)
    else
      let c := if trail ∨ ¬ reach then (s, true)
               else s.memCheck l r 1 (fun k => decide (ptr - sliceBase r ≤ k ∧ k < ptr - sliceBase r + 8)) baddr
      if c.2 = false then some c.1
      else
        let s := c.1
        let rec0 := IRec.ofWords ws
        let p := s.lpFor l
        let push := fun (q : IuPend) (s : State) => s.modLane l (fun x => { x with iuq := x.iuq ++ [q] })
        if op.refuses r ptr rec0 then
          let s := s.resolveEv l (seq, 0) []
          let s := push { seq := seq, changed := [], q := false, q2 := false, et := 0, st := 0x100 } s
          some (if trail then s
                else s.programFault p { code := 0x0102, source := BitVec.ofNat 8 p, sev := 4, p0 := BitVec.ofNat 32 ptr
                                        p1 := BitVec.ofNat 32 a, p2 := Config.recParam 0x0102 2 })
        else
          let t := (s.lp p).ax.get (fun _ => 0) rec0.axis
          let rec1 := op.eval rec0 v t
          let changed := (List.range 8).filterMap (fun k =>
            if wordAt rec1.words k = wordAt ws k then none else some (ptr + k, wordAt rec1.words k))
          let s := s.resolveEv l (seq, 0) (changed.map (fun e => eventWord 1 e.1 e.2))
          some (push { seq := seq, changed := changed, q := rec1.q, q2 := decide (op = .ctud) && rec1.qd
                       et := rec1.elapsed, st := rec1.word0 } s)
  | _, _ => none

end Sys2Proof.Machine
end

