-- ==== Sys2Proof/Machine/LaneControl.lean ====
section
/-! DEFINITION. Control moves, frames, halting program faults, interrupt entry and tail chaining of a lane
(02 R87-R99; 04 R158, R161; 06 R232-R236; 08 R311-R317). -/

namespace Sys2Proof.Machine

/-! ### Halting program faults (02 R96-R99) -/

/-- cu.fault (02 R98). -/
def faultWord (code slot baddr : Nat) : BitVec 24 := BitVec.ofNat 24 (code * 2 ^ 20 + slot * 2 ^ 18 + baddr % 2 ^ 18)

/-- The two entries of a window's lead signature (06 R229, R230). -/
def sigEntries : List REntry :=
  [{ seq := 0, kind := 5, word := 0, slot := 0, addr := none, val := none },
   { seq := 0, kind := 6, word := 0, slot := 0, addr := none, val := none }]

/-- The trail takes the entry at the head of the FIFO and compares KIND, WORD, SLOT and ADDR with its own read (06 R231); an
error is the MKIND of a mismatch. -/
def State.takeEntry (s : State) (l kind word slot : Nat) (addr : Option Nat) : Except Nat (State × BitVec 64) :=
  match (s.region (l / 2)).fifo with
  | [] => .error 3
  | e :: t =>
    if e.val.isNone then .error 3
    else if e.kind.toNat ≠ kind ∨ e.word.toNat ≠ word ∨ e.slot.toNat ≠ slot ∨ (addr.any (fun a => e.addr != some (BitVec.ofNat 22 a))) then
      .error 2
    else .ok (s.modRegion (l / 2) (fun r => { r with fifo := t }), e.bits)

/-- The trail takes the two signature entries of the window it closes (06 R229-R231). -/
def State.takeSig (s : State) (l : Nat) : State :=
  let w := some (s.trailNow (l / 2))
  match s.takeEntry l 5 0 0 w with
  | .error k => s.trailMismatch (l / 2) k
  | .ok (t, _) =>
    match t.takeEntry l 6 0 0 w with
    | .error k => t.trailMismatch (l / 2) k
    | .ok (u, _) => u

/-- The window closes behind the events so far (06 R236): the lead reserves its signature entries, the trail takes
them. -/
def State.closeWindow (s : State) (l baddr : Nat) : State :=
  let s := if s.side l = .trail then s.takeSig l else s.reserve l sigEntries
  s.pushClose l baddr

/-- The lead has more entries in the FIFO than it holds (06 R229). -/
def State.overFull (s : State) (l : Nat) : Bool := s.side l == .lead && decide (512 < (s.region (l / 2)).fifo.length)

/-- A halting fault of lane l (02 R97, R99; 06 R243): an only lane halts at once; the lead waits for its trail and the
verdict; the trail compares. The event stands at `late`, the place of a control move that came late, or behind the events so
far; a window that its bundle has already closed by the count W closes no second time (06 R236). -/
def State.laneFault (s : State) (l code slot baddr : Nat) (late : Option (Nat × Nat)) : State :=
  let w := faultWord code slot baddr
  let x := s.lane l
  let p := s.lpFor l
  let r := l / 2
  let n := s.nextSeq l
  let s := s.setLane l { x.setPort 0x00D (w.setWidth 32) with seq := n, wait := false }
  let s := match late with
    | some t => s.resolveEv l t [eventWord 7 0 (w.setWidth 32)]
    | none => s.pushEv l (64 * n, 0) (some (eventWord 7 0 (w.setWidth 32)))
  let s := (if late.isSome ∧ x.wcnt = 0 then s else s.closeWindow l baddr).fold l
  let ev : Event := { code := 0x0101, source := BitVec.ofNat 8 p, sev := 5, p0 := w.setWidth 32, p1 := x.port 0x008, p2 := x.bcnt }
  match s.side l with
  | .solo => (s.programFault p ev).haltLp p 0x01
  | .lead => (s.programFault p ev).modRegion r (fun y => { y with leadFault := some w })
  | .trail =>
    if (s.region r).leadFault = some w then s.modRegion r (fun y => { y with trailFault := some w })
    else s.trailMismatch r 4

/-! ### The stack (02 R91-R94) -/

/-- The stack registers satisfy R91: cu.slim ≤ cu.sp ≤ cu.sbase, all three in the slice, but for a cu.sbase that equals the
first address above it. -/
def Lane.stackOk (x : Lane) (r : Nat) : Bool :=
  let sp := (x.port 0x008).toNat
  let lim := (x.port 0x009).toNat
  let base := (x.port 0x00A).toNat
  decide (lim ≤ sp ∧ sp ≤ base) && inSlice r lim && inSlice r sp && (inSlice r base || decide (base = sliceEnd r))

/-- A frame is posted at the address above cu.sp (02 R92, R93; 06 R235): flags word, then return address. -/
def State.postFrame (s : State) (l n baddr : Nat) (flags : Word) (ret : Nat) : State :=
  let x := s.lane l
  let sp := (x.port 0x008).toNat
  let item := fun (k a : Nat) (v : Word) =>
    ({ seq := n + 32 + k, baddr := baddr, slot := 0, dst := a, val := some v, ld := none, cin := false, replay := [] } : Item)
  let back : Word := BitVec.ofNat 32 ret
  let s := s.setLane l (x.setPort 0x008 (BitVec.ofNat 32 (sp - 2)))
  let s := s.resolveEv l (n + 32, 0) [eventWord 1 (sp - 1) flags]
  let s := s.resolveEv l (n + 33, 0) [eventWord 1 (sp - 2) back]
  if s.side l = .trail then s
  else s.modLane l (fun x => { x with items := x.items ++ [item 0 (sp - 1) flags, item 1 (sp - 2) back] })

/-- The frame words that a return loads at its bundle `n` (02 R94, 06 R228): the return address word and the flags word,
none while an own store to them is not computed; the trail's come with the move. -/
def State.frameWords (s : State) (l n : Nat) (replay : List (BitVec 64)) : Option (Word × Word) :=
  let sp := ((s.lane l).port 0x008).toNat
  match replay with
  | [a, b] => some (entryValue a, entryValue b)
  | _ =>
    match s.ownGet l sp n, s.ownGet l (sp + 1) n with
    | some a, some b => some (a, b)
    | _, _ => none

/-- The lane's registers after a return (02 R94); false says that the stack was short and BSU is set. -/
def Lane.restore (x : Lane) (v saved : Word) : Lane × Bool :=
  let f := x.flags
  let f := if v.getLsbD 0 then { f with z := saved.getLsbD 0, n := saved.getLsbD 1, c := saved.getLsbD 2, v := saved.getLsbD 3 } else f
  let f := if v.getLsbD 1 then { f with acc := saved.getLsbD 7 } else f
  let d := min (fld saved 20 16) 16
  let x := { x.setPort 0x008 (x.port 0x008 + 2) with flags := f }
  if d ≤ x.bstk.length then ({ x with bstk := x.bstk.drop (x.bstk.length - d) }, true)
  else ({ x with bstk := List.replicate (d - x.bstk.length) false ++ x.bstk, flags := { f with bsu := true } }, false)

/-! ### Control moves -/

/-- The idle marker that the frame of an idle entry holds (08 R313). -/
def idleMarker : Nat := 0x3FFFF

/-- A source that a cu.reti of lane l chains to (08 R317): deliverable at the level that its pop leaves; on a standby in
step, the forwarded interrupt that stands at this position, `bcnt` after the bundle of the cu.reti (07 R280). The command that
issues the cu.reti stands behind the arrivals of the cycles r to r + 2 (notes/assumptions/602.md). -/
def State.tailSource (s : State) (l : Nat) (bcnt : Word) : Option Nat :=
  match s.lpOfLane l with
  | none => none
  | some p =>
    let ls := s.levelsOf p
    if ls = [] then none
    else if s.inStep then
      (s.pl.iarrs.find? (fun e => e.1 == p && e.2.1 == (s.lp p).lseq && e.2.2.1 == some bcnt
        && decide (runningLevel ls.tail < (s.src e.2.2.2).level))).map (fun e => e.2.2.2)
    else s.bestSource p (runningLevel ls.tail)

/-- The fault of a control move as it takes effect (02 R89-R94, R96): FETCH or STACK; `chain` says that a cu.reti
tail-chains. Every cu.reti that pops the idle marker returns to idle, a cu.ret that pops it is FETCH (08 R313). -/
def State.controlFault (s : State) (l dst baddr n : Nat) (v : Word) (replay : List (BitVec 64)) (chain : Bool) : Option Nat :=
  let x := s.lane l
  let out := fun (t : Word) => decide (lastBundle < t.toNat)
  match dst with
  | 0 => if out v then some 5 else none
  | 1 => if out (BitVec.ofNat 32 baddr + v) then some 5 else none
  | 2 => if out v then some 5 else if !x.stackOk (l / 2) || decide ((x.port 0x008).toNat < (x.port 0x009).toNat + 2) then some 6 else none
  | 5 => none
  | _ =>
    if !x.stackOk (l / 2) || decide ((x.port 0x00A).toNat < (x.port 0x008).toNat + 2) then some 6
    else if dst = 4 ∧ chain then none
    else
      match s.frameWords l n replay with
      | none => none
      | some (a, _) =>
        let t := a.toNat % 2 ^ 18
        if lastBundle < t ∧ ¬ (dst = 4 ∧ t = idleMarker) then some 5 else none

/-- The lane's next bundle is t; a taken transfer folds its event (06 R234). -/
def State.transfer (s : State) (l n baddr t : Nat) : State :=
  (s.resolveEv l (n + 34, 0) [eventWord 4 t (BitVec.ofNat 32 baddr)]).modLane l (fun x => { x with pc := t, wait := false })

/-- The LP returns to idle (04 R156, R161, R165; 08 R313): from a handler that entered while it was idle, and from a task
whose cu.reti popped the idle marker, which commits nothing (notes/assumptions/603.md). -/
def State.returnIdle (s : State) (l : Nat) : State :=
  let s := s.modLane l (fun x => { x with idleH := false })
  if s.side l = .trail then s
  else
    let p := s.lpFor l
    (s.modLp p (fun y => { y with idleHandler := false, phase := .idle })).boundary p

/-- The interrupt entry event and the vector (06 R234; 08 R309, R317): the lane's next bundle is the handler's first. -/
def State.enterVector (s : State) (l q vector : Nat) (tag : Nat × Nat) : State :=
  (s.resolveEv l tag [eventWord 6 q (BitVec.ofNat 32 vector)]).modLane l (fun x => { x with pc := vector, wait := false })

/-- The source at a delivery leaves the pending interrupts; on a standby the forwarded entry is used up. -/
def State.takeSource (s : State) (p q : Nat) : State :=
  let s := s.deliver p q
  if s.inStep then
    { s with pl := { s.pl with iarrs := match s.pl.iarrs.find? (fun e => e.1 == p && e.2.2.2 == q) with
                                        | some e => s.pl.iarrs.erase e
                                        | none => s.pl.iarrs } }
  else if s.pl.role = 1 then
    s.pairSend (.iarr p (s.lp p).lseq (if (s.lp p).phase = .idle ∧ (s.lp p).idleHandler = false then none
      else some (s.lane (s.laneOf p)).bcnt) q)
  else s

/-- The entry of an interrupt in the replay FIFO (06 R230, R232). -/
def intEntry (n q vector : Nat) : REntry :=
  { seq := n, kind := 4, word := 0, slot := 0, addr := some (BitVec.ofNat 22 q), val := some (BitVec.ofNat 32 vector) }

/-- The task end of cu.end (04 R158, R161, R163; 06 R234; 08 R319). -/
def State.endMove (s : State) (l n : Nat) : State :=
  let p := s.lpFor l
  let x := s.lp p
  let num : Nat := if (s.lane l).idleH then 0x21 else if x.phase = .init ∨ x.phase = .initEnd then 0x20 else x.task
  let s := s.resolveEv l (n + 34, 0) [eventWord 5 0 (BitVec.ofNat 32 num)]
  let idle := (s.lane l).idleH
  let s := s.modLane l (fun y => { y with wait := false, idleH := false })
  if s.side l = .trail then s
  else
    let s := s.setLevels p []
    if idle then s.returnIdle l
    else s.modLp p (fun y => { y with phase := if y.phase = .init then .initEnd else .taskEnd })

/-- A control move of bundle `n` takes effect, with no fault (02 R88-R94; 08 R316, R317); none while a return waits for
its frame words. `flags` is the flags word that a call saves; `chain` the source of a tail chain with its vector. -/
def State.control (s : State) (l dst baddr n : Nat) (v flags : Word) (replay : List (BitVec 64)) (chain : Option (Nat × Nat)) :
    Option State :=
  let p := s.lpFor l
  match dst with
  | 0 => some (s.transfer l n baddr v.toNat)
  | 1 => some (s.transfer l n baddr (BitVec.ofNat 32 baddr + v).toNat)
  | 2 =>
    let s := s.postFrame l n baddr flags (baddr + 1)
    some (s.transfer l n baddr v.toNat)
  | 5 => some (s.endMove l n)
  | _ =>
    let pop := fun (s : State) => if dst = 4 ∧ s.side l ≠ .trail then s.popLevel p else s
    match chain with
    | some (q, vector) =>
      let s := pop s
      let s := if s.side l = .trail then s else (s.takeSource p q).reserve l [intEntry n q vector]
      some (s.enterVector l q vector (n + 34, 0))
    | none =>
      match s.frameWords l n replay with
      | none => none
      | some (a, saved) =>
        let sp := ((s.lane l).port 0x008).toNat
        let s := (s.fill l (n + 40) sp a).fill l (n + 40) (sp + 1) saved
        let r := (s.lane l).restore (if dst = 4 then 3 else v) saved
        let s := s.setLane l r.1
        let s := if r.2 then s else s.stackEvent l 0x200 baddr
        let t := a.toNat % 2 ^ 18
        let s := (pop s).transfer l n baddr t
        some (if t = idleMarker then s.returnIdle l else s)

end Sys2Proof.Machine
end

