-- ==== Sys2Proof/Machine/LaneIssue.lean ====
section
/-! DEFINITION. The issue of a bundle: stalls, faults, source reads, destination writes and the control move
(01 R21, R24-R26; 02 R65, R72-R92; 06 R226-R236). -/

namespace Sys2Proof.Machine

/-! ### Moves that take effect later (02 R82) -/

/-- Writes that keep their order among themselves: those into one lane-local unit; results of indexed loads have an
order of their own (03 R131). -/
def Item.orderKey (i : Item) : Nat := if i.unit then 0x1000 else unitOf i.dst

/-- An arithmetic trigger (03 R112-R123). -/
def arithTrigger (a : Nat) : Bool := decide ((0x84 ≤ a ∧ a ≤ 0x9F) ∨ (0xC4 ≤ a ∧ a ≤ 0xC9) ∨ (0x104 ≤ a ∧ a ≤ 0x113) ∨ (0x144 ≤ a ∧ a ≤ 0x148))

/-- A control move that had to wait takes effect (02 R90). A fault that its bundle could not show at issue, because it hangs on
a value that no unit had computed then, halts with the other moves of the bundle in effect (notes/assumptions/206.md). -/
def State.landControl (s : State) (l : Nat) (i : Item) (v : Word) : Option State :=
  let n := i.seq / 64 * 64
  let x := s.lane l
  if i.dst = 5 ∨ (s.lp (s.lpFor l)).st ≠ .run then some s
  else
    let frame := if i.dst = 2 then [] else i.replay
    match s.controlFault l i.dst i.baddr n v frame false with
    | some code => some (((s.resolveEv l (n + 32, 0) []).resolveEv l (n + 33, 0) []).laneFault l code i.slot i.baddr (some (n + 34, 0)))
    | none =>
      let flags := ((i.replay.head?).map loWord).getD x.flagsWord
      (s.control l i.dst i.baddr n v flags frame none).map (fun t =>
        if x.idleH ∧ (t.lane l).idleH = false ∧ (t.lane l).wcnt ≠ 0 then t.closeWindow l i.baddr else t)

/-- A write whose value is there takes effect in the lane (01 R18, R19; 02 R70); none where its unit does not accept it. -/
def State.land (s : State) (l : Nat) (i : Item) (v : Word) : Option State :=
  let a := i.dst
  let x := s.lane l
  let w := portValue a v
  if i.unit then some (s.setLane l (x.setPort a v))
  else if !mayWrite .program a then
    some (s.laneViol l a (if (portRow a).any (fun r => decide (r.dir ≠ .res)) then .world else .dirOrReserved))
  else if controlMove a then s.landControl l i v
  else if a = 0x00C then some (s.setLane l { x with flags := x.flags.write v })
  else if blTrigger a then
    some (s.setLane l { x with blq := x.blq ++ [{ op := blOpOf a, operand := w, baddr := i.baddr, seq := i.seq }] })
  else if !x.accepts a then none
  else if arithTrigger a then some (s.setLane l (x.arith a i.seq w i.cin))
  else if 0x18C ≤ a ∧ a ≤ 0x191 then some (s.macStart l a i.seq i.baddr w)
  else if 0x1C4 ≤ a ∧ a ≤ 0x1C7 then some (s.lsStart l a i.seq i.baddr i.slot w i.replay)
  else if iuTrigger a then s.iuStart l a i.seq i.baddr w i.replay
  else some (s.setLane l (x.setPort a w))

/-- An item leaves the lane's moves in flight. -/
def State.dropItem (s : State) (l : Nat) (i : Item) : State := s.modLane l (fun x => { x with items := x.items.erase i })

/-- The first move in flight that can take effect in the lane does so; none where there is none. A trail's stores leave
once their value is known (01 R32). -/
def State.landFirst (s : State) (l : Nat) : List Item → List Nat → Option State
  | [], _ => none
  | i :: t, blocked =>
    if outside i.dst then
      if s.side l = .trail ∧ i.val.isSome then some (s.dropItem l i) else s.landFirst l t blocked
    else
      match i.val with
      | none => s.landFirst l t (i.orderKey :: blocked)
      | some v =>
        if blocked.contains (i.orderKey) then s.landFirst l t blocked
        else
          match (s.dropItem l i).land l i v with
          | some s' => some s'
          | none => s.landFirst l t (i.orderKey :: blocked)

/-- Every move in flight that can take effect in the lane does so, in order (02 R82). -/
def State.drain (s : State) (l : Nat) : Nat → State
  | 0 => s
  | k + 1 =>
    match s.landFirst l (s.lane l).items [] with
    | some s' => (s'.resolveLoads l).drain l k
    | none => s

/-- The lane's moves settle after an event: what can take effect does, and known events fold. -/
def State.settle (s : State) (l : Nat) : State := ((s.resolveLoads l).drain l 64).fold l

/-! ### Stalls (02 R86) -/

/-- The source of a move is a load (02 R81). -/
def Move.isLoad (m : Move) : Bool := m.lit.isNone && outside m.src && decide (place m.src ≠ .imm)

/-- A guard waits for an operation (02 R74). -/
def Lane.guardStall (x : Lane) (ms : List Move) : Bool :=
  ms.any (fun m => (decide (4 ≤ m.guard) && x.flagPending) || ((m.guard == 2 || m.guard == 3) && x.blPending))

/-- A write by a lower slot of the bundle, or an earlier one, that waits in the unit of a destination. -/
def Lane.queued (x : Lane) (act : List Move) (m : Move) : Bool :=
  x.items.any (fun i => !outside i.dst && i.orderKey == unitOf m.dst) ||
  act.any (fun k => decide (k.slot < m.slot) && k.isLoad && !outside k.dst && unitOf k.dst == unitOf m.dst)

/-- A move with a true guard stalls its bundle: a carry, cu.flags or call that waits for an operation, a result that has
not appeared, or a unit that is busy in the cycle in which the bundle would issue (02 R74, R77, R84, R92; 01 R20, R21;
03 R122, R128; 13 R468). -/
def State.moveStall (s : State) (l : Nat) (act : List Move) (m : Move) : Bool :=
  let x := s.lane l
  let src := fun (a : Nat) => m.lit.isNone && m.src == a
  let ksBusy := s.side l != .trail && s.ksBusy (lpMaster (s.lpFor l))
  ((m.dst == 0x85 || m.dst == 0x87) && x.flagPending) ||
  ((src 0x00C || m.dst == 0x00C || m.dst == 2) && (x.flagPending || x.blPending)) ||
  (m.lit.isNone && decide (m.src < 0x400) && x.resultWaits m.src) ||
  (m.lit.isNone && decide (place m.src = .shared) && isResult m.src &&
    x.items.any (fun i => place i.dst == .shared && isTrigger i.dst && unitOf i.dst == unitOf m.src)) ||
  ((src 0xAC7 || src 0xACA || src 0xACB || src 0xACC) && ksBusy) ||
  (m.dst == 0xAC1 && !m.isLoad && ksBusy) ||
  (!outside m.dst && isTrigger m.dst && !controlMove m.dst && !m.isLoad && !x.queued act m &&
    !Lane.accepts { x with cyc := x.cyc + 1 } m.dst)

/-- A bundle that cannot issue now: the lane loses a cycle; a trail that cannot issue is a LAG mismatch (06 R226). -/
def State.stalled (s : State) (l : Nat) (full : Bool) : State :=
  if s.side l = .trail then s.trailMismatch (l / 2) 3
  else
    let s := s.modLane l (fun x => { x with cyc := x.cyc + 1 })
    if full then s.modRegion (l / 2) (fun r => { r with fstall := satInc r.fstall }) else s

/-! ### Faults found at issue (02 R96-R98) -/

/-- A trigger of a unit that accepts one per bundle: every unit but the bit-logic unit (02 R79). -/
def singleTrigger (a : Nat) : Bool := isTrigger a && !blTrigger a
def frameMove (a : Nat) : Bool := a == 2 || a == 3 || a == 4
def stackRegister (a : Nat) : Bool := a == 8 || a == 9 || a == 0xA

/-- The conflicts of a move with the moves of lower slots, and a literal in slot 3: slot and code. -/
def structFaults (ms act : List Move) : List (Nat × Nat) :=
  (if literalFault ms then [(3, 3)] else []) ++
  act.flatMap (fun m =>
    let low := act.filter (fun k => k.slot < m.slot)
    (if low.any (fun k => k.dst == m.dst) ∧ ((portRow m.dst).isSome ∨ (place m.dst).isMem) then [(m.slot, 1)] else []) ++
    (if singleTrigger m.dst ∧ low.any (fun k => singleTrigger k.dst && unitOf k.dst == unitOf m.dst) then [(m.slot, 2)] else []) ++
    (if (controlMove m.dst ∧ low.any (fun k => controlMove k.dst)) ∨
        (frameMove m.dst ∧ low.any (fun k => stackRegister k.dst)) ∨ (stackRegister m.dst ∧ low.any (fun k => frameMove k.dst))
     then [(m.slot, 4)] else []))

/-- The fault with the lowest slot, then the lowest code (02 R98). -/
def lowestFault (fs : List (Nat × Nat)) : Option (Nat × Nat) :=
  fs.foldl (fun best f =>
    match best with
    | some b => if f.1 * 8 + f.2 < b.1 * 8 + b.2 then some f else some b
    | none => some f) none

/-- The value of a move that is there in its issue cycle: from a literal, a short immediate or a lane-local port. -/
def Lane.directValue (x : Lane) (m : Move) : Option Word :=
  match m.lit with
  | some w => some w
  | none =>
    if m.src < 0x400 then
      some (if !mayRead .program m.src then 0 else
        match m.src with
        | 0x00C => x.flagsWord
        | 0x00E => BitVec.ofNat 32 x.pc
        | 0x00F => x.bcnt
        | 0x07C => bit x.flags.acc
        | a => x.port a)
    else if place m.src = .imm then some (immValue m.src) else none

/-- No earlier write, and none of a lower slot, waits in the control unit (02 R82): cu.sp, cu.slim and cu.sbase are as the
control move of the bundle finds them. -/
def Lane.cuQuiet (x : Lane) (act : List Move) (m : Move) : Bool :=
  !x.items.any (fun i => !outside i.dst && unitOf i.dst == 0) && !act.any (fun k => k.isLoad && k.dst != m.dst && !outside k.dst && unitOf k.dst == 0)

/-- A control move takes effect in its issue cycle: its operand is there, or it ignores it, and no earlier write into
the control unit waits (02 R88, R90, R94; 08 R316). -/
def Lane.controlNow (x : Lane) (act : List Move) (m : Move) : Bool :=
  m.dst == 5 || ((m.dst == 4 || (x.directValue m).isSome) && x.cuQuiet act m)

/-- The frame entries at the head of the trail's FIFO. -/
def State.peekFrame (s : State) (l : Nat) : List (BitVec 64) :=
  if s.side l = .trail then
    let es := (s.region (l / 2)).fifo.take 2
    if es.length = 2 ∧ es.all (fun e => e.kind == 3 && e.val.isSome) then es.map REntry.bits else []
  else []

/-- The replay entries that the moves in slots below `k` need (06 R228). -/
def entriesBelow (act : List Move) (k : Nat) : Nat :=
  ((act.filter (fun m => decide (m.slot < k))).map (fun m =>
    (if m.isLoad then 1 else 0) + (if m.dst = 0x1C4 ∨ m.dst = 0x1C6 then 1 else if iuTrigger m.dst then 8 else 0))).sum

/-- The operand of a control move as its bundle issues (02 R97): a value of the lane, or what the load finds; the trail's
load value stands in the FIFO behind the entries of the lower slots, or alone at its head where the lead's bundle
faulted. None is a value that waits for an own store. -/
def State.peekOperand (s : State) (l n : Nat) (act : List Move) (m : Move) : Option Word :=
  match (s.lane l).directValue m with
  | some w => some w
  | none =>
    if s.side l = .trail then
      let q := (s.region (l / 2)).fifo
      let fits := fun (e : REntry) => e.kind == 1 && e.slot.toNat == m.slot && e.addr == some (BitVec.ofNat 22 m.src)
      ([q[0]?, q[entriesBelow act m.slot]?].filterMap (fun e => e.bind (fun e => if fits e then e.val else none))).head?
    else (s.sample l m.src n).2.got

/-- The source to which the cu.reti of a bundle chains, and its vector (08 R317). -/
def State.chainOf (s : State) (l : Nat) (cm : Option Move) : Option (Nat × Nat) :=
  match cm with
  | some m =>
    if m.dst = 4 ∧ s.side l ≠ .trail then (s.tailSource l ((s.lane l).bcnt + 1)).map (fun q => (q, (s.src q).vector)) else none
  | none => none

/-- The fault of a control move that its bundle shows at issue (02 R97): the target of a jump or call, the stack and the
popped address as far as they are known then. -/
def State.controlFaultAtIssue (s : State) (l pc n : Nat) (act : List Move) (m : Move) (chain : Bool) : Option Nat :=
  let quiet := (s.lane l).cuQuiet act m
  let v := s.peekOperand l n act m
  if m.dst ≤ 2 then
    match v with
    | some w =>
      match s.controlFault l m.dst pc n w [] chain with
      | some code => if quiet ∨ code = 5 then some code else none
      | none => none
    | none => none
  else if quiet then s.controlFault l m.dst pc n 0 (s.peekFrame l) chain
  else none

/-- The fault of a bundle at issue. -/
def State.bundleFault (s : State) (l pc n : Nat) (ms act : List Move) (chained : Bool) : Option (Nat × Nat) :=
  let cm := act.find? (fun m => controlMove m.dst)
  let chain := chained || (s.chainOf l cm).isSome
  let late := match cm with
    | some m => ((s.controlFaultAtIssue l pc n act m chain).map (fun c => (m.slot, c))).toList
    | none => []
  lowestFault (structFaults ms act ++ late)

/-! ### Source reads (01 R25; 06 R228-R231) -/

/-- `k` entries of one read, WORD counting from `w`. -/
def State.takeEntries (s : State) (l kind slot : Nat) (addr : Nat → Option Nat) : Nat → Nat → Except Nat (State × List (BitVec 64))
  | 0, _ => .ok (s, [])
  | k + 1, w =>
    match s.takeEntry l kind w slot (addr w) with
    | .error m => .error m
    | .ok (s', b) =>
      match s'.takeEntries l kind slot addr k (w + 1) with
      | .error m => .error m
      | .ok (s'', bs) => .ok (s'', b :: bs)

/-- Unfilled entries of one read. -/
def openEntries (seq kind slot k : Nat) : List REntry :=
  (List.range k).map (fun w => { seq := seq, kind := BitVec.ofNat 3 kind, word := BitVec.ofNat 3 w, slot := BitVec.ofNat 2 slot
                                 addr := none, val := none })

/-- The source of a move: a value that is there, or a load. -/
def State.readSource (s : State) (l n : Nat) (m : Move) : Except Nat (State × Option Word × Option LoadSrc) :=
  match (s.lane l).directValue m with
  | some w =>
    let bad := m.lit.isNone && decide (m.src < 0x400) && !mayRead .program m.src
    .ok (if bad then s.laneViol l m.src (if (portRow m.src).any (fun r => decide (r.dir = .res ∨ r.dir = .rw)) then .world else .dirOrReserved)
         else s, some w, none)
  | none =>
    if s.side l = .trail then
      match s.takeEntry l 1 0 m.slot (some m.src) with
      | .error k => .error k
      | .ok (s', b) => .ok (s', none, some ⟨m.src, some (entryValue b)⟩)
    else
      let r := (s.reserve l (openEntries (n + 8 * m.slot) 1 m.slot 1)).sample l m.src n
      .ok (r.1, none, some r.2)

/-- The reads that the unit of a trigger makes: one of an indexed load, eight of an instance operation (06 R228). -/
def State.unitReads (s : State) (l seq slot dst : Nat) : Except Nat (State × List (BitVec 64)) :=
  let k := if dst = 0x1C4 ∨ dst = 0x1C6 then 1 else if iuTrigger dst then 8 else 0
  if s.side l = .trail then s.takeEntries l 2 slot (fun _ => none) k 0
  else .ok (s.reserve l (openEntries seq 2 slot k), [])

/-- The moves with true guards read their sources in slot order (R25); the control move's item comes with them. -/
def State.readMoves (s : State) (l pc n : Nat) : List Move → Except Nat (State × List Item)
  | [] => .ok (s, [])
  | m :: t =>
    match s.readSource l n m with
    | .error k => .error k
    | .ok (s1, val, ld) =>
      match s1.unitReads l (n + 8 * m.slot) m.slot m.dst with
      | .error k => .error k
      | .ok (s2, bits) =>
        match s2.readMoves l pc n t with
        | .error k => .error k
        | .ok (s3, is) =>
          .ok (s3, { seq := n + 8 * m.slot, baddr := pc, slot := m.slot, dst := m.dst, val := val, ld := ld
                     cin := (s.lane l).flags.c, replay := bits } :: is)

/-- The frame words of a return at its issue (06 R228): the trail takes them, the lead reserves them, filled where they
are known. -/
def State.readFrame (s : State) (l n slot dst : Nat) : Except Nat (State × List (BitVec 64)) :=
  if dst ≠ 3 ∧ dst ≠ 4 then .ok (s, [])
  else
    let sp := ((s.lane l).port 0x008).toNat
    if s.side l = .trail then s.takeEntries l 3 slot (fun w => some (sp + w)) 2 0
    else
      let s := s.reserve l (openEntries (n + 40) 3 slot 2)
      match s.frameWords l n [] with
      | some (a, b) => .ok ((s.fill l (n + 40) sp a).fill l (n + 40) (sp + 1) b, [])
      | none => .ok (s, [])

/-! ### Issue -/

/-- The event of a move at its place (06 R234, R235): known, or to be known. -/
def State.moveEvent (s : State) (l : Nat) (i : Item) : State :=
  if blStore i.dst ∨ iuTrigger i.dst ∨ i.dst = 0x1C5 ∨ i.dst = 0x1C7 then s.pushEv l (i.seq, 0) none
  else
    match storeWord i.dst 0 with
    | some _ => s.pushEv l (i.seq, 0) (i.val.bind (storeWord i.dst))
    | none => s

/-- A move joins the moves in flight. -/
def State.addItem (s : State) (l : Nat) (i : Item) : State := (s.moveEvent l i).modLane l (fun x => { x with items := x.items ++ [i] })

/-- The flags word that a call saves: as it stands after every lower slot (02 R92); none where a lower slot writes it by
a load. -/
def Lane.savedFlags (x : Lane) (act : List Move) (slot : Nat) : Option Word :=
  match act.find? (fun k => k.dst == 0x00C && decide (k.slot < slot)) with
  | some k => (x.directValue k).map (fun w => Lane.flagsWord { x with flags := x.flags.write w })
  | none => some x.flagsWord

/-- What the trail has to repeat joins the list (06 R226). -/
def State.toRepeat (s : State) (l : Nat) (k : Repeat) : State :=
  if s.side l = .lead then s.modRegion (l / 2) (fun r => { r with outstanding := r.outstanding ++ [k] }) else s

/-- The placeholders of a control move's events (06 R235). -/
def State.controlEvents (s : State) (l n dst : Nat) : State :=
  let s := if dst = 2 then (s.pushEv l (n + 32, 0) none).pushEv l (n + 33, 0) none else s
  s.pushEv l (n + 34, 0) none

/-- What a bundle has read to find the fault of its control move: the frame of a return, or the loaded operand of a jump or
call (02 R97; 06 R228). -/
def State.faultReads (s : State) (l n : Nat) (act : List Move) (slot code : Nat) : Except Nat State :=
  match act.find? (fun m => controlMove m.dst) with
  | none => .ok s
  | some m =>
    if m.slot ≠ slot ∨ (code ≠ 5 ∧ code ≠ 6) then .ok s
    else if m.dst ≤ 2 then
      if m.isLoad then
        (s.readSource l n m).map (fun r =>
          match r.2.2 with
          | some ⟨a, some v⟩ => r.1.fill l (n + 8 * m.slot) a v
          | _ => r.1)
      else .ok s
    else if code = 5 then (s.readFrame l n m.slot m.dst).map (fun r => r.1)
    else .ok s

/-- A bundle with a halting fault (02 R97; 06 R228, R229, R243). -/
def State.faultBundle (s : State) (l pc n : Nat) (act : List Move) (mv : Option (Nat × Word)) (slot code : Nat) : State :=
  match s.faultReads l n act slot code with
  | .error k => s.trailMismatch (l / 2) k
  | .ok t =>
    let u := ((t.modLane l (fun x => { x with cyc := x.cyc + 1, last := pc })).toRepeat l (.fault mv)).laneFault l code slot pc none
    if u.overFull l then s.stalled l true else u

/-- The control move of a bundle (02 R88): in effect at once, or among the moves in flight until its operand is there (notes/assumptions/206.md). -/
def State.issueControl (s : State) (l pc n : Nat) (x : Lane) (act : List Move) (m : Move) (i : Item) (frame : List (BitVec 64))
    (chain : Option (Nat × Nat)) : State :=
  let saved := x.savedFlags act m.slot
  let keep := if m.dst = 2 then (saved.map (fun w => w.setWidth 64)).toList else frame
  let later := if m.dst = 4 then { i with replay := keep, val := some 0, ld := none } else { i with replay := keep }
  let read := if i.ld.isSome ∧ (m.dst = 4 ∨ m.dst = 5) then [{ i with dst := 5 }] else []
  let wait := fun (s : State) => s.modLane l (fun y => { y with items := y.items ++ later :: read, wait := true })
  let s := s.controlEvents l n m.dst
  if x.controlNow act m ∨ chain.isSome then
    match s.control l m.dst pc n ((x.directValue m).getD 0) (saved.getD 0) frame chain with
    | some t => t.modLane l (fun y => { y with items := y.items ++ read })
    | none => wait s
  else wait s

/-- The replay entries that a control move takes at issue: those of a return's frame, but none where it tail-chains
(08 R317, R322). -/
def State.controlReads (s : State) (l n : Nat) (cm : Option Move) (chains : Bool) : Except Nat (State × List (BitVec 64)) :=
  match cm with
  | some m => if chains then .ok (s, []) else s.readFrame l n m.slot m.dst
  | none => .ok (s, [])

/-- The bundle's moves take effect (01 R25): an error is the MKIND of a trail's mismatch. -/
def State.issueEffects (s : State) (l pc n : Nat) (act : List Move) (mv : Option (Nat × Word)) (chained : Bool) : Except Nat State :=
  let x := s.lane l
  let s1 := s.setLane l { x with seq := n / 64, cyc := x.cyc + 1, last := pc }
  let cm := act.find? (fun m => controlMove m.dst)
  let own := s.chainOf l cm
  match s1.controlReads l n cm (own.isSome || chained) with
  | .error k => .error k
  | .ok (s2, frame) =>
    match s2.readMoves l pc n act with
    | .error k => .error k
    | .ok (s3, items) =>
      let s3 := s3.modLane l (fun y => { y with pc := pc + 1, bcnt := y.bcnt + 1, wcnt := y.wcnt + 1 })
      match (if s.side l = .trail ∧ chained then (s3.takeEntry l 4 0 0 none).map (fun r => (r.1, some (entryAddr r.2, (entryValue r.2).toNat)))
             else .ok (s3, own) : Except Nat (State × Option (Nat × Nat))) with
      | .error k => .error k
      | .ok (s4, chain) =>
        let s5 := (items.filter (fun i => !controlMove i.dst)).foldl (fun s i => s.addItem l i) s4
        let s6 := (s5.resolveLoads l).drain l 64
        match cm with
        | none => .ok (s6.toRepeat l (.bundle mv false))
        | some m =>
          match items.find? (fun i => i.dst == m.dst && i.slot == m.slot) with
          | none => .ok s6
          | some i => .ok ((s6.toRepeat l (.bundle mv chain.isSome)).issueControl l pc n x act m i frame chain)

/-- The frame words that a return of the lead or only lane reads in memory pass the memory's code (06 R244); false where an
uncorrectable error stopped the reader. -/
def State.frameCheck (s : State) (l pc n : Nat) (ms act : List Move) (chained : Bool) : State × Bool :=
  match act.find? (fun m => controlMove m.dst) with
  | some m =>
    let x := s.lane l
    let sp := (x.port 0x008).toNat
    let stored := fun (a : Nat) => (x.lastStore (l / 2) a n).isSome
    if (m.dst = 3 ∨ m.dst = 4) ∧ structFaults ms act = [] ∧ s.side l ≠ .trail ∧ chained = false ∧ (s.chainOf l (some m)).isNone ∧ x.stackOk (l / 2) then
      s.memCheck l (l / 2) 1 (fun k => (k + sliceBase (l / 2) == sp && !stored sp) || (k + sliceBase (l / 2) == sp + 1 && !stored (sp + 1))) pc
    else (s, true)
  | none => (s, true)

/-- The lane state after a bundle has issued, unless it lacks in-flight entries (02 R85) or replay entries: those it needs,
and the two of a window that its waiting control move may yet close (06 R229). -/
def State.issued (s t : State) (l : Nat) : State :=
  let spare := if (t.lane l).wait then 2 else 0
  if 32 < (t.lane l).inFlight then s.stalled l false
  else if s.side l = .lead ∧ 512 < (t.region (l / 2)).fifo.length + spare then s.stalled l true
  else t.fold l

/-- The bundle of moves `ms` at address `pc` issues on lane l, or stalls, or faults; `mv` names a control move given as a
command, `chained` that the lead's cu.reti tail-chained. -/
def State.issueMoves (s : State) (l pc : Nat) (ms : List Move) (mv : Option (Nat × Word)) (chained : Bool) : State :=
  let x := s.lane l
  let act := ms.filter (fun m => x.flags.guard m.guard)
  let n := 64 * s.nextSeq l
  if x.guardStall ms || act.any (fun m => s.moveStall l act m) then s.stalled l false
  else
    let c := s.frameCheck l pc n ms act chained
    if c.2 = false then c.1
    else
      match c.1.bundleFault l pc n ms act chained with
      | some (slot, code) => c.1.faultBundle l pc n act mv slot code
      | none =>
        match c.1.issueEffects l pc n act mv chained with
        | .error k => c.1.trailMismatch (l / 2) k
        | .ok t =>
          let ends := act.any (fun m => m.dst == 5) || (x.idleH && !(t.lane l).idleH) ||
            decide ((c.1.region (l / 2)).window ≤ (t.lane l).wcnt)
          c.1.issued (if ends then t.closeWindow l pc else t) l

/-- The one move of a bundle that a control command stands for. -/
def commandMove (dst : Nat) (v : Word) : Move := { slot := 0, guard := 0, src := 0x3FFFFF, lit := some v, dst := dst }

/-- The bundle at the lane's pc issues (02 R62-R65, R89; 06 R244); with `mv`, it is the given control move alone. -/
def State.issueAt (s : State) (l : Nat) (mv : Option (Nat × Word)) (chained : Bool) : State :=
  let pc := (s.lane l).pc
  if lastBundle < pc then
    let t := (s.toRepeat l (.fault mv)).laneFault l 5 0 pc none
    if t.overFull l then s.stalled l true else t
  else
    let base := 4 * (s.bankOf l * 2 ^ 18 + pc)
    let c := s.memCheck l (l / 2) 0 (fun k => decide (base ≤ k ∧ k < base + 4)) pc
    if c.2 = false then c.1
    else c.1.issueMoves l pc (match mv with | some (d, v) => [commandMove d v] | none => decodeBundle (s.bundleAt l pc)) mv chained

/-- A forwarded interrupt stands at the position that LP p of a standby in step has reached (07 R280). -/
def State.dueIarr (s : State) (p : Nat) : Option Nat :=
  if s.inStep then
    (s.pl.iarrs.find? (fun e => e.1 == p && e.2.1 == (s.lp p).lseq &&
      (if (s.lp p).phase = .idle ∧ (s.lp p).idleHandler = false then e.2.2.1 == none
       else e.2.2.1 == some (s.lane (s.laneOf p)).bcnt))).map (fun e => e.2.2.2)
  else none

/-- Lane l may issue a bundle of its LP (02 R90; 04 R158, R163; 08 R313): the LP executes, no transfer is open, the lane
has not come to a halting fault, and no forwarded interrupt must enter first. -/
def State.mayIssue (s : State) (l : Nat) : Bool :=
  match s.lpOfLane l with
  | none => false
  | some p =>
    let y := s.lp p
    decide (y.st = .run) && (decide (y.phase = .exec) || decide (y.phase = .init) || (decide (y.phase = .idle) && y.idleHandler))
      && !(s.lane l).wait && (s.side l != .lead || (s.region (l / 2)).leadFault.isNone) && (s.dueIarr p).isNone

/-- BUNDLE_ISSUE (01 R25). -/
def bundleIssueOp (l : Fin 8) (s : State) : State := if s.mayIssue l.val then s.issueAt l.val none false else s

/-- CU_JMP to CU_END (02 R90-R94; 04 R158; 08 R316): the lane issues a bundle that holds the control move alone. -/
def controlOp (dst : Nat) (l : Fin 8) (v : Word) (s : State) : State := if s.mayIssue l.val then s.issueAt l.val (some (dst, v)) false else s

end Sys2Proof.Machine
end

