-- ==== Sys2Proof/Machine/LaneEvents.lean ====
section
/-! DEFINITION. What happens in a lane between bundles: loads, stores, results, record write-backs, trigger moves given as
commands, interrupt entry, and the trail's repetition of its lead (02 R81-R84; 03 R104, R111, R140; 06 R226-R232, R243;
08 R311-R315). -/

namespace Sys2Proof.Machine

/-! ### Loads (02 R81, R83; 06 R229, R244) -/

/-- A loaded value reaches the moves in flight of lane l: memory check, replay entry, event, and the writes that it
lets take effect. -/
def State.deliver1 (s : State) (l : Nat) (i : Item) : State :=
  match i.ld with
  | some ⟨a, some v⟩ =>
    let own := (a - 0x200000) / 0x80000
    let c := if s.side l ≠ .trail ∧ place a = .word then s.memCheck l own 1 (fun k => k == a - sliceBase own) i.baddr else (s, true)
    if c.2 = false then c.1
    else
      let s := c.1.fill l i.seq a v
      let s := if (storeWord i.dst 0).isSome then s.resolveEv l (i.seq, 0) (storeWord i.dst v).toList else s
      let j : Item := { i with val := some v }
      (s.modLane l (fun x => { x with items := x.items.map (fun k => if k = i then j else k) })).settle l
  | _ => s

/-- LOAD_DELIVERY: the k-th load move that waits takes its value, once an own store that it waits for is computed. -/
def loadDeliveryOp (l : Fin 8) (k : Nat) (s : State) : State :=
  let l := l.val
  if regionPresent (l / 2) = false then s else
  let s := s.resolveLoads l
  match ((s.lane l).items.filter (fun i => i.ld.isSome && i.val.isNone && !i.unit))[k]? with
  | some i => s.deliver1 l i
  | none => s

/-- The lead takes the two entries of a window that a MAXRUN expiry closed, in the first cycle in which they are free
(06 R229). -/
def State.mxClose (s : State) (r : Nat) : State :=
  if (s.region r).mxWait ∧ (s.region r).fifo.length ≤ 510 then
    ((s.modRegion r (fun y => { y with mxWait := false })).closeWindow (2 * r) (s.lane (2 * r)).last).fold (2 * r)
  else s

/-- TRIGGER_WRITE_WAIT (01 R21): a cycle passes, and trigger writes that their units now accept take effect. -/
def triggerWriteWaitOp (l : Fin 8) (s : State) : State :=
  if regionPresent (l.val / 2) = false then s else
  ((s.modLane l.val (fun x => { x with cyc := x.cyc + 1 })).settle l.val).mxClose (l.val / 2)

/-! ### Stores (01 R35; 02 R82, R84) -/

/-- A move in flight that stores to memory, or whose unit has yet to (03 R105). -/
def Item.stores (i : Item) : Bool :=
  (outside i.dst && decide (place i.dst ≠ .shared)) || blStore i.dst || i.dst == 0x1C5 || i.dst == 0x1C7 || iuTrigger i.dst

/-- The lane has a store of an earlier move that is not yet performed. -/
def Lane.storeBefore (x : Lane) (seq : Nat) : Bool :=
  x.items.any (fun i => decide (i.seq < seq) && i.stores) ||
  x.blq.any (fun w => decide (w.seq < seq) && (w.op == .st || w.op == .stn || w.op == .set || w.op == .rst)) ||
  x.iuq.any (fun q => decide (q.seq < seq))

/-- An earlier store of the region of lane l is not yet performed: the stores of one region become visible in the order of
its issue (01 R35), those of both lanes where it is split. -/
def State.storeBefore (s : State) (l seq : Nat) : Bool :=
  (s.lane l).storeBefore seq || (s.side l == .solo && (s.lane (if l % 2 = 0 then l + 1 else l - 1)).storeBefore seq)

/-- The posted write that is performed next (notes/assumptions/204.md): stores to memory in the region's order of issue
(01 R35), writes into one shared unit in the lane's (02 R82); a start of a key store operation waits while one of its master
is open (13 R468), and mr.rd behind an earlier fb.ack (10 R374). -/
def State.nextStore (s : State) (l : Nat) : List Item → List Nat → Option Item
  | [], _ => none
  | i :: t, blocked =>
    if !outside i.dst then s.nextStore l t blocked
    else if place i.dst = .shared then
      let busy := decide (i.dst = 0xAC1) && s.ksBusy (lpMaster (s.lpFor l))
      if i.val.isSome ∧ blocked.contains (unitOf i.dst) = false ∧ busy = false then some i
      else s.nextStore l t (unitOf i.dst :: (if i.dst = 0x990 then 0x880 :: blocked else blocked))
    else if i.val.isSome ∧ s.storeBefore l i.seq = false then some i
    else s.nextStore l t blocked

/-- STORE_PERFORMED. -/
def storePerformedOp (l : Fin 8) (s : State) : State :=
  let l := l.val
  if s.side l = .trail ∨ regionPresent (l / 2) = false then s
  else
    match s.nextStore l (s.lane l).items [] with
    | some i => ((s.dropItem l i).moveWrite (lpMaster (s.lpFor l)) i.dst (i.val.getD 0)).settle l
    | none => s

/-! ### Results (01 R20; 02 R75, R78; 03 R104, R111, R117, R123) -/

/-- A result appears: its ports, its flags unless a later operation's have appeared, its event (notes/assumptions/203.md). -/
def State.appear (s : State) (l : Nat) (r : Pend) : State :=
  let s := s.modLane l (fun x =>
    let newer := decide (x.flagSeq ≤ r.seq)
    let x := x.setPorts r.ports
    { x with pend := x.pend.erase r, acc72 := r.acc.getD x.acc72
             flags := x.flags.setArith (if newer then r.fl else none) r.dz r.sat
             flagSeq := if r.fl.isSome ∧ newer then r.seq else x.flagSeq })
  let s := if r.arith ∧ s.side l ≠ .trail then s.arrive (8 + s.lpFor l) else s
  s.settle l

/-- Up to four waiting bit-logic operations are performed, in order. -/
def State.blStep (s : State) (l : Nat) : Nat → State
  | 0 => s
  | k + 1 =>
    match (s.lane l).blq with
    | [] => s
    | w :: t => ((s.modLane l (fun x => { x with blq := t })).blPerform l w).blStep l k

/-- RESULT_APPEARS: the next result of a group. -/
def resultAppearsOp (l : Fin 8) (g : ResGroup) (s : State) : State :=
  let l := l.val
  if regionPresent (l / 2) = false then s else
  match g with
  | .bl => (s.blStep l 4).settle l
  | .ls =>
    let s := s.resolveLoads l
    match (s.lane l).items.find? (fun i => i.unit) with
    | some i => if i.val.isNone then s.deliver1 l i else s
    | none => s
  | _ =>
    match (s.lane l).pend.find? (fun r => r.g == g) with
    | some r => s.appear l r
    | none => s

/-- IU_WRITEBACK (03 R140): the changed words are written and the results appear, once the region's earlier stores are
performed (01 R35); the trail writes nothing. -/
def iuWritebackOp (l : Fin 8) (s : State) : State :=
  let l := l.val
  if regionPresent (l / 2) = false then s else
  match (s.lane l).iuq with
  | [] => s
  | q :: t =>
    if s.side l ≠ .trail ∧ s.storeBefore l q.seq then s
    else
      let s := if s.side l = .trail then s else q.changed.foldl (fun s e => s.memSet e.1 e.2) s
      (s.modLane l (fun x => { x.setPorts [(0x210, bit q.q), (0x211, bit q.q2), (0x212, loWord q.et), (0x213, hiWord q.et), (0x214, q.st)]
                               with iuq := t })).settle l

/-! ### Trigger moves given as commands -/

/-- A trigger move of value v into port a of lane l takes its place behind the lane's moves in flight (01 R18; 02 R82,
R85); a lane of an absent region has no effect (00 R4); without a free in-flight or replay entry, and where the carry waits for an operation (02 R74), it waits
(notes/assumptions/209.md). -/
def laneTrigger (a : Nat) (l : Fin 8) (v : Word) (s : State) : State :=
  let l := l.val
  let x := s.lane l
  let n := s.nextSeq l
  if regionPresent (l / 2) = false ∨ 32 ≤ x.inFlight ∨ ((a = 0x85 ∨ a = 0x87) ∧ x.flagPending) then s
  else
    match s.unitReads l (64 * n) 0 a with
    | .error k => s.trailMismatch (l / 2) k
    | .ok (t, bits) =>
      if t.overFull l then s
      else
        let i : Item := { seq := 64 * n, baddr := x.pc, slot := 0, dst := a, val := some v, ld := none, cin := x.flags.c, replay := bits }
        ((t.modLane l (fun x => { x with seq := n })).addItem l i).settle l

/-! ### Interrupt entry (08 R311-R315; 07 R280) -/

/-- LP p stands at an entry point (R311), no operation that R312 names is pending, and entries are free. -/
def State.entryPoint (s : State) (p : Nat) : Bool :=
  let y := s.lp p
  let l := s.laneOf p
  let x := s.lane l
  let r := s.region (p / 2)
  s.lpExists p && decide (y.st = .run) && decide (r.cov ≠ .rejoin) && decide (r.cov ≠ .handover) && !x.wait && r.leadFault.isNone &&
  (match y.phase with
   | .exec | .init => decide (x.bcnt ≠ 0) || decide (y.levels ≠ [])
   | .idle => y.idleHandler || (s.prog.init p).isSome
   | _ => false) &&
  !x.flagPending && !x.blPending && decide (x.inFlight ≤ 30) && (s.side l != .lead || decide (r.fifo.length < 512))

/-- The registers that an entry of an idle LP loads (R313). -/
def Lane.idleRegs (x : Lane) (top lim : Word) : Lane :=
  { ((x.setPort 0x008 top).setPort 0x00A top).setPort 0x009 lim with flags := {}, bstk := [], pc := idleMarker, idleH := true }

/-- The frame and the transfer of an entry in lane l (R312). -/
def State.enterFrame (s : State) (l q vector : Nat) : State :=
  let x := s.lane l
  let n := 64 * s.nextSeq l
  let s := (s.modLane l (fun x => { x with seq := n / 64 })).controlEvents l n 2
  ((s.postFrame l n x.pc x.flagsWord x.pc).enterVector l q vector (n + 34, 0)).fold l

/-- Source q enters its handler on LP p (R312-R314; notes/assumptions/604.md); an idle entry has loaded its stack registers
where the stack check fails. -/
def State.enterHandler (s : State) (p q : Nat) : State :=
  let l := s.laneOf p
  let y := s.lp p
  let idle := y.phase = .idle ∧ y.idleHandler = false
  let d := (s.prog.init p).getD ⟨0, 0, 0, 0⟩
  let x := if idle then (s.lane l).idleRegs d.stacktop d.stacklim else s.lane l
  let vector := (s.src q).vector
  if (x.port 0x008).toNat < (x.port 0x009).toNat + 2 then
    let t := ((s.setLane l x).toRepeat l (.entryFault idle d.stacktop d.stacklim)).laneFault l 6 0 x.pc none
    if t.overFull l then s else t
  else
    let s := s.takeSource p q
    let s := if idle then ((s.setLane l x).modLp p (fun y => { y with idleHandler := true })).toRepeat l (.idleEntry d.stacktop d.stacklim) else s
    ((s.reserve l [intEntry 0 q vector]).toRepeat l .entry).enterFrame l q vector

/-- HANDLER_DELIVERY (08 R308, R309, R312): the source that target t takes next. A standby in step takes only forwarded
interrupts on its LPs (07 R280). -/
def handlerDeliveryOp (t : Nat) (s : State) : State :=
  if t = 8 then
    match s.bestSource 8 (runningLevel s.hcLevels) with
    | some q => s.deliver 8 q
    | none => s
  else if s.entryPoint t then
    match (if s.inStep then s.dueIarr t else s.bestSource t (runningLevel (s.levelsOf t))) with
    | some q => s.enterHandler t q
    | none => s
  else s

/-- IARR (07 R280): a forwarded interrupt waits for its position, and enters at once where the LP stands there. -/
def iarrOp (p : Fin 8) (lseq : Word) (bcnt : Option Word) (q : Fin 256) (s : State) : State :=
  if s.takesForwarded then handlerDeliveryOp p.val { s with pl := { s.pl with iarrs := s.pl.iarrs ++ [(p.val, lseq, bcnt, q.val)] } }
  else s

/-! ### The trail (06 R226-R232, R243) -/

/-- The trail enters the handler that the entry at the head of its FIFO names (R232). -/
def State.trailEntry (s : State) (r : Nat) : State :=
  let l := 2 * r + 1
  let x := s.lane l
  match s.takeEntry l 4 0 0 none with
  | .error k => s.trailMismatch r k
  | .ok (s, e) =>
    if (x.port 0x008).toNat < (x.port 0x009).toNat + 2 then s.trailMismatch r 4
    else s.enterFrame l (entryAddr e) (entryValue e).toNat

/-- The trail repeats one thing of its lead (06 R226, R232, R243); a trail whose control move still waits is late, and so is
one that has an operation pending where its lead entered a handler (08 R312; notes/assumptions/605.md). -/
def State.trailRepeat (s : State) (r : Nat) (k : Repeat) : State :=
  let l := 2 * r + 1
  let x := s.lane l
  match k with
  | .bundle mv chained => if x.wait then s.stalled l false else s.issueAt l mv chained
  | .entry => if x.wait || x.flagPending || x.blPending || decide (30 < x.inFlight) then s.stalled l false else s.trailEntry r
  | .idleEntry top lim => s.setLane l (x.idleRegs top lim)
  | .start entry top lim => s.setLane l (x.startTask entry top lim)
  | .fault mv =>
    if x.wait then s.stalled l false
    else
      let t := s.issueAt l mv false
      if (t.lp (2 * r)).st = .run ∧ (t.region r).trailFault = none then t.trailMismatch r 4 else t
  | .entryFault idle top lim =>
    let y := if idle then x.idleRegs top lim else x
    if (y.port 0x008).toNat < (y.port 0x009).toNat + 2 then (s.setLane l y).laneFault l 6 0 y.pc none
    else s.trailMismatch r 4
  | .maxrun => ((s.modRegion r (fun y => { y with trailFault := some 0 })).closeWindow l x.last).fold l

/-- TRAIL_ISSUE: the trail repeats what comes next of its lead, unless its LP has halted (06 R226, R241). -/
def trailIssueOp (r : Fin 4) (s : State) : State :=
  let r := r.val
  if s.paired r = false ∨ (s.lp (2 * r)).st = .halt then s
  else
    match (s.region r).outstanding with
    | [] => s
    | k :: t => ((s.modRegion r (fun y => { y with outstanding := t })).trailRepeat r k).mxClose r

/-- The MAXRUN of what LP p executes: the task's, or its start-up routine's; 0 is no limit (04 R153, R163). -/
def State.maxrunOf (s : State) (p : Nat) : Nat :=
  let x := s.lp p
  if x.phase = .init then ((s.prog.init p).map (fun d => d.maxrun)).getD 0 else (s.prog.task p x.task).maxrun

/-- MAXRUN_EXPIRY (04 R153, R160, R163; 06 R229, R236, R243): a task or routine with a limit that has not ended halts; in a
paired region once the trail has come to the same bundle and the window has passed. -/
def maxrunExpiryOp (p : Fin 8) (s : State) : State :=
  let p := p.val
  let x := s.lp p
  let m := s.maxrunOf p
  if x.st = .run ∧ m ≠ 0 ∧ (x.phase = .latch ∨ x.phase = .exec ∨ x.phase = .init) ∧ (s.region (p / 2)).leadFault = none then
    let s := s.event 0x0104 5 p [BitVec.ofNat 32 (if x.phase = .init then 0x20 else x.task), BitVec.ofNat 32 m, 0]
    if p % 2 = 0 ∧ s.paired (p / 2) ∧ x.phase ≠ .latch then
      (s.modRegion (p / 2) (fun r => { r with leadFault := some 0, outstanding := r.outstanding ++ [.maxrun], mxWait := true })).mxClose (p / 2)
    else s.haltLp p 0x03
  else s

end Sys2Proof.Machine
end

