-- ==== Sys2Proof/WellFormed.lean ====
section
/-! DEFINITION. The conditions a command's operands meet beyond their types. -/

namespace Sys2Proof

/-- A CAN frame carries its length in data bytes, 0-8 in a classical frame and 0-8, 12, 16, 20, 24, 32, 48 or 64 in an
FD frame; a remote frame carries none; a standard identifier has 11 bits (10 R364, R366). -/
def CanFrame.wf (f : CanFrame) : Bool :=
  decide (f.data.length = if f.rtr then 0 else f.len) &&
  (if f.fdf then [0, 1, 2, 3, 4, 5, 6, 7, 8, 12, 16, 20, 24, 32, 48, 64].contains f.len && !f.rtr else decide (f.len ≤ 8)) &&
  (f.ext || decide (f.id.toNat < 2048))

/-- Boards are numbered 1-20 (11 R399). -/
def boardNo (b : Fin 21) : Bool := decide (b ≠ 0)

/-- The operand conditions of every command (notes/assumptions/9.md). -/
def Instr.wf : Instr → Bool
  | .canFrameReceive _ f => f.wf
  | .stationRequest _ st => decide (st ≠ 0)
  | .rackInputPhaseEnd bs _ => bs.all (fun b => boardNo b.board)
  | .identityProbe b _ => boardNo b
  | _ => true

end Sys2Proof
end

