-- ==== Sys2Proof/Machine/CmdAxis.lean ====
section
/-! DEFINITION. The meanings of the commands of axes and the position event table. -/

namespace Sys2Proof.Machine

/-- ENCODER_EDGE (R199). A counted A/B edge on an encoder axis updates position and velocity estimate. -/
def execEncoderEdge (x : Fin 4) (a : Bool) (b : Bool) (s : State) : Host.Outcome State Fault Refusal :=  .next (s.onField (encoderEdgeOp (x.val + 1) a b))

/-- HOME (R195). A rising Z edge with a home pending sets POS and MPOS and clears HOMEP and REFLOST. -/
def execHome (x : Fin 4) (s : State) : Host.Outcome State Fault Refusal :=  .next (s.onField (homeOp (x.val + 1)))

/-- SYNC_CROSSING (R196). A SYNC zero crossing is timestamped and corrects the AX5 phase by velocity adjustment. -/
def execSyncCrossing (rising : Bool) (s : State) : Host.Outcome State Fault Refusal :=  .next (s.onField (syncCrossingOp rising))

/-- AXIS_STALE (R202). An axis loses its source and becomes STALE, extrapolating with its last velocity. -/
def execAxisStale (x : Fin 8) (s : State) : Host.Outcome State Fault Refusal :=  .next (s.onField (fun s => s.axisLost x.val))

/-- AXIS_FROZEN (R203). After E without recovery a STALE axis becomes FROZEN. -/
def execAxisFrozen (x : Fin 8) (s : State) : Host.Outcome State Fault Refusal :=  .next (s.onField (fun s => s.axisFreeze x.val))

/-- ACTION_NONE (R210). An entry with action NONE fires and only reports. -/
def execActionNone (e : Fin 4096) (s : State) : Host.Outcome State Fault Refusal :=  .next (s.onField (actionOp 0 e.val))

/-- ACTION_SET (R210). An entry fires and drives its Placed channel on. -/
def execActionSet (e : Fin 4096) (s : State) : Host.Outcome State Fault Refusal :=  .next (s.onField (actionOp 1 e.val))

/-- ACTION_CLEAR (R210). An entry fires and drives its Placed channel off. -/
def execActionClear (e : Fin 4096) (s : State) : Host.Outcome State Fault Refusal :=  .next (s.onField (actionOp 2 e.val))

/-- ACTION_TOGGLE (R210). An entry fires and inverts its Placed channel. -/
def execActionToggle (e : Fin 4096) (s : State) : Host.Outcome State Fault Refusal :=  .next (s.onField (actionOp 3 e.val))

/-- ACTION_SNAP (R210). An entry fires and samples the selected input groups into VAL. -/
def execActionSnap (e : Fin 4096) (s : State) : Host.Outcome State Fault Refusal :=  .next (s.onField (actionOp 4 e.val))

/-- ACTION_LATCH (R210). An entry fires and copies a fast counter into VAL. -/
def execActionLatch (e : Fin 4096) (s : State) : Host.Outcome State Fault Refusal :=  .next (s.onField (actionOp 5 e.val))

/-- ACTION_TASK (R210). An entry fires to trigger the tasks that name it. -/
def execActionTask (e : Fin 4096) (s : State) : Host.Outcome State Fault Refusal :=  .next (s.onField (actionOp 6 e.val))

/-- ACTION_BUSTX (R210). An entry fires and makes a send request for a transmit buffer. -/
def execActionBustx (e : Fin 4096) (s : State) : Host.Outcome State Fault Refusal :=  .next (s.onField (actionOp 7 e.val))

/-- PT_WR (R223). Stage a write of entry pt.idx, or refuse it with REJC. -/
def execPtWr (m : Master) (v : Word) (s : State) : Host.Outcome State Fault Refusal :=  .next (s.sharedWrite m 0x948 v)

/-- PT_DIS (R223). Stage a disable of entry pt.idx. -/
def execPtDis (m : Master) (v : Word) (s : State) : Host.Outcome State Fault Refusal :=  .next (s.sharedWrite m 0x949 v)

/-- PT_PRESET (R223). Stage an axis preset. -/
def execPtPreset (m : Master) (v : Word) (s : State) : Host.Outcome State Fault Refusal :=  .next (s.sharedWrite m 0x950 v)

/-- PT_HOME (R223). Stage an axis home request. -/
def execPtHome (m : Master) (v : Word) (s : State) : Host.Outcome State Fault Refusal :=  .next (s.sharedWrite m 0x951 v)

/-- PT_RD (R223). Read the host-side record of entry pt.idx. -/
def execPtRd (m : Master) (v : Word) (s : State) : Host.Outcome State Fault Refusal :=  .next (s.sharedWrite m 0x958 v)

/-- SCHED_ENTRY_WRITE (R216). An applied write record arms the entry or fires it late. -/
def execSchedEntryWrite (s : State) : Host.Outcome State Fault Refusal :=  .next (s.onField schedEntryWriteOp)

/-- SCHED_ENTRY_DISABLE (R214). An applied disable record sets DIR to 0b00. -/
def execSchedEntryDisable (s : State) : Host.Outcome State Fault Refusal :=  .next (s.onField schedEntryDisableOp)

/-- SCHED_PRESET (R214). An applied preset record sets POS and MPOS and clears REFLOST. -/
def execSchedPreset (s : State) : Host.Outcome State Fault Refusal :=  .next (s.onField schedPresetOp)

/-- SCHED_HOME (R195). An applied home record holds a pending home request. -/
def execSchedHome (s : State) : Host.Outcome State Fault Refusal :=  .next (s.onField schedHomeOp)

end Sys2Proof.Machine
end

