-- ==== Sys2Proof/Machine/CmdBadger.lean ====
section
/-! DEFINITION. The meanings of the commands of the Badger. -/

namespace Sys2Proof.Machine

/-- BD_ANS (R495). A service of the Badger is judged correct or a failure. -/
def execBdAns (m : Master) (v : Word) (s : State) : Host.Outcome State Fault Refusal :=  .next (s.sharedWrite m 0x801 v)

/-- BD_CHK (R497). A task checks in a Badger bit, setting CHK or DUP. -/
def execBdChk (m : Master) (v : Word) (s : State) : Host.Outcome State Fault Refusal :=  .next (s.sharedWrite m 0x802 v)

/-- BD_START (R489). Start the Badger under software start. -/
def execBdStart (m : Master) (v : Word) (s : State) : Host.Outcome State Fault Refusal :=  .next (s.sharedWrite m 0x81C v)

/-- BD_CONFIG_WRITE (R500). A Badger configuration write is accepted or refused with CFGREJ. -/
def execBdConfigWrite (m : Master) (a : Addr) (v : Word) (s : State) : Host.Outcome State Fault Refusal :=
  .next (if 0x810 ≤ a.toNat ∧ a.toNat ≤ 0x819 then s.sharedWrite m a.toNat v else s)

/-- BADGER_OPEN (R492). The count reaches O, the window opens and source 0x14 arrives. -/
def execBadgerOpen (s : State) : Host.Outcome State Fault Refusal :=  .next (badgerOpenOp s)

/-- BADGER_EXPIRY (R499). The count reaches P with no correct service: a LATE failure. -/
def execBadgerExpiry (s : State) : Host.Outcome State Fault Refusal :=  .next (badgerExpiryOp s)

/-- BADGER_ACTION (R499). After the record the Badger takes its reset or relinquish action. -/
def execBadgerAction (s : State) : Host.Outcome State Fault Refusal :=  .next (badgerActionOp s)

end Sys2Proof.Machine
end

