-- ==== Sys2Proof/Machine/CmdBus.lean ====
section
/-! DEFINITION. The meanings of the commands of the field bus. -/

namespace Sys2Proof.Machine

/-- CAN_FRAME_RECEIVE (R369). A channel stores an error-free received frame in its receive object. -/
def execCanFrameReceive (c : Fin 2) (fr : CanFrame) (s : State) : Host.Outcome State Fault Refusal :=
  if (Instr.canFrameReceive c fr).wf then .next (s.onField (canFrameReceiveOp c.val fr)) else .fault .operandRange

/-- ARBITRATION_START (R378). At a start of arbitration the channel offers one frame from the buffers and the station engine. -/
def execArbitrationStart (c : Fin 2) (s : State) : Host.Outcome State Fault Refusal :=  .next (s.onField (arbitrationStartOp c.val))

/-- ATTEMPT_END (R377). A transmit attempt ends in success, failure or lost arbitration and the buffer state advances. -/
def execAttemptEnd (c : Fin 2) (res : Attempt) (s : State) : Host.Outcome State Fault Refusal :=  .next (s.onField (attemptEndOp c.val res))

/-- BUS_OFF_RECOVERY_END (R380). The bus-off recovery sequence completes and FB_RECOVERED is recorded. -/
def execBusOffRecoveryEnd (c : Fin 2) (s : State) : Host.Outcome State Fault Refusal :=  .next (s.onField (busOffRecoveryEndOp c.val))

/-- STUCK (R383). The bus reads dominant for 1 ms without a valid bit sequence. -/
def execStuck (c : Fin 2) (s : State) : Host.Outcome State Fault Refusal :=  .next (s.onField (stuckOp c.val))

/-- STATION_REQUEST (R388). At each station cycle instant the engine requests the output frame and judges the ended window's STS. -/
def execStationRequest (c : Fin 2) (st : Fin 64) (s : State) : Host.Outcome State Fault Refusal :=
  if (Instr.stationRequest c st).wf then .next (s.onField (stationRequestOp c.val st.val)) else .fault .operandRange

/-- STATUS_RECORD_PERIODIC (R384). A channel status record is sent at least every 100 ms. -/
def execStatusRecordPeriodic (c : Fin 2) (s : State) : Host.Outcome State Fault Refusal :=  .next (s.onField (statusRecordOp c.val))

/-- FB_ACK (R395). Clear ND or LOST of a mirror object. -/
def execFbAck (m : Master) (v : Word) (s : State) : Host.Outcome State Fault Refusal :=  .next (s.sharedWrite m 0x990 v)

/-- FB_TXREQ (R376). Stage a send request for the selected transmit buffer. -/
def execFbTxreq (m : Master) (v : Word) (s : State) : Host.Outcome State Fault Refusal :=  .next (s.sharedWrite m 0x995 v)

/-- FB_SPUT (R388). Stage the output data of the selected station. -/
def execFbSput (m : Master) (v : Word) (s : State) : Host.Outcome State Fault Refusal :=  .next (s.sharedWrite m 0x998 v)

/-- RECOVER (R380). Start bus-off recovery on a channel. -/
def execRecover (c : Fin 2) (s : State) : Host.Outcome State Fault Refusal :=  .next (s.onField (recoverOp c.val))

/-- CLRST (R395). Clear ID_CLASH and CLASHID of a channel. -/
def execClrst (c : Fin 2) (s : State) : Host.Outcome State Fault Refusal :=  .next (s.onField (clrstOp c.val))

/-- CLRCNT (R384). Clear the counters of a channel's status record. -/
def execClrcnt (c : Fin 2) (s : State) : Host.Outcome State Fault Refusal :=  .next (s.onField (clrcntOp c.val))

end Sys2Proof.Machine
end

