-- ==== Sys2Proof/Machine/CmdClock.lean ====
section
/-! DEFINITION. The meanings of the commands of clock and recorder. -/

namespace Sys2Proof.Machine

/-- RT_SNAP (R513). Latch the calendar snapshot for the master. -/
def execRtSnap (m : Master) (v : Word) (s : State) : Host.Outcome State Fault Refusal :=  .next (s.sharedWrite m 0xB00 v)

/-- RT_SET (R511). Set the time, or reject it with DATE_REJ. -/
def execRtSet (m : Master) (v : Word) (s : State) : Host.Outcome State Fault Refusal :=  .next (s.sharedWrite m 0xB0A v)

/-- ALARM_WRITE (R515). An alarm write is taken, or ignored whole with DATE_REJ. -/
def execAlarmWrite (m : Master) (a : Addr) (v : Word) (s : State) : Host.Outcome State Fault Refusal :=
  .next (if 0xB10 ≤ a.toNat ∧ a.toNat ≤ 0xB13 then s.sharedWrite m a.toNat v else s)

/-- SECOND_INCREMENT (R509). The clock advances one second and the alarms compare. -/
def execSecondIncrement (s : State) : Host.Outcome State Fault Refusal :=  .next (secondIncrementOp s)

/-- SWITCH_TO_BACKUP (R507). VRTC switches to backup, setting ONBK and BKEV. -/
def execSwitchToBackup (vmain vcell vbak : Nat) (s : State) : Host.Outcome State Fault Refusal :=  .next (switchToBackupOp vmain vcell vbak s)

/-- RETURN_TO_MAIN (R507). VRTC returns to main, clearing ONBK. -/
def execReturnToMain (vmain vcell vbak : Nat) (s : State) : Host.Outcome State Fault Refusal :=  .next (returnToMainOp vmain vcell vbak s)

/-- CLOCK_DOMAIN_RESET (R508). VRTC below 1.6 V resets the clock to 2000-01-01 with TIME_INVALID. -/
def execClockDomainReset (s : State) : Host.Outcome State Fault Refusal :=  .next (clockDomainResetOp s)

/-- EVENT_OCCURRENCE (R522). An event enters the recorder queue, or is dropped when the queue is full. -/
def execEventOccurrence (e : Event) (s : State) : Host.Outcome State Fault Refusal :=  .next (s.record e)

/-- RECORD_WRITE (R522). The recorder writes the head entry as a new record or a repeat update. -/
def execRecordWrite (s : State) : Host.Outcome State Fault Refusal :=  .next (recordWrite s)

/-- RATE_WINDOW_END (R524). At a rate window end a RATE_SUMMARY is written for suppressed events. -/
def execRateWindowEnd (s : State) : Host.Outcome State Fault Refusal :=  .next (rateWindowEnd s)

/-- ER_RD (R526). Read a record word into er.v. -/
def execErRd (m : Master) (v : Word) (s : State) : Host.Outcome State Fault Refusal :=  .next (s.sharedWrite m 0xB42 v)

/-- ER_FIND (R526). Find the slot of the record from a sequence number. -/
def execErFind (m : Master) (v : Word) (s : State) : Host.Outcome State Fault Refusal :=  .next (s.sharedWrite m 0xB44 v)

/-- ER_LOG (R527). Queue a user record. -/
def execErLog (m : Master) (v : Word) (s : State) : Host.Outcome State Fault Refusal :=  .next (s.sharedWrite m 0xB53 v)

end Sys2Proof.Machine
end

