-- ==== Sys2Proof/Machine/CmdField.lean ====
section
/-! DEFINITION. The meanings of the commands of the barrier link and the field die. -/

namespace Sys2Proof.Machine

/-- FLOST (04 R166, R185; 07 R290): field frames are lost; on the active module it is relinquish cause 0x5. -/
def fieldLostOp (s : State) : State :=
  let t := flostOp s
  if s.flost then t else t.relinquishFor 5

/-- BARRIER_CYCLE_START (R327). At each barrier cycle start the host domain builds and sends one host frame. -/
def execBarrierCycleStart (s : State) : Host.Outcome State Fault Refusal :=  .next (barrierCycleStartOp s)

/-- FIELD_CYCLE_START (R327). At each barrier cycle start the field die samples its inputs and sends one field frame. -/
def execFieldCycleStart (mv : BitVec 16) (lo : BitVec 16) (rb : BitVec 16) (s : State) : Host.Outcome State Fault Refusal :=
  .next (fieldCycleStartOp mv lo rb s)

/-- HOST_FRAME_ACCEPT (R330). The field die accepts or discards a host frame and restarts its safe-state timer. -/
def execHostFrameAccept (noise : List Byte) (s : State) : Host.Outcome State Fault Refusal :=  .next (hostFrameAcceptOp noise s)

/-- FIELD_FRAME_ACCEPT (R330). The host domain accepts or discards a field frame and raises FFRAME. -/
def execFieldFrameAccept (noise : List Byte) (s : State) : Host.Outcome State Fault Refusal :=  .next (fieldFrameAcceptOp noise s)

/-- HEARTBEAT (R332). The field die takes module state, role and AX0 alignment from HEARTBEAT. -/
def execHeartbeat (s : State) : Host.Outcome State Fault Refusal :=  .next (heartbeatOp s)

/-- OUT_IMAGE (R333). The field die applies output values, per-channel commands and any new request. -/
def execOutImage (s : State) : Host.Outcome State Fault Refusal :=  .next (outImageOp s)

/-- CFG_WRITE (R335). The field die collects configuration blocks and, at COMMIT, checks and applies them or reports CFGERR. -/
def execCfgWrite (s : State) : Host.Outcome State Fault Refusal :=  .next (cfgWriteOp s)

/-- SCHED_WRITE (R214). The field die takes the position event table records of a host frame. -/
def execSchedWrite (s : State) : Host.Outcome State Fault Refusal :=  .next (schedWriteOp s)

/-- BUS_TX (R376). The field die takes buffer contents, send requests, station outputs and commands. -/
def execBusTx (s : State) : Host.Outcome State Fault Refusal :=  .next (busTxOp s)

/-- IN_IMAGE (R337). The host domain updates the input mirror, counters and CARRY arrivals from IN_IMAGE. -/
def execInImage (s : State) : Host.Outcome State Fault Refusal :=  .next (inImageOp s)

/-- SUPPLY (R339). The host domain takes the L+ state and raises SUPPLY on a change. -/
def execSupply (s : State) : Host.Outcome State Fault Refusal :=  .next (supplyOp s)

/-- AXIS_STATE (R207). The host domain updates the axis mirrors. -/
def execAxisState (s : State) : Host.Outcome State Fault Refusal :=  .next (axisStateOp s)

/-- DIAG (R340). The host domain records diagnosis entries and checks the loopback pattern. -/
def execDiag (s : State) : Host.Outcome State Fault Refusal :=  .next (diagOp s)

/-- SCHED_FIRED (R221). The host domain accepts fire notes, triggers TASK notes and updates the host-side records. -/
def execSchedFired (s : State) : Host.Outcome State Fault Refusal :=  .next (schedFiredOp s)

/-- BUS_RX_NOTE (R372). The host domain applies object, status and completion records to the field bus mirror. -/
def execBusRxNote (s : State) : Host.Outcome State Fault Refusal :=  .next (busRxNoteOp s)

/-- SAFE_STATE_TIMEOUT (R342). With no accepted host frame for SSTO the field die applies safe values and sets SAFEACT. -/
def execSafeStateTimeout (s : State) : Host.Outcome State Fault Refusal :=  .next (safeStateTimeoutOp s)

/-- FLOST (R185). No accepted field frame within the safe-state timeout sets FLOST and raises FLOSTCH. -/
def execFlost (s : State) : Host.Outcome State Fault Refusal :=  .next (fieldLostOp s)

/-- FIELD_DIE_RESET (R344). L+ below 9 V or power-up resets the field die, which switches off, clears its table and loads its stored configuration. -/
def execFieldDieReset (up : Bool) (s : State) : Host.Outcome State Fault Refusal :=  .next (fieldDieResetOp up s)

/-- SUPPLY_TRANSITION (R355). L+ meets a condition for its time and the supply state or HIGH flag changes. -/
def execSupplyTransition (c : SupplyChange) (s : State) : Host.Outcome State Fault Refusal :=  .next (s.onField (supplyTransitionOp c))

/-- LATCH_OFF (R350). A channel or group in current limit for SCT, or at overtemperature, latches off and reports SHORT. -/
def execLatchOff (d : Fin 16) (overtemp : Bool) (s : State) : Host.Outcome State Fault Refusal :=  .next (s.onField (latchOffOp d.val overtemp))

/-- DIAGNOSTIC_SLOT (R346). In each diagnostic slot the open-wire and open-load evaluations take place. -/
def execDiagnosticSlot (lowCurrent : BitVec 32) (openBand high : BitVec 16) (s : State) : Host.Outcome State Fault Refusal :=
  .next (s.onField (diagnosticSlotOp lowCurrent openBand high))

/-- EXTDRV (R353). An off channel's pin at 10 V or more for 100 µs sets EXTDRV. -/
def execExtdrv (d : Fin 16) (s : State) : Host.Outcome State Fault Refusal :=  .next (s.onField (extdrvOp d.val))

/-- FILTER_CHANGE (R347). A standard input's filtered state takes a new level after the raw level holds for the filter count. -/
def execFilterChange (i : Fin 32) (level : Bool) (s : State) : Host.Outcome State Fault Refusal :=  .next (s.onField (filterChangeOp i.val level))

/-- FAST_COUNTER_EDGE (R349). A selected edge on DIk advances fast counter k and may wrap it. -/
def execFastCounterEdge (k : Fin 12) (rising : Bool) (s : State) : Host.Outcome State Fault Refusal :=  .next (s.onField (fastCounterEdgeOp k.val rising))

/-- FD_RST (R359). Stage output restart bits. -/
def execFdRst (m : Master) (v : Word) (s : State) : Host.Outcome State Fault Refusal :=  .next (s.sharedWrite m 0x908 v)

/-- FD_CRST (R359). Stage fast counter reset bits. -/
def execFdCrst (m : Master) (v : Word) (s : State) : Host.Outcome State Fault Refusal :=  .next (s.sharedWrite m 0x909 v)

/-- FD_DCLR (R359). Stage WIRED_TOGETHER clear bits. -/
def execFdDclr (m : Master) (v : Word) (s : State) : Host.Outcome State Fault Refusal :=  .next (s.sharedWrite m 0x90A v)

/-- FD_DRD (R358). Read the selected channel state into fd.dv. -/
def execFdDrd (m : Master) (v : Word) (s : State) : Host.Outcome State Fault Refusal :=  .next (s.sharedWrite m 0x90D v)

end Sys2Proof.Machine
end

