-- ==== Sys2Proof/Machine/CmdHost.lean ====
section
/-! DEFINITION. The meanings of the commands of the host channel. -/

namespace Sys2Proof.Machine

/-- LINK_LOCAL_FALLBACK (R414). No DHCP answer within 10 s makes the port use link-local addressing. -/
def execLinkLocalFallback (pt : Fin 2) (ip : Word) (s : State) : Host.Outcome State Fault Refusal :=  .next (linkLocalFallbackOp pt.val ip s)

/-- HELLO_H (R416). A host opens a session; the module replies HELLO_M. -/
def execHelloH (path : HostPath) (ver : BitVec 8) (role : Role) (ident : List Byte) (key : List Byte) (nonce : List Byte) (s : State) : Host.Outcome State Fault Refusal :=
  .next (helloOp path ver role ident key nonce s)

/-- FIN_H (R477). The module checks admission and signature, agrees keys and sends FIN_M or an ALERT. -/
def execFinH (i : Fin 4) (sig : List Byte) (s : State) : Host.Outcome State Fault Refusal :=  .next (finHOp i.val sig s)

/-- HANDSHAKE_TIMEOUT (R416). A session not open within 5 s is closed with ALERT. -/
def execHandshakeTimeout (i : Fin 4) (s : State) : Host.Outcome State Fault Refusal :=  .next (handshakeTimeoutOp i.val s)

/-- DATA (R415). A DATA record is authenticated and its request executed, or the session is closed. -/
def execHostData (i : Fin 4) (seq : Word) (intact : Bool) (tag : BitVec 16) (req : HostReq) (s : State) : Host.Outcome State Fault Refusal :=
  .next (hostDataOp i.val seq intact tag req s)

/-- SESSION_TIMEOUT (R417). No DATA from the host for 60 s closes the session with ALERT 0x05. -/
def execSessionTimeout (i : Fin 4) (s : State) : Host.Outcome State Fault Refusal :=  .next (sessionTimeoutOp i.val s)

/-- SESSION_CLOSE (R426). A session closes, aborting an operation in its transfer phase. -/
def execSessionClose (i : Fin 4) (s : State) : Host.Outcome State Fault Refusal :=  .next (s.closeSession i.val)

/-- SESSION_REKEY (R482). Host and pair link sessions are re-established every 24 h. -/
def execSessionRekey (s : State) : Host.Outcome State Fault Refusal :=  .next (sessionRekeyOp s)

/-- STATUS (R421). Return the status words. -/
def execHostStatus (i : Fin 4) (tag : BitVec 16) (s : State) : Host.Outcome State Fault Refusal :=  .next (s.request i.val tag .status)

/-- IDENT (R423). Return the identity record. -/
def execHostIdent (i : Fin 4) (tag : BitVec 16) (s : State) : Host.Outcome State Fault Refusal :=  .next (s.request i.val tag .ident)

/-- REGION (R421). Return a region status record. -/
def execHostRegion (i : Fin 4) (tag : BitVec 16) (n : Word) (s : State) : Host.Outcome State Fault Refusal :=  .next (s.request i.val tag (.region n))

/-- MOVES (R422). Execute a move list in the HOST world and return the read values. -/
def execHostMoves (i : Fin 4) (tag : BitVec 16) (ms : List HostMove) (s : State) : Host.Outcome State Fault Refusal :=
  .next (s.request i.val tag (.moves ms))

/-- COVER (R249). Request a coverage change of a region, or refuse it. -/
def execCover (i : Fin 4) (tag : BitVec 16) (n : Word) (split : Bool) (runOdd : Bool) (s : State) : Host.Outcome State Fault Refusal :=
  .next (s.request i.val tag (.cover n split runOdd))

/-- LASTOP (R421). Return CMD and final status of the latest long operation. -/
def execLastop (i : Fin 4) (tag : BitVec 16) (s : State) : Host.Outcome State Fault Refusal :=  .next (s.request i.val tag .lastop)

/-- PING (R421). Reply with no payload. -/
def execPing (i : Fin 4) (tag : BitVec 16) (s : State) : Host.Outcome State Fault Refusal :=  .next (s.request i.val tag .ping)

/-- LOAD (R170). Start a full program load into the free bank. -/
def execHostLoad (i : Fin 4) (tag : BitVec 16) (forceclr : Bool) (s : State) : Host.Outcome State Fault Refusal :=
  .next (s.request i.val tag (.load forceclr))

/-- LOAD_COMPLETE (R170). The image is checked, the bank switched, the program set up and the final reply sent. -/
def execLoadComplete (s : State) : Host.Outcome State Fault Refusal :=  .next (loadCompleteOp s)

/-- EXCHANGE (R257). Start an online program exchange for a region, or refuse it. -/
def execExchange (i : Fin 4) (tag : BitVec 16) (n : Word) (keeplane : Bool) (forceclr : Bool) (s : State) : Host.Outcome State Fault Refusal :=
  .next (s.request i.val tag (.exchange n keeplane forceclr))

/-- FWSTAGE (R543). Start staging a firmware manifest and delta. -/
def execFwstage (i : Fin 4) (tag : BitVec 16) (s : State) : Host.Outcome State Fault Refusal :=  .next (s.request i.val tag .fwstage)

/-- HOST_COMMAND_RESET (R537). After a zero-length FWSTAGE reply the module resets with source host command. -/
def execHostCommandReset (s : State) : Host.Outcome State Fault Refusal :=  .next (hostCommandResetOp s)

/-- RECCLR (R529). Clear the event record area with a valid token. -/
def execRecclr (i : Fin 4) (tag : BitVec 16) (token : List Byte) (s : State) : Host.Outcome State Fault Refusal :=
  .next (s.request i.val tag (.recclr token))

/-- MEMTEST (R424). Test the free program bank and the staging area. -/
def execMemtest (i : Fin 4) (tag : BitVec 16) (s : State) : Host.Outcome State Fault Refusal :=  .next (s.request i.val tag .memtest)

/-- SETTDUMP (R424). Read the Sett audit trail by READ commands. -/
def execSettdump (i : Fin 4) (tag : BitVec 16) (s : State) : Host.Outcome State Fault Refusal :=  .next (s.request i.val tag .settdump)

/-- OPDATA (R421). Transfer data of a long operation, or return the next audit chunk. -/
def execOpdata (i : Fin 4) (tag : BitVec 16) (bytes : List Byte) (s : State) : Host.Outcome State Fault Refusal :=
  .next (s.request i.val tag (.opdata bytes))

/-- OPEND (R424). End the transfer phase, checking length and SM3. -/
def execOpend (i : Fin 4) (tag : BitVec 16) (len : Nat) (digest : List Byte) (s : State) : Host.Outcome State Fault Refusal :=
  .next (s.request i.val tag (.opend len digest))

/-- OPCANCEL (R426). Cancel the long operation in its transfer phase. -/
def execOpcancel (i : Fin 4) (tag : BitVec 16) (s : State) : Host.Outcome State Fault Refusal :=  .next (s.request i.val tag .opcancel)

/-- LONG_OP_COMPLETE (R426). A long operation without transfer finishes, sets LASTOP and records HOST_OP. -/
def execLongOpComplete (found : Nat) (s : State) : Host.Outcome State Fault Refusal :=  .next (longOpCompleteOp found s)

end Sys2Proof.Machine
end

