-- ==== Sys2Proof/Machine/CmdIrq.lean ====
section
/-! DEFINITION. The meanings of the commands of the interrupt controller. -/

namespace Sys2Proof.Machine

/-- IRQ_ARRIVAL (R304). An event of a source increments its arrival counter or sets ASAT. -/
def execIrqArrival (q : Fin 256) (s : State) : Host.Outcome State Fault Refusal :=  .next (s.arrive q.val)

/-- HANDLER_DELIVERY (R312). A deliverable HANDLER-mode source is entered at an entry point, pushing a frame and loading the vector. -/
def execHandlerDelivery (t : Fin 9) (s : State) : Host.Outcome State Fault Refusal :=  .next (handlerDeliveryOp t.val s)

/-- TASK_DELIVERY (R310). A TASK-mode source with CNT > 0 is delivered to the sequencer and triggers its tasks. -/
def execTaskDelivery (q : Fin 256) (s : State) : Host.Outcome State Fault Refusal :=  .next (taskDeliveryOp q.val s)

/-- IC_CFG (R305). A write of ic.cfg changes the selected source's configuration, subject to ACTIVE and world rules. -/
def execIcCfg (m : Master) (v : Word) (s : State) : Host.Outcome State Fault Refusal :=  .next (s.sharedWrite m 0x401 v)

/-- IC_DONE (R318). Complete an ACTIVE source, or count a completion error. -/
def execIcDone (m : Master) (v : Word) (s : State) : Host.Outcome State Fault Refusal :=  .next (s.sharedWrite m 0x404 v)

/-- IC_RAISE (R324). Raise one arrival of a software source. -/
def execIcRaise (m : Master) (v : Word) (s : State) : Host.Outcome State Fault Refusal :=  .next (s.sharedWrite m 0x405 v)

/-- IC_CLR (R324). Clear CNT and ASAT of a source. -/
def execIcClr (m : Master) (v : Word) (s : State) : Host.Outcome State Fault Refusal :=  .next (s.sharedWrite m 0x406 v)

/-- IC_HOLD (R320). Set or clear the global delivery hold. -/
def execIcHold (m : Master) (v : Word) (s : State) : Host.Outcome State Fault Refusal :=  .next (s.sharedWrite m 0x409 v)

end Sys2Proof.Machine
end

