-- ==== Sys2Proof/Machine/CmdKeys.lean ====
section
/-! DEFINITION. The meanings of the commands of lifecycle and keys. -/

namespace Sys2Proof.Machine

/-- KEYGEN_GENERATE (R478). Generate a key in K4 or a general slot. -/
def execKeygenGenerate (i : Fin 4) (tag : BitVec 16) (slot : Fin 64) (attr0 : Word) (attr1 : Word) (s : State) : Host.Outcome State Fault Refusal :=
  .next (s.request i.val tag (.keygen (.generate slot attr0 attr1)))

/-- CLAIM (R478). Claim the module with claim code, owner root key and policy. -/
def execClaim (i : Fin 4) (tag : BitVec 16) (code : List Byte) (root : List Byte) (policy : List Word) (s : State) : Host.Outcome State Fault Refusal :=
  .next (s.request i.val tag (.keygen (.claim code root policy)))

/-- POLICY (R476). Install a new owner policy. -/
def execPolicy (i : Fin 4) (tag : BitVec 16) (policy : List Word) (s : State) : Host.Outcome State Fault Refusal :=
  .next (s.request i.val tag (.keygen (.policy policy)))

/-- IMPORT (R478). Import a public key into a slot. -/
def execKeyImport (i : Fin 4) (tag : BitVec 16) (slot : Fin 64) (attr0 : Word) (attr1 : Word) (key : List Byte) (s : State) : Host.Outcome State Fault Refusal :=
  .next (s.request i.val tag (.keygen (.keyImport slot attr0 attr1 key)))

/-- KEYGEN_DESTROY (R478). Destroy a slot K4–K63. -/
def execKeygenDestroy (i : Fin 4) (tag : BitVec 16) (slot : Fin 64) (s : State) : Host.Outcome State Fault Refusal :=
  .next (s.request i.val tag (.keygen (.destroy slot)))

/-- RELEASE (R478). Return the module from OWNED to PROVISIONED. -/
def execRelease (i : Fin 4) (tag : BitVec 16) (conf : List Byte) (s : State) : Host.Outcome State Fault Refusal :=
  .next (s.request i.val tag (.keygen (.release conf)))

/-- DECOMMISSION (R478). Move the module from OWNED to DECOMMISSIONED. -/
def execDecommission (i : Fin 4) (tag : BitVec 16) (conf : List Byte) (s : State) : Host.Outcome State Fault Refusal :=
  .next (s.request i.val tag (.keygen (.decommission conf)))

/-- RETURN (R478). Move the module to RETURN under a vendor authorization. -/
def execLcReturn (i : Fin 4) (tag : BitVec 16) (auth : List Word) (s : State) : Host.Outcome State Fault Refusal :=
  .next (s.request i.val tag (.keygen (.lcReturn auth)))

/-- RESTORE (R478). Move the module from RETURN to PROVISIONED. -/
def execRestore (i : Fin 4) (tag : BitVec 16) (auth : List Word) (s : State) : Host.Outcome State Fault Refusal :=
  .next (s.request i.val tag (.keygen (.restore auth)))

/-- LC_TRANSITION (R459). A lifecycle transition destroys slots, writes state and TCNT, wipes memory where required and records LC_TRANSITION. -/
def execLcTransition (readBack : Bool) (s : State) : Host.Outcome State Fault Refusal :=  .next (lcTransitionOp readBack s)

/-- INFO (R466). Return the attributes of a slot. -/
def execInfo (m : Master) (s : State) : Host.Outcome State Fault Refusal :=  .next (ksStartOp m 0x01 s)

/-- SIGN (R466). Sign a digest with an SM2 key. -/
def execSign (m : Master) (s : State) : Host.Outcome State Fault Refusal :=  .next (ksStartOp m 0x02 s)

/-- VERIFY (R466). Verify an SM2 signature. -/
def execVerify (m : Master) (s : State) : Host.Outcome State Fault Refusal :=  .next (ksStartOp m 0x03 s)

/-- READPUB (R466). Return the public half of an SM2 key. -/
def execReadpub (m : Master) (s : State) : Host.Outcome State Fault Refusal :=  .next (ksStartOp m 0x04 s)

/-- GENERATE (R463). Create a new key in a general slot. -/
def execGenerate (m : Master) (s : State) : Host.Outcome State Fault Refusal :=  .next (ksStartOp m 0x05 s)

/-- DERIVE (R467). Derive a child key by KDF. -/
def execDerive (m : Master) (s : State) : Host.Outcome State Fault Refusal :=  .next (ksStartOp m 0x06 s)

/-- AGREE (R467). Agree a child key with a peer public key. -/
def execAgree (m : Master) (s : State) : Host.Outcome State Fault Refusal :=  .next (ksStartOp m 0x07 s)

/-- ENCRYPT (R466). SM4-GCM encrypt. -/
def execEncrypt (m : Master) (s : State) : Host.Outcome State Fault Refusal :=  .next (ksStartOp m 0x08 s)

/-- DECRYPT (R466). SM4-GCM decrypt and check the tag. -/
def execDecrypt (m : Master) (s : State) : Host.Outcome State Fault Refusal :=  .next (ksStartOp m 0x09 s)

/-- MAC (R466). Compute an SM3-HMAC. -/
def execKsMac (m : Master) (s : State) : Host.Outcome State Fault Refusal :=  .next (ksStartOp m 0x0A s)

/-- DESTROY (R470). Destroy a slot and its descendants. -/
def execDestroy (m : Master) (s : State) : Host.Outcome State Fault Refusal :=  .next (ksStartOp m 0x0B s)

/-- ATTEST (R475). Return a signed attestation report. -/
def execAttest (m : Master) (s : State) : Host.Outcome State Fault Refusal :=  .next (ksStartOp m 0x0C s)

/-- HASH (R466). Compute an SM3 digest. -/
def execHash (m : Master) (s : State) : Host.Outcome State Fault Refusal :=  .next (ksStartOp m 0x0D s)

/-- KS_OP_COMPLETE (R468). A key store operation finishes, writes its output and status, and the next waiting one starts. -/
def execKsOpComplete (readBack : Bool) (s : State) : Host.Outcome State Fault Refusal :=  .next (ksOpCompleteOp readBack s)

/-- KS_BW (R487). Write an input buffer word and advance the index. -/
def execKsBw (m : Master) (v : Word) (s : State) : Host.Outcome State Fault Refusal :=  .next (s.sharedWrite m 0xAC5 v)

/-- KS_BR (R487). Read an output buffer word into ks.bv and advance the index. -/
def execKsBr (m : Master) (v : Word) (s : State) : Host.Outcome State Fault Refusal :=  .next (s.sharedWrite m 0xAC6 v)

end Sys2Proof.Machine
end

