-- ==== Sys2Proof/Machine/CmdLane.lean ====
section
/-! DEFINITION. The meanings of the commands of the lanes: issue, delivery, the control unit, and every trigger of the lane-local units. -/

namespace Sys2Proof.Machine

/-- A move into a register with no command of its own (01 R11, R22): a logical processor's move takes its place in its lane;
every other master's takes effect at once, under the port's Access codes. -/
def registerWriteOp (m : Master) (a : Nat) (v : Word) (s : State) : State :=
  match m with
  | .lp n =>
    if s.lpExists n.val = false then s
    else
      let l : Fin 8 := ⟨s.laneOf n.val % 8, by omega⟩
      if controlMove a then controlOp a l v s else laneTrigger a l v s
  | m => s.moveWrite m a v

/-- BUNDLE_ISSUE (R25). A lane issues one bundle: it evaluates the guards, reads the sources and writes the destinations in slot order. -/
def execBundleIssue (l : Fin 8) (s : State) : Host.Outcome State Fault Refusal :=  .next (bundleIssueOp l s)

/-- LOAD_DELIVERY (R81). A loaded value arrives after the load latency and its destination write takes effect in issue order. -/
def execLoadDelivery (l : Fin 8) (k : Nat) (s : State) : Host.Outcome State Fault Refusal :=  .next (loadDeliveryOp l k s)

/-- TRIGGER_WRITE_WAIT (R21). A trigger write whose value came by a load waits until its unit accepts the operation. -/
def execTriggerWriteWait (l : Fin 8) (s : State) : Host.Outcome State Fault Refusal :=  .next (triggerWriteWaitOp l s)

/-- STORE_PERFORMED (R84). A posted store or shared-port write is performed, releases its in-flight entry and becomes visible. -/
def execStorePerformed (l : Fin 8) (s : State) : Host.Outcome State Fault Refusal :=  .next (storePerformedOp l s)

/-- RESULT_APPEARS (R20). An operation's result and flags appear at the unit's result ports after its latency. -/
def execResultAppears (l : Fin 8) (g : ResGroup) (s : State) : Host.Outcome State Fault Refusal :=  .next (resultAppearsOp l g s)

/-- REGISTER_WRITE (R11). A write to a register with no row of its own sets it under its Access codes, including W1C clears. -/
def execRegisterWrite (m : Master) (a : Addr) (v : Word) (s : State) : Host.Outcome State Fault Refusal :=  .next (registerWriteOp m a.toNat v s)

/-- CU_JMP (R90). Jump to the bundle address given by the operand with a 2-cycle penalty. -/
def execCuJmp (l : Fin 8) (v : Word) (s : State) : Host.Outcome State Fault Refusal :=  .next (controlOp 0 l v s)

/-- CU_JREL (R90). Jump relative to the bundle address by the signed operand. -/
def execCuJrel (l : Fin 8) (v : Word) (s : State) : Host.Outcome State Fault Refusal :=  .next (controlOp 1 l v s)

/-- CU_CALL (R92). Check the stack, push a frame of flags and return address, and transfer to the target. -/
def execCuCall (l : Fin 8) (v : Word) (s : State) : Host.Outcome State Fault Refusal :=  .next (controlOp 2 l v s)

/-- CU_RET (R94). Check the stack, pop the frame, optionally restore flags and ACC, set BSD and return with a 4-cycle penalty. -/
def execCuRet (l : Fin 8) (v : Word) (s : State) : Host.Outcome State Fault Refusal :=  .next (controlOp 3 l v s)

/-- CU_RETI (R316). Return from an interrupt handler, popping the frame and the top level of the level record. -/
def execCuReti (l : Fin 8) (v : Word) (s : State) : Host.Outcome State Fault Refusal :=  .next (controlOp 4 l v s)

/-- CU_END (R158). End the task, the start-up routine or an idle-entered handler, closing its window. -/
def execCuEnd (l : Fin 8) (v : Word) (s : State) : Host.Outcome State Fault Refusal :=  .next (controlOp 5 l v s)

/-- BL_LD (R108). Bit logic: ACC := operand bit. -/
def execBlLd (l : Fin 8) (v : Word) (s : State) : Host.Outcome State Fault Refusal :=  .next (laneTrigger 0x040 l v s)

/-- BL_LDN (R108). Bit logic: ACC := not operand bit. -/
def execBlLdn (l : Fin 8) (v : Word) (s : State) : Host.Outcome State Fault Refusal :=  .next (laneTrigger 0x044 l v s)

/-- BL_AND (R108). Bit logic: ACC := ACC and operand bit. -/
def execBlAnd (l : Fin 8) (v : Word) (s : State) : Host.Outcome State Fault Refusal :=  .next (laneTrigger 0x048 l v s)

/-- BL_ANDN (R108). Bit logic: ACC := ACC and not operand bit. -/
def execBlAndn (l : Fin 8) (v : Word) (s : State) : Host.Outcome State Fault Refusal :=  .next (laneTrigger 0x04C l v s)

/-- BL_OR (R108). Bit logic: ACC := ACC or operand bit. -/
def execBlOr (l : Fin 8) (v : Word) (s : State) : Host.Outcome State Fault Refusal :=  .next (laneTrigger 0x050 l v s)

/-- BL_ORN (R108). Bit logic: ACC := ACC or not operand bit. -/
def execBlOrn (l : Fin 8) (v : Word) (s : State) : Host.Outcome State Fault Refusal :=  .next (laneTrigger 0x054 l v s)

/-- BL_PUSH (R110). Push ACC onto the branch stack, then load the operand bit. -/
def execBlPush (l : Fin 8) (v : Word) (s : State) : Host.Outcome State Fault Refusal :=  .next (laneTrigger 0x058 l v s)

/-- BL_PUSHN (R110). Push ACC onto the branch stack, then load the inverted operand bit. -/
def execBlPushn (l : Fin 8) (v : Word) (s : State) : Host.Outcome State Fault Refusal :=  .next (laneTrigger 0x05C l v s)

/-- BL_ANB (R110). Pop an entry and AND it into ACC. -/
def execBlAnb (l : Fin 8) (v : Word) (s : State) : Host.Outcome State Fault Refusal :=  .next (laneTrigger 0x060 l v s)

/-- BL_ORB (R110). Pop an entry and OR it into ACC. -/
def execBlOrb (l : Fin 8) (v : Word) (s : State) : Host.Outcome State Fault Refusal :=  .next (laneTrigger 0x064 l v s)

/-- BL_ST (R109). Store ACC to the image bit named by the operand as a unit store. -/
def execBlSt (l : Fin 8) (v : Word) (s : State) : Host.Outcome State Fault Refusal :=  .next (laneTrigger 0x068 l v s)

/-- BL_STN (R109). Store not ACC to the image bit named by the operand. -/
def execBlStn (l : Fin 8) (v : Word) (s : State) : Host.Outcome State Fault Refusal :=  .next (laneTrigger 0x06C l v s)

/-- BL_SET (R108). If ACC = 1, store 1 to the image bit named by the operand. -/
def execBlSet (l : Fin 8) (v : Word) (s : State) : Host.Outcome State Fault Refusal :=  .next (laneTrigger 0x070 l v s)

/-- BL_RST (R108). If ACC = 1, store 0 to the image bit named by the operand. -/
def execBlRst (l : Fin 8) (v : Word) (s : State) : Host.Outcome State Fault Refusal :=  .next (laneTrigger 0x074 l v s)

/-- BL_XOR (R108). Bit logic: ACC := ACC xor operand bit. -/
def execBlXor (l : Fin 8) (v : Word) (s : State) : Host.Outcome State Fault Refusal :=  .next (laneTrigger 0x078 l v s)

/-- IA_ADD (R114). Integer A + B with flags. -/
def execIaAdd (l : Fin 8) (v : Word) (s : State) : Host.Outcome State Fault Refusal :=  .next (laneTrigger 0x084 l v s)

/-- IA_ADDC (R114). Integer A + B + C, with C taken at issue. -/
def execIaAddc (l : Fin 8) (v : Word) (s : State) : Host.Outcome State Fault Refusal :=  .next (laneTrigger 0x085 l v s)

/-- IA_SUB (R114). Integer A − B with flags. -/
def execIaSub (l : Fin 8) (v : Word) (s : State) : Host.Outcome State Fault Refusal :=  .next (laneTrigger 0x086 l v s)

/-- IA_SUBB (R114). Integer A − B − C, with C taken at issue. -/
def execIaSubb (l : Fin 8) (v : Word) (s : State) : Host.Outcome State Fault Refusal :=  .next (laneTrigger 0x087 l v s)

/-- IA_ADDS (R124). Signed saturating A + B. -/
def execIaAdds (l : Fin 8) (v : Word) (s : State) : Host.Outcome State Fault Refusal :=  .next (laneTrigger 0x088 l v s)

/-- IA_SUBS (R124). Signed saturating A − B. -/
def execIaSubs (l : Fin 8) (v : Word) (s : State) : Host.Outcome State Fault Refusal :=  .next (laneTrigger 0x089 l v s)

/-- IA_NEG (R114). 0 − B. -/
def execIaNeg (l : Fin 8) (v : Word) (s : State) : Host.Outcome State Fault Refusal :=  .next (laneTrigger 0x08A l v s)

/-- IA_NEGS (R124). Signed saturating 0 − B. -/
def execIaNegs (l : Fin 8) (v : Word) (s : State) : Host.Outcome State Fault Refusal :=  .next (laneTrigger 0x08B l v s)

/-- IA_ABS (R124). Absolute value of B. -/
def execIaAbs (l : Fin 8) (v : Word) (s : State) : Host.Outcome State Fault Refusal :=  .next (laneTrigger 0x08C l v s)

/-- IA_ABSS (R124). Signed saturating absolute value of B. -/
def execIaAbss (l : Fin 8) (v : Word) (s : State) : Host.Outcome State Fault Refusal :=  .next (laneTrigger 0x08D l v s)

/-- IA_AND (R112). A and B. -/
def execIaAnd (l : Fin 8) (v : Word) (s : State) : Host.Outcome State Fault Refusal :=  .next (laneTrigger 0x08E l v s)

/-- IA_OR (R112). A or B. -/
def execIaOr (l : Fin 8) (v : Word) (s : State) : Host.Outcome State Fault Refusal :=  .next (laneTrigger 0x08F l v s)

/-- IA_XOR (R112). A xor B. -/
def execIaXor (l : Fin 8) (v : Word) (s : State) : Host.Outcome State Fault Refusal :=  .next (laneTrigger 0x090 l v s)

/-- IA_ANDN (R112). A and not B. -/
def execIaAndn (l : Fin 8) (v : Word) (s : State) : Host.Outcome State Fault Refusal :=  .next (laneTrigger 0x091 l v s)

/-- IA_NOT (R112). not B. -/
def execIaNot (l : Fin 8) (v : Word) (s : State) : Host.Outcome State Fault Refusal :=  .next (laneTrigger 0x092 l v s)

/-- IA_MOV (R112). B unchanged, setting flags from B. -/
def execIaMov (l : Fin 8) (v : Word) (s : State) : Host.Outcome State Fault Refusal :=  .next (laneTrigger 0x093 l v s)

/-- IA_SHL (R113). A shifted left by the trigger operand. -/
def execIaShl (l : Fin 8) (v : Word) (s : State) : Host.Outcome State Fault Refusal :=  .next (laneTrigger 0x094 l v s)

/-- IA_SHR (R113). A shifted right logically by the trigger operand. -/
def execIaShr (l : Fin 8) (v : Word) (s : State) : Host.Outcome State Fault Refusal :=  .next (laneTrigger 0x095 l v s)

/-- IA_SAR (R113). A shifted right arithmetically by the trigger operand. -/
def execIaSar (l : Fin 8) (v : Word) (s : State) : Host.Outcome State Fault Refusal :=  .next (laneTrigger 0x096 l v s)

/-- IA_ROTL (R113). A rotated left by the operand mod 32. -/
def execIaRotl (l : Fin 8) (v : Word) (s : State) : Host.Outcome State Fault Refusal :=  .next (laneTrigger 0x097 l v s)

/-- IA_ROTR (R113). A rotated right by the operand mod 32. -/
def execIaRotr (l : Fin 8) (v : Word) (s : State) : Host.Outcome State Fault Refusal :=  .next (laneTrigger 0x098 l v s)

/-- IA_ADD64 (R114). 64-bit A + B. -/
def execIaAdd64 (l : Fin 8) (v : Word) (s : State) : Host.Outcome State Fault Refusal :=  .next (laneTrigger 0x099 l v s)

/-- IA_SUB64 (R114). 64-bit A − B. -/
def execIaSub64 (l : Fin 8) (v : Word) (s : State) : Host.Outcome State Fault Refusal :=  .next (laneTrigger 0x09A l v s)

/-- IA_NEG64 (R114). 64-bit 0 − B. -/
def execIaNeg64 (l : Fin 8) (v : Word) (s : State) : Host.Outcome State Fault Refusal :=  .next (laneTrigger 0x09B l v s)

/-- IA_SHL64 (R113). 64-bit A shifted left. -/
def execIaShl64 (l : Fin 8) (v : Word) (s : State) : Host.Outcome State Fault Refusal :=  .next (laneTrigger 0x09C l v s)

/-- IA_SHR64 (R113). 64-bit A shifted right logically. -/
def execIaShr64 (l : Fin 8) (v : Word) (s : State) : Host.Outcome State Fault Refusal :=  .next (laneTrigger 0x09D l v s)

/-- IA_SAR64 (R113). 64-bit A shifted right arithmetically. -/
def execIaSar64 (l : Fin 8) (v : Word) (s : State) : Host.Outcome State Fault Refusal :=  .next (laneTrigger 0x09E l v s)

/-- IA_ZEXT (R112). ia.r := B and ia.rh := 0. -/
def execIaZext (l : Fin 8) (v : Word) (s : State) : Host.Outcome State Fault Refusal :=  .next (laneTrigger 0x09F l v s)

/-- IM_MUL (R117). Signed 32 × 32 multiply with 64-bit product. -/
def execImMul (l : Fin 8) (v : Word) (s : State) : Host.Outcome State Fault Refusal :=  .next (laneTrigger 0x0C4 l v s)

/-- IM_MULU (R117). Unsigned 32 × 32 multiply with 64-bit product. -/
def execImMulu (l : Fin 8) (v : Word) (s : State) : Host.Outcome State Fault Refusal :=  .next (laneTrigger 0x0C5 l v s)

/-- IM_MULS (R124). Signed multiply saturated to 32 bits. -/
def execImMuls (l : Fin 8) (v : Word) (s : State) : Host.Outcome State Fault Refusal :=  .next (laneTrigger 0x0C6 l v s)

/-- IM_DIV (R124). Signed divide over 18 cycles with quotient and remainder. -/
def execImDiv (l : Fin 8) (v : Word) (s : State) : Host.Outcome State Fault Refusal :=  .next (laneTrigger 0x0C8 l v s)

/-- IM_DIVU (R124). Unsigned divide over 18 cycles. -/
def execImDivu (l : Fin 8) (v : Word) (s : State) : Host.Outcome State Fault Refusal :=  .next (laneTrigger 0x0C9 l v s)

/-- CP_CMP (R119). Compare 32-bit integers, setting flags and one-bit results. -/
def execCpCmp (l : Fin 8) (v : Word) (s : State) : Host.Outcome State Fault Refusal :=  .next (laneTrigger 0x144 l v s)

/-- CP_CMP64 (R119). Compare 64-bit integers. -/
def execCpCmp64 (l : Fin 8) (v : Word) (s : State) : Host.Outcome State Fault Refusal :=  .next (laneTrigger 0x145 l v s)

/-- CP_CMPF (R119). Compare binary32 values. -/
def execCpCmpf (l : Fin 8) (v : Word) (s : State) : Host.Outcome State Fault Refusal :=  .next (laneTrigger 0x146 l v s)

/-- CP_CMPD (R119). Compare binary64 values. -/
def execCpCmpd (l : Fin 8) (v : Word) (s : State) : Host.Outcome State Fault Refusal :=  .next (laneTrigger 0x147 l v s)

/-- CP_TST (R119). Test A and B, setting Z, N and cp.eq. -/
def execCpTst (l : Fin 8) (v : Word) (s : State) : Host.Outcome State Fault Refusal :=  .next (laneTrigger 0x148 l v s)

/-- FP_FADD (R121). binary32 A + B. -/
def execFpFadd (l : Fin 8) (v : Word) (s : State) : Host.Outcome State Fault Refusal :=  .next (laneTrigger 0x104 l v s)

/-- FP_FSUB (R121). binary32 A − B. -/
def execFpFsub (l : Fin 8) (v : Word) (s : State) : Host.Outcome State Fault Refusal :=  .next (laneTrigger 0x105 l v s)

/-- FP_FMUL (R121). binary32 A × B. -/
def execFpFmul (l : Fin 8) (v : Word) (s : State) : Host.Outcome State Fault Refusal :=  .next (laneTrigger 0x106 l v s)

/-- FP_FDIV (R123). binary32 A ÷ B over 14 cycles. -/
def execFpFdiv (l : Fin 8) (v : Word) (s : State) : Host.Outcome State Fault Refusal :=  .next (laneTrigger 0x107 l v s)

/-- FP_DADD (R121). binary64 A + B. -/
def execFpDadd (l : Fin 8) (v : Word) (s : State) : Host.Outcome State Fault Refusal :=  .next (laneTrigger 0x108 l v s)

/-- FP_DSUB (R121). binary64 A − B. -/
def execFpDsub (l : Fin 8) (v : Word) (s : State) : Host.Outcome State Fault Refusal :=  .next (laneTrigger 0x109 l v s)

/-- FP_DMUL (R121). binary64 A × B. -/
def execFpDmul (l : Fin 8) (v : Word) (s : State) : Host.Outcome State Fault Refusal :=  .next (laneTrigger 0x10A l v s)

/-- FP_DDIV (R123). binary64 A ÷ B over 14 cycles. -/
def execFpDdiv (l : Fin 8) (v : Word) (s : State) : Host.Outcome State Fault Refusal :=  .next (laneTrigger 0x10B l v s)

/-- FP_ITOF (R120). Signed 32-bit B to binary32. -/
def execFpItof (l : Fin 8) (v : Word) (s : State) : Host.Outcome State Fault Refusal :=  .next (laneTrigger 0x10C l v s)

/-- FP_FTOI (R123). binary32 B to signed 32-bit, round to nearest even. -/
def execFpFtoi (l : Fin 8) (v : Word) (s : State) : Host.Outcome State Fault Refusal :=  .next (laneTrigger 0x10D l v s)

/-- FP_FTRUNC (R123). binary32 B to signed 32-bit toward zero. -/
def execFpFtrunc (l : Fin 8) (v : Word) (s : State) : Host.Outcome State Fault Refusal :=  .next (laneTrigger 0x10E l v s)

/-- FP_ITOD (R120). Signed 32-bit B to binary64. -/
def execFpItod (l : Fin 8) (v : Word) (s : State) : Host.Outcome State Fault Refusal :=  .next (laneTrigger 0x10F l v s)

/-- FP_DTOI (R123). binary64 B to signed 32-bit, round to nearest even. -/
def execFpDtoi (l : Fin 8) (v : Word) (s : State) : Host.Outcome State Fault Refusal :=  .next (laneTrigger 0x110 l v s)

/-- FP_DTRUNC (R123). binary64 B to signed 32-bit toward zero. -/
def execFpDtrunc (l : Fin 8) (v : Word) (s : State) : Host.Outcome State Fault Refusal :=  .next (laneTrigger 0x111 l v s)

/-- FP_FTOD (R120). binary32 B to binary64. -/
def execFpFtod (l : Fin 8) (v : Word) (s : State) : Host.Outcome State Fault Refusal :=  .next (laneTrigger 0x112 l v s)

/-- FP_DTOF (R120). binary64 B to binary32. -/
def execFpDtof (l : Fin 8) (v : Word) (s : State) : Host.Outcome State Fault Refusal :=  .next (laneTrigger 0x113 l v s)

/-- MAC_RUN (R127). Run n products from the X and Y operand memories into the 72-bit accumulator. -/
def execMacRun (l : Fin 8) (v : Word) (s : State) : Host.Outcome State Fault Refusal :=  .next (laneTrigger 0x18C l v s)

/-- MAC_XW (R127). Write X[mac.xa] and advance mac.xa under the window rule. -/
def execMacXw (l : Fin 8) (v : Word) (s : State) : Host.Outcome State Fault Refusal :=  .next (laneTrigger 0x18D l v s)

/-- MAC_YW (R125). Write Y[mac.ya] and advance mac.ya. -/
def execMacYw (l : Fin 8) (v : Word) (s : State) : Host.Outcome State Fault Refusal :=  .next (laneTrigger 0x18E l v s)

/-- MAC_XR (R125). Read X[operand] into mac.v. -/
def execMacXr (l : Fin 8) (v : Word) (s : State) : Host.Outcome State Fault Refusal :=  .next (laneTrigger 0x18F l v s)

/-- MAC_YR (R125). Read Y[operand] into mac.v. -/
def execMacYr (l : Fin 8) (v : Word) (s : State) : Host.Outcome State Fault Refusal :=  .next (laneTrigger 0x190 l v s)

/-- MAC_LDACC (R128). Load the accumulator from mac.ie, mac.ih and the operand. -/
def execMacLdacc (l : Fin 8) (v : Word) (s : State) : Host.Outcome State Fault Refusal :=  .next (laneTrigger 0x191 l v s)

/-- LS_LD (R130). Indexed word load at base + idx + offset, then idx advances. -/
def execLsLd (l : Fin 8) (v : Word) (s : State) : Host.Outcome State Fault Refusal :=  .next (laneTrigger 0x1C4 l v s)

/-- LS_ST (R130). Indexed word store at base + idx, then idx advances. -/
def execLsSt (l : Fin 8) (v : Word) (s : State) : Host.Outcome State Fault Refusal :=  .next (laneTrigger 0x1C5 l v s)

/-- LS_LDB (R131). Indexed image bit load. -/
def execLsLdb (l : Fin 8) (v : Word) (s : State) : Host.Outcome State Fault Refusal :=  .next (laneTrigger 0x1C6 l v s)

/-- LS_STB (R131). Indexed image bit store. -/
def execLsStb (l : Fin 8) (v : Word) (s : State) : Host.Outcome State Fault Refusal :=  .next (laneTrigger 0x1C7 l v s)

/-- IU_TON (R136). Evaluate a TON record. -/
def execIuTon (l : Fin 8) (v : Word) (s : State) : Host.Outcome State Fault Refusal :=  .next (laneTrigger 0x204 l v s)

/-- IU_TOF (R136). Evaluate a TOF record. -/
def execIuTof (l : Fin 8) (v : Word) (s : State) : Host.Outcome State Fault Refusal :=  .next (laneTrigger 0x205 l v s)

/-- IU_TP (R136). Evaluate a TP record. -/
def execIuTp (l : Fin 8) (v : Word) (s : State) : Host.Outcome State Fault Refusal :=  .next (laneTrigger 0x206 l v s)

/-- IU_CTU (R137). Evaluate a CTU record. -/
def execIuCtu (l : Fin 8) (v : Word) (s : State) : Host.Outcome State Fault Refusal :=  .next (laneTrigger 0x207 l v s)

/-- IU_CTD (R137). Evaluate a CTD record. -/
def execIuCtd (l : Fin 8) (v : Word) (s : State) : Host.Outcome State Fault Refusal :=  .next (laneTrigger 0x208 l v s)

/-- IU_CTUD (R137). Evaluate a CTUD record. -/
def execIuCtud (l : Fin 8) (v : Word) (s : State) : Host.Outcome State Fault Refusal :=  .next (laneTrigger 0x209 l v s)

/-- IU_RTRIG (R138). Evaluate an R_TRIG record. -/
def execIuRtrig (l : Fin 8) (v : Word) (s : State) : Host.Outcome State Fault Refusal :=  .next (laneTrigger 0x20A l v s)

/-- IU_FTRIG (R138). Evaluate an F_TRIG record. -/
def execIuFtrig (l : Fin 8) (v : Word) (s : State) : Host.Outcome State Fault Refusal :=  .next (laneTrigger 0x20B l v s)

/-- IU_CLR (R139). Clear a record of any valid type. -/
def execIuClr (l : Fin 8) (v : Word) (s : State) : Host.Outcome State Fault Refusal :=  .next (laneTrigger 0x20C l v s)

/-- IU_WRITEBACK (R140). The changed words of an instance record are written back and the results appear 5 cycles after the trigger. -/
def execIuWriteback (l : Fin 8) (s : State) : Host.Outcome State Fault Refusal :=  .next (iuWritebackOp l s)

end Sys2Proof.Machine
end

