-- ==== Sys2Proof/Machine/CmdPair.lean ====
section
/-! DEFINITION. The meanings of the commands of the pair link and its rules, and the rows after them. -/

namespace Sys2Proof.Machine

/-- TOKEN_LINE_SENSED (R271). A level on the control-token line stable for 2 µs is sensed. -/
def execTokenLineSensed (asserted : Bool) (s : State) : Host.Outcome State Fault Refusal :=  .next (tokenLineSensedOp asserted s)

/-- TOKEN_ACQUIRE (R272). After the line stays released for its wait period the module asserts it and RUN takes effect. -/
def execTokenAcquire (s : State) : Host.Outcome State Fault Refusal :=  .next (tokenAcquireOp s)

/-- TOKEN_STUCK (R274). 10 µs after RELINQUISH with the line still asserted the standby takes over. -/
def execTokenStuck (s : State) : Host.Outcome State Fault Refusal :=  .next (tokenStuckOp s)

/-- RELINQUISH_CAUSE (R291). The active detects a relinquish cause, sends RELINQUISH and releases the line. -/
def execRelinquishCause (rc : BitVec 4) (s : State) : Host.Outcome State Fault Refusal :=  .next (relinquishCauseOp rc s)

/-- PARTNER_DRIVE_TIMEOUT (R291). 1 ms after release without the new token shared channels take safe values. -/
def execPartnerDriveTimeout (s : State) : Host.Outcome State Fault Refusal :=  .next (partnerDriveTimeoutOp s)

/-- RELINQUISH (R293). The standby receives RELINQUISH and takes over. -/
def execRelinquish (rc : BitVec 8) (_lseq : List Word) (hd : LinkHead) (s : State) : Host.Outcome State Fault Refusal :=  .next (s.linkFrame hd false (relinquishOp rc))

/-- PAIR_LINK_HEARTBEAT (R278). A pair link HEARTBEAT is sent every 100 µs and received. -/
def execPairLinkHeartbeat (hb : PairHeartbeat) (hd : LinkHead) (s : State) : Host.Outcome State Fault Refusal :=  .next (pairLinkHeartbeatOp hb hd s)

/-- FWD (R280). The standby latches a task from forwarded inputs. -/
def execFwd (w : Fwd) (hd : LinkHead) (s : State) : Host.Outcome State Fault Refusal :=  .next (s.linkFrame hd true (fwdOp w))

/-- IARR (R280). The standby enters an interrupt at the forwarded bundle position. -/
def execIarr (p : Fin 8) (lseq : Word) (bcnt : Option Word) (q : Fin 256) (hd : LinkHead) (s : State) : Host.Outcome State Fault Refusal :=
  .next (s.linkFrame hd true (iarrOp p lseq bcnt q))

/-- OSIG (R282). The standby compares its output signature and on a difference enters UNSYNC. -/
def execOsig (p : Fin 8) (lseq : Word) (sig : BitVec 64) (hd : LinkHead) (s : State) : Host.Outcome State Fault Refusal :=  .next (s.linkFrame hd false (osigOp p.val lseq sig))

/-- CMDFWD (R280). The standby applies a forwarded command at its LSEQ. -/
def execCmdfwd (cmd : PairCmd) (lseq : List Word) (hd : LinkHead) (s : State) : Host.Outcome State Fault Refusal :=  .next (s.linkFrame hd true (cmdfwdOp cmd lseq))

/-- STATE (R285). The standby takes a block of joined state. -/
def execPairState (blk : StateBlock) (hd : LinkHead) (s : State) : Host.Outcome State Fault Refusal :=  .next (s.linkFrame hd true (pairStateOp blk))

/-- HEALTH (R287). A HEALTH report is sent every 10 ms and taken by the active. -/
def execHealth (h : List Word) (hd : LinkHead) (s : State) : Host.Outcome State Fault Refusal :=  .next (healthOp h hd s)

/-- HEALTH_UPDATE (R288). The health word is recomputed every 10 ms. -/
def execHealthUpdate (s : State) : Host.Outcome State Fault Refusal :=  .next (healthUpdateOp s)

/-- JOINREQ (R297). The active accepts or refuses a join request. -/
def execJoinreq (sm3 : List Byte) (_fw : Word) (proto : BitVec 16) (ready : Bool) (hd : LinkHead) (s : State) : Host.Outcome State Fault Refusal :=
  .next (s.linkFrame hd false (joinreqOp sm3 proto ready))

/-- JOINACK (R285). The join starts dirty tracking and the bulk copy. -/
def execJoinack (refused : BitVec 8) (hd : LinkHead) (s : State) : Host.Outcome State Fault Refusal :=  .next (s.linkFrame hd false (joinackOp refused))

/-- CATCHUP_ROUND (R285). A catch-up round sends the dirtied blocks or starts the final hold. -/
def execCatchupRound (dirtyBytes : Nat) (s : State) : Host.Outcome State Fault Refusal :=  .next (catchupRoundOp dirtyBytes s)

/-- JOIN_COMPLETE (R285). The final state is sent and the standby enters SYNC. -/
def execJoinComplete (s : State) : Host.Outcome State Fault Refusal :=  .next (joinCompleteOp s)

/-- JOIN_RETRY (R284). 10 s after a failed join the join starts again. -/
def execJoinRetry (s : State) : Host.Outcome State Fault Refusal :=  .next (joinRetryOp s)

/-- PAIR_LINK_LOSS (R276). No valid frame for 500 µs loses the link and the standby enters UNSYNC. -/
def execPairLinkLoss (s : State) : Host.Outcome State Fault Refusal :=  .next (pairLinkLossOp s)

/-- STANDBY_LAG_TIMEOUT (R280). A standby latch more than 2 ms behind puts the standby in UNSYNC. -/
def execStandbyLagTimeout (s : State) : Host.Outcome State Fault Refusal :=  .next (standbyLagTimeoutOp s)

/-- SWITCHOVER (R299). Hand control to the partner, with state transfer when it is READY. -/
def execSwitchover (m : Master) (s : State) : Host.Outcome State Fault Refusal :=  .next (switchoverOp m s)

/-- DESYNC (R302). The standby enters UNSYNC and STOP. -/
def execDesync (m : Master) (s : State) : Host.Outcome State Fault Refusal :=  .next (desyncOp m s)

/-- JOIN (R284). The standby starts a join. -/
def execJoin (m : Master) (s : State) : Host.Outcome State Fault Refusal :=  .next (joinOp m s)

/-- PL_HL_READ (R300). A read of pl.hl latches pl.hh for the master. -/
def execPlHlRead (m : Master) (s : State) : Host.Outcome State Fault Refusal :=  .next ((s.sharedRead m 0xA81).1)

/-- PL_PHL_READ (R300). A read of pl.phl latches pl.phh for the master. -/
def execPlPhlRead (m : Master) (s : State) : Host.Outcome State Fault Refusal :=  .next ((s.sharedRead m 0xA83).1)

/-- PAIR_LINK_START (R482). At link start, and again after a link loss, the pair link session key exchange completes and the link comes up. -/
def execPairLinkStart (eph nonce sig : List Byte) (s : State) : Host.Outcome State Fault Refusal :=
  .next (pairLinkStartOp eph nonce sig s)

/-- PAIR_LINK_LANE_CHANGE (R276). One pair link lane fails or returns, and the link runs on the other lane at half the payload rate. -/
def execPairLinkLaneChange (n : Fin 2) (up : Bool) (s : State) : Host.Outcome State Fault Refusal :=  .next (pairLinkLaneChangeOp n.val up s)

/-- MEMORY_SCRUB (R287). The standby scrub reads, checks and corrects MRAM and logic die SRAM, and clears MRAMOK on an uncorrectable error. -/
def execMemoryScrub (corrected : Nat) (uncorrectable : Bool) (s : State) : Host.Outcome State Fault Refusal :=
  .next (memoryScrubOp corrected uncorrectable s)

/-- LANE_BIST (R287). A 2,048-cycle lane BIST slice runs in a region's idle time and yields to a latch. -/
def execLaneBist (r : Fin 4) (pass : Bool) (s : State) : Host.Outcome State Fault Refusal :=  .next (laneBistOp r.val pass s)

/-- OWL_TEST_IDLE_SLOT (R287). In STANDBY one Owl test window of R245 runs per idle slot. -/
def execOwlTestIdleSlot (r : Fin 4) (pass : Bool) (s : State) : Host.Outcome State Fault Refusal :=  .next (owlTestIdleSlotOp r.val pass s)

/-- REARM_BY_HYSTERESIS (R211). At a tick evaluation an entry's ARMF or ARMR re-arms when the axis has left the hysteresis band, without any fire. -/
def execRearmByHysteresis (x : Fin 8) (s : State) : Host.Outcome State Fault Refusal :=  .next (s.onField (rearmOp x.val))

/-- EXTDRV_CLEAR (R353). EXTDRV clears when the pin reads below 10 V for 100 µs. -/
def execExtdrvClear (d : Fin 16) (s : State) : Host.Outcome State Fault Refusal :=  .next (s.onField (extdrvClearOp d.val))

/-- ERROR_FRAME (R383). A channel detects a bus error or receives an error frame, increments ERRF and its error counters, and may change its error state. -/
def execErrorFrame (c : Fin 2) (lec : BitVec 3) (step : ErrorStep) (s : State) : Host.Outcome State Fault Refusal :=
  .next (s.onField (errorFrameOp c.val lec step))

/-- RECESSIVE_IDLE_PERIOD (R383). The first recessive idle period of 11 bits clears STUCK. -/
def execRecessiveIdlePeriod (c : Fin 2) (s : State) : Host.Outcome State Fault Refusal :=  .next (s.onField (recessiveIdleOp c.val))

/-- ETHERNET_LINK_CHANGE (R414). The link on X6 or X6B comes up or goes down, changing LNK0 or LNK1. -/
def execEthernetLinkChange (pt : Fin 2) (up : Bool) (s : State) : Host.Outcome State Fault Refusal :=  .next (ethernetLinkChangeOp pt.val up s)

/-- DHCP_ANSWER (R414). A DHCP server answers and the port takes its IPv4 address. -/
def execDhcpAnswer (pt : Fin 2) (ip : Word) (s : State) : Host.Outcome State Fault Refusal :=  .next (dhcpAnswerOp pt.val ip s)

/-- COMPACTION (R180). The sequencer compacts the retentive log in the background, adding physical writes to sq.rwl and sq.rrate, and RWEAR clears when sq.rrate falls to the limit. -/
def execCompaction (words : Nat) (s : State) : Host.Outcome State Fault Refusal :=  .next (compactionOp words s)

end Sys2Proof.Machine
end

