-- ==== Sys2Proof/Machine/CmdRack.lean ====
section
/-! DEFINITION. The meanings of the commands of the rack bus. -/

namespace Sys2Proof.Machine

/-- RACK_CYCLE (R403). A rack cycle starts with the output snapshot and the input phases of every bus. -/
def execRackCycle (s : State) : Host.Outcome State Fault Refusal :=  .next (rackCycleOp s)

/-- RACK_INPUT_PHASE_END (R403). The later input phase ends, the rack mirror is updated and RACKCYC is raised. -/
def execRackInputPhaseEnd (boards : List BoardAnswers) (ns : Nat) (s : State) : Host.Outcome State Fault Refusal :=
  if (Instr.rackInputPhaseEnd boards ns).wf then .next (rackInputPhaseEndOp boards ns s) else .fault .operandRange

/-- IDENTITY_PROBE (R405). A board's identity is probed and its status set. -/
def execIdentityProbe (b : Fin 21) (answer : Option (List Byte)) (s : State) : Host.Outcome State Fault Refusal :=
  if (Instr.identityProbe b answer).wf then .next (identityProbeOp b.val answer s) else .fault .operandRange

/-- RIRQ_ARRIVAL (R409). An enabled legacy interrupt line asserts after being released. -/
def execRirqArrival (n : Fin 8) (lines : BitVec 9) (s : State) : Host.Outcome State Fault Refusal :=  .next (rirqArrivalOp n.val lines s)

/-- RACK_RESET (R410). RESET asserted for 1 ms with RSTIN = 1 resets the module. -/
def execRackReset (s : State) : Host.Outcome State Fault Refusal :=  .next (rackResetOp s)

/-- RESCAN (R405). Probe every enabled board. -/
def execRescan (s : State) : Host.Outcome State Fault Refusal :=  .next (rescanOp s)

/-- RRESET (R410). Assert the rack RESET line for the given time. -/
def execRreset (ms : BitVec 8) (s : State) : Host.Outcome State Fault Refusal :=  .next (rresetOp ms.toNat s)

/-- RRESET_END (R410). The RRESET time passes and the line is released. -/
def execRresetEnd (s : State) : Host.Outcome State Fault Refusal :=  .next (rresetEndOp s)

end Sys2Proof.Machine
end

