-- ==== Sys2Proof/Machine/CmdReset.lean ====
section
/-! DEFINITION. The meanings of the commands of reset sources and boot. -/

namespace Sys2Proof.Machine

/-- MODULE_RESET (R532). A module reset stops the logic die and runs the boot sequence. -/
def execModuleReset (src : ResetSource) (ms : Nat) (wrong : List (Fin 4 × Bool × Option (Fin 64))) (s : State) : Host.Outcome State Fault Refusal :=
  .next (moduleResetOp src ms wrong s)

/-- POWER_ON (R531). The host supply rises from below its power-on level. -/
def execPowerOn (s : State) : Host.Outcome State Fault Refusal :=  .next (powerOnOp s)

/-- BROWN_OUT (R553). The hold-up node falls below the reset level. -/
def execBrownOut (s : State) : Host.Outcome State Fault Refusal :=  .next (brownOutOp s)

/-- PRESET (R536). A PRESET received as STANDBY in UNSYNC resets the module. -/
def execPreset (s : State) : Host.Outcome State Fault Refusal :=  .next (presetOp s)

/-- PARTNER_HALT_TIMEOUT (R536). The partner shows HALT for 60 s and the active sends PRESET once. -/
def execPartnerHaltTimeout (s : State) : Host.Outcome State Fault Refusal :=  .next (partnerHaltTimeoutOp s)

end Sys2Proof.Machine
end

