-- ==== Sys2Proof/Machine/CmdScan.lean ====
section
/-! DEFINITION. The meanings of the commands of regions and the scan: trail, Owl, coverage, tasks, operating states, forces and mirrors. -/

namespace Sys2Proof.Machine

/-- TRAIL_ISSUE (R226). The trail lane issues a bundle 64 cycles after the lead, taking volatile values from the replay FIFO. -/
def execTrailIssue (r : Fin 4) (s : State) : Host.Outcome State Fault Refusal :=  .next (trailIssueOp r s)

/-- OWL_VERDICT (R237). The Owl compares lead and trail signatures of a window: a pass, or a mismatch. -/
def execOwlVerdict (r : Fin 4) (s : State) : Host.Outcome State Fault Refusal :=  .next (owlVerdictOp r.val s)

/-- PAIRED_TO_SPLIT (R250). At the scan boundary the region becomes split and LP 2n+1 enters its requested state. -/
def execPairedToSplit (r : Fin 4) (s : State) : Host.Outcome State Fault Refusal :=  .next (pairedToSplitOp r.val s)

/-- REJOIN (R253). At the scan boundary the split region starts copying lane state towards pairing. -/
def execRejoin (r : Fin 4) (s : State) : Host.Outcome State Fault Refusal :=  .next (rejoinOp r.val s)

/-- REJOIN_DONE (R253). The rejoin ends at step 6 with coverage PAIRED, or fails back under R254. -/
def execRejoinDone (r : Fin 4) (verifyOk : Bool) (wrong : List (Bool × Option (Fin 64))) (s : State) : Host.Outcome State Fault Refusal :=
  .next (rejoinDoneOp r.val verifyOk wrong s)

/-- EXCHANGE_PREPARED (R259). The exchange preparation finishes and the exchange waits for the next scan boundary. -/
def execExchangePrepared (r : Fin 4) (s : State) : Host.Outcome State Fault Refusal :=  .next (exchangePreparedOp r.val s)

/-- HANDOVER (R260). At the scan boundary lane 2n stops and the hand-over copies carried items and WDATA. -/
def execHandover (r : Fin 4) (s : State) : Host.Outcome State Fault Refusal :=  .next (handoverOp r.val s)

/-- HANDOVER_DONE (R260). After stall H the bank pointer switches and lane 2n+1 runs LP 2n from the load bank. -/
def execHandoverDone (r : Fin 4) (s : State) : Host.Outcome State Fault Refusal :=  .next (handoverDoneOp r.val s)

/-- TASK_TRIGGER (R154). A trigger arrives for a task and sets PEND or counts an overrun. -/
def execTaskTrigger (p : Fin 8) (t : Fin 32) (s : State) : Host.Outcome State Fault Refusal :=  .next (taskTriggerOp p.val t.val s)

/-- GAP_EXPIRY (R154). A free-running task's GAP interval ends and the task receives its trigger. -/
def execGapExpiry (p : Fin 8) (t : Fin 32) (s : State) : Host.Outcome State Fault Refusal :=  .next (gapExpiryOp p.val t.val s)

/-- LATCH_START (R156). At a task boundary the sequencer starts the highest-priority pending task's latch from the mirrors. -/
def execLatchStart (p : Fin 8) (s : State) : Host.Outcome State Fault Refusal :=  .next ((latchStartOp p s).applyCmds)

/-- LATCH_END (R158). The latch ends, forced inputs are applied and the task-start state is loaded before ENTRY issues. -/
def execLatchEnd (p : Fin 8) (s : State) : Host.Outcome State Fault Refusal :=  .next (latchEndOp p s)

/-- COMMIT_START (R158). Once every store is performed and, if paired, the Owl has passed, the commit starts. -/
def execCommitStart (p : Fin 8) (s : State) : Host.Outcome State Fault Refusal :=  .next (commitStartOp p s)

/-- COMMIT_END (R158). The commit ends, outputs go to their sinks and staged items are released. -/
def execCommitEnd (p : Fin 8) (s : State) : Host.Outcome State Fault Refusal :=  .next (commitEndOp p s)

/-- MAXRUN_EXPIRY (R160). A task or routine not ended after MAXRUN cycles halts its LP with cause TIME. -/
def execMaxrunExpiry (p : Fin 8) (s : State) : Host.Outcome State Fault Refusal :=  .next (maxrunExpiryOp p s)

/-- STARTUP_END (R163). The start-up routine ends once its stores are performed and its window has passed, and releases its staged items. -/
def execStartupEnd (p : Fin 8) (s : State) : Host.Outcome State Fault Refusal :=  .next (startupEndOp p s)

/-- RUN (R165). sq.cmd RUN moves the named LPs from STOP to RUN, optionally with a cold start. -/
def execRun (m : Master) (mask : BitVec 8) (cold : Bool) (s : State) : Host.Outcome State Fault Refusal :=  .next (runOp m mask cold s)

/-- STOP (R165). sq.cmd STOP requests the named LPs to enter STOP. -/
def execStop (m : Master) (mask : BitVec 8) (s : State) : Host.Outcome State Fault Refusal :=  .next (stopOp m mask s)

/-- CLRHALT (R165). sq.cmd CLRHALT moves the named LPs from HALT to STOP and reloads retentive blocks. -/
def execClrhalt (m : Master) (mask : BitVec 8) (s : State) : Host.Outcome State Fault Refusal :=  .next (clrhaltOp m mask s)

/-- FT_SET (R175). Write and enable force entry ft.idx, or refuse it with REJ. -/
def execFtSet (m : Master) (v : Word) (s : State) : Host.Outcome State Fault Refusal :=  .next (s.sharedWrite m 0xBC4 v)

/-- FT_CLR (R174). Disable force entry ft.idx. -/
def execFtClr (m : Master) (v : Word) (s : State) : Host.Outcome State Fault Refusal :=  .next (s.sharedWrite m 0xBC5 v)

/-- FT_CLRALL (R174). Disable every force entry. -/
def execFtClrall (m : Master) (v : Word) (s : State) : Host.Outcome State Fault Refusal :=  .next (s.sharedWrite m 0xBC6 v)

/-- FT_RD (R174). Read force entry ft.idx into ft.raddr and ft.rval. -/
def execFtRd (m : Master) (v : Word) (s : State) : Host.Outcome State Fault Refusal :=  .next (s.sharedWrite m 0xBC7 v)

/-- MR_RD (R185). Read the selected mirror word into mr.v. -/
def execMrRd (m : Master) (v : Word) (s : State) : Host.Outcome State Fault Refusal :=  .next (s.sharedWrite m 0x889 v)

/-- MR_DI_READ (R186). A read of mr.di latches mr.tsl, mr.tsh and mr.fseq for the master. -/
def execMrDiRead (m : Master) (s : State) : Host.Outcome State Fault Refusal :=  .next ((s.sharedRead m 0x880).1)

/-- SQ_RWL_READ (R181). A read of sq.rwl latches sq.rwh for the master. -/
def execSqRwlRead (m : Master) (s : State) : Host.Outcome State Fault Refusal :=  .next ((s.sharedRead m 0x858).1)

end Sys2Proof.Machine
end

