-- ==== Sys2Proof/Machine/CmdSett.lean ====
section
/-! DEFINITION. The meanings of the commands of the Sett die. -/

namespace Sys2Proof.Machine

/-- SETT_CYCLE (R432). At each 1 ms Sett cycle the Sett die sends SETT_STATUS and TOTALS. -/
def execSettCycle (intact : Bool) (s : State) : Host.Outcome State Fault Refusal :=  .next (settCycleOp intact s)

/-- SETT_FRAME_ACCEPT (R432). The host domain updates the Sett mirror, takes replies and raises SFRAME. -/
def execSettFrameAccept (intact : Bool) (s : State) : Host.Outcome State Fault Refusal :=  .next ((settFrameAcceptOp intact s).dumpAdvance)

/-- SLOST (R432). No accepted Sett frame for 10 ms sets SLOST. -/
def execSlost (s : State) : Host.Outcome State Fault Refusal :=  .next (slostOp s)

/-- ST_CMD (R454). Stage a Sett command for the master, or refuse it. -/
def execStCmd (m : Master) (v : Word) (s : State) : Host.Outcome State Fault Refusal :=  .next (s.sharedWrite m 0xB90 v)

/-- ST_RRD (R452). Read the selected reply data word into st.rv. -/
def execStRrd (m : Master) (v : Word) (s : State) : Host.Outcome State Fault Refusal :=  .next (s.sharedWrite m 0xB93 v)

/-- NOREPLY (R454). A sent Sett command without reply for 20 ms completes with NOREPLY. -/
def execNoreply (m : Master) (s : State) : Host.Outcome State Fault Refusal :=  .next ((noreplyOp m s).dumpAdvance)

/-- SETT_START (R438). Start a batch on a Sett channel. -/
def execSettStart (s : State) : Host.Outcome State Fault Refusal :=  .next (settStartOp s)

/-- SETT_STOP (R438). Stop the batch on a Sett channel. -/
def execSettStop (s : State) : Host.Outcome State Fault Refusal :=  .next (settStopOp s)

/-- SETT_READ (R450). Return one audit entry. -/
def execSettRead (s : State) : Host.Outcome State Fault Refusal :=  .next (settReadOp s)

/-- SETT_VERIFY (R450). Start recomputing the check code with a signed reply. -/
def execSettVerify (s : State) : Host.Outcome State Fault Refusal :=  .next (settVerifyOp s)

/-- SETT_VERIFY_DONE (R450). The VERIFY finishes within 50 ms and its signed reply is sent. -/
def execSettVerifyDone (s : State) : Host.Outcome State Fault Refusal :=  .next (settVerifyDoneOp s)

/-- SINGLE_PULSE (R434). A rising edge on a single channel adds one forward pulse. -/
def execSinglePulse (m : Fin 4) (s : State) : Host.Outcome State Fault Refusal :=  .next (singlePulseOp m.val s)

/-- DUAL_A_EDGE (R435). A rising A edge of a dual channel adds a pulse or counts a reverse pulse. -/
def execDualAEdge (q : Fin 2) (other : Bool) (t : Nat) (s : State) : Host.Outcome State Fault Refusal :=  .next (dualAEdgeOp q.val other t s)

/-- DUAL_B_EDGE (R435). A rising B edge checks the phase and the A–B difference. -/
def execDualBEdge (q : Fin 2) (other : Bool) (t : Nat) (s : State) : Host.Outcome State Fault Refusal :=  .next (dualBEdgeOp q.val other t s)

/-- RATE_GATE_END (R437). At each gate end FRATE, REVF and OVRATE are computed. -/
def execRateGateEnd (m : Fin 4) (s : State) : Host.Outcome State Fault Refusal :=  .next (rateGateEndOp m.val s)

/-- NV_SLOT_WRITE (R439). Changed Sett channel state is written to the next storage slot. -/
def execNvSlotWrite (s : State) : Host.Outcome State Fault Refusal :=  .next (nvSlotWriteOp s)

/-- SETT_SUPPLY_LOSS (R439). The Sett supply falls, metering stops, a final slot is written and Sett halts. -/
def execSettSupplyLoss (s : State) : Host.Outcome State Fault Refusal :=  .next (settSupplyLossOp s)

/-- SETT_RESET (R441). Sett restores its state, verifies its firmware and enters METER, SERVICE or FAULT. -/
def execSettReset (slotOk : Bool) (fwOk : Bool) (s : State) : Host.Outcome State Fault Refusal :=  .next (settResetOp slotOk fwOk s)

/-- SEAL_CHANGE (R442). The seal jumper debounces to closed or open. -/
def execSealChange (closed : Bool) (s : State) : Host.Outcome State Fault Refusal :=  .next (sealChangeOp closed s)

/-- SERVICE_READ (R443). Service port: return a parameter value. -/
def execServiceRead (fr : List Byte) (s : State) : Host.Outcome State Fault Refusal :=  .next (serviceReadOp fr s)

/-- SERVICE_WRITE (R445). Service port: write a parameter with an audit entry, or refuse it. -/
def execServiceWrite (fr : List Byte) (auditOk : Bool) (s : State) : Host.Outcome State Fault Refusal :=
  .next (serviceWriteOp fr auditOk s)

/-- SERVICE_STATUS (R443). Service port: return mirror word 0. -/
def execServiceStatus (fr : List Byte) (s : State) : Host.Outcome State Fault Refusal :=  .next (serviceStatusOp fr s)

end Sys2Proof.Machine
end

