-- ==== Sys2Proof/Machine/Dispatch.lean ====
section
/-! DEFINITION. One arm for each command: a direct call of its meaning. -/

namespace Sys2Proof.Machine

/-- The effect of a command on everything but the queue. -/
def exec (i : Instr) (s : State) : Host.Outcome State Fault Refusal :=
  match i with
  | .bundleIssue l => Sys2Proof.Machine.execBundleIssue l s
  | .loadDelivery l k => Sys2Proof.Machine.execLoadDelivery l k s
  | .triggerWriteWait l => Sys2Proof.Machine.execTriggerWriteWait l s
  | .storePerformed l => Sys2Proof.Machine.execStorePerformed l s
  | .resultAppears l g => Sys2Proof.Machine.execResultAppears l g s
  | .registerWrite m a v => Sys2Proof.Machine.execRegisterWrite m a v s
  | .cuJmp l v => Sys2Proof.Machine.execCuJmp l v s
  | .cuJrel l v => Sys2Proof.Machine.execCuJrel l v s
  | .cuCall l v => Sys2Proof.Machine.execCuCall l v s
  | .cuRet l v => Sys2Proof.Machine.execCuRet l v s
  | .cuReti l v => Sys2Proof.Machine.execCuReti l v s
  | .cuEnd l v => Sys2Proof.Machine.execCuEnd l v s
  | .blLd l v => Sys2Proof.Machine.execBlLd l v s
  | .blLdn l v => Sys2Proof.Machine.execBlLdn l v s
  | .blAnd l v => Sys2Proof.Machine.execBlAnd l v s
  | .blAndn l v => Sys2Proof.Machine.execBlAndn l v s
  | .blOr l v => Sys2Proof.Machine.execBlOr l v s
  | .blOrn l v => Sys2Proof.Machine.execBlOrn l v s
  | .blPush l v => Sys2Proof.Machine.execBlPush l v s
  | .blPushn l v => Sys2Proof.Machine.execBlPushn l v s
  | .blAnb l v => Sys2Proof.Machine.execBlAnb l v s
  | .blOrb l v => Sys2Proof.Machine.execBlOrb l v s
  | .blSt l v => Sys2Proof.Machine.execBlSt l v s
  | .blStn l v => Sys2Proof.Machine.execBlStn l v s
  | .blSet l v => Sys2Proof.Machine.execBlSet l v s
  | .blRst l v => Sys2Proof.Machine.execBlRst l v s
  | .blXor l v => Sys2Proof.Machine.execBlXor l v s
  | .iaAdd l v => Sys2Proof.Machine.execIaAdd l v s
  | .iaAddc l v => Sys2Proof.Machine.execIaAddc l v s
  | .iaSub l v => Sys2Proof.Machine.execIaSub l v s
  | .iaSubb l v => Sys2Proof.Machine.execIaSubb l v s
  | .iaAdds l v => Sys2Proof.Machine.execIaAdds l v s
  | .iaSubs l v => Sys2Proof.Machine.execIaSubs l v s
  | .iaNeg l v => Sys2Proof.Machine.execIaNeg l v s
  | .iaNegs l v => Sys2Proof.Machine.execIaNegs l v s
  | .iaAbs l v => Sys2Proof.Machine.execIaAbs l v s
  | .iaAbss l v => Sys2Proof.Machine.execIaAbss l v s
  | .iaAnd l v => Sys2Proof.Machine.execIaAnd l v s
  | .iaOr l v => Sys2Proof.Machine.execIaOr l v s
  | .iaXor l v => Sys2Proof.Machine.execIaXor l v s
  | .iaAndn l v => Sys2Proof.Machine.execIaAndn l v s
  | .iaNot l v => Sys2Proof.Machine.execIaNot l v s
  | .iaMov l v => Sys2Proof.Machine.execIaMov l v s
  | .iaShl l v => Sys2Proof.Machine.execIaShl l v s
  | .iaShr l v => Sys2Proof.Machine.execIaShr l v s
  | .iaSar l v => Sys2Proof.Machine.execIaSar l v s
  | .iaRotl l v => Sys2Proof.Machine.execIaRotl l v s
  | .iaRotr l v => Sys2Proof.Machine.execIaRotr l v s
  | .iaAdd64 l v => Sys2Proof.Machine.execIaAdd64 l v s
  | .iaSub64 l v => Sys2Proof.Machine.execIaSub64 l v s
  | .iaNeg64 l v => Sys2Proof.Machine.execIaNeg64 l v s
  | .iaShl64 l v => Sys2Proof.Machine.execIaShl64 l v s
  | .iaShr64 l v => Sys2Proof.Machine.execIaShr64 l v s
  | .iaSar64 l v => Sys2Proof.Machine.execIaSar64 l v s
  | .iaZext l v => Sys2Proof.Machine.execIaZext l v s
  | .imMul l v => Sys2Proof.Machine.execImMul l v s
  | .imMulu l v => Sys2Proof.Machine.execImMulu l v s
  | .imMuls l v => Sys2Proof.Machine.execImMuls l v s
  | .imDiv l v => Sys2Proof.Machine.execImDiv l v s
  | .imDivu l v => Sys2Proof.Machine.execImDivu l v s
  | .cpCmp l v => Sys2Proof.Machine.execCpCmp l v s
  | .cpCmp64 l v => Sys2Proof.Machine.execCpCmp64 l v s
  | .cpCmpf l v => Sys2Proof.Machine.execCpCmpf l v s
  | .cpCmpd l v => Sys2Proof.Machine.execCpCmpd l v s
  | .cpTst l v => Sys2Proof.Machine.execCpTst l v s
  | .fpFadd l v => Sys2Proof.Machine.execFpFadd l v s
  | .fpFsub l v => Sys2Proof.Machine.execFpFsub l v s
  | .fpFmul l v => Sys2Proof.Machine.execFpFmul l v s
  | .fpFdiv l v => Sys2Proof.Machine.execFpFdiv l v s
  | .fpDadd l v => Sys2Proof.Machine.execFpDadd l v s
  | .fpDsub l v => Sys2Proof.Machine.execFpDsub l v s
  | .fpDmul l v => Sys2Proof.Machine.execFpDmul l v s
  | .fpDdiv l v => Sys2Proof.Machine.execFpDdiv l v s
  | .fpItof l v => Sys2Proof.Machine.execFpItof l v s
  | .fpFtoi l v => Sys2Proof.Machine.execFpFtoi l v s
  | .fpFtrunc l v => Sys2Proof.Machine.execFpFtrunc l v s
  | .fpItod l v => Sys2Proof.Machine.execFpItod l v s
  | .fpDtoi l v => Sys2Proof.Machine.execFpDtoi l v s
  | .fpDtrunc l v => Sys2Proof.Machine.execFpDtrunc l v s
  | .fpFtod l v => Sys2Proof.Machine.execFpFtod l v s
  | .fpDtof l v => Sys2Proof.Machine.execFpDtof l v s
  | .macRun l v => Sys2Proof.Machine.execMacRun l v s
  | .macXw l v => Sys2Proof.Machine.execMacXw l v s
  | .macYw l v => Sys2Proof.Machine.execMacYw l v s
  | .macXr l v => Sys2Proof.Machine.execMacXr l v s
  | .macYr l v => Sys2Proof.Machine.execMacYr l v s
  | .macLdacc l v => Sys2Proof.Machine.execMacLdacc l v s
  | .lsLd l v => Sys2Proof.Machine.execLsLd l v s
  | .lsSt l v => Sys2Proof.Machine.execLsSt l v s
  | .lsLdb l v => Sys2Proof.Machine.execLsLdb l v s
  | .lsStb l v => Sys2Proof.Machine.execLsStb l v s
  | .iuTon l v => Sys2Proof.Machine.execIuTon l v s
  | .iuTof l v => Sys2Proof.Machine.execIuTof l v s
  | .iuTp l v => Sys2Proof.Machine.execIuTp l v s
  | .iuCtu l v => Sys2Proof.Machine.execIuCtu l v s
  | .iuCtd l v => Sys2Proof.Machine.execIuCtd l v s
  | .iuCtud l v => Sys2Proof.Machine.execIuCtud l v s
  | .iuRtrig l v => Sys2Proof.Machine.execIuRtrig l v s
  | .iuFtrig l v => Sys2Proof.Machine.execIuFtrig l v s
  | .iuClr l v => Sys2Proof.Machine.execIuClr l v s
  | .iuWriteback l => Sys2Proof.Machine.execIuWriteback l s
  | .trailIssue r => Sys2Proof.Machine.execTrailIssue r s
  | .owlVerdict r => Sys2Proof.Machine.execOwlVerdict r s
  | .pairedToSplit r => Sys2Proof.Machine.execPairedToSplit r s
  | .rejoin r => Sys2Proof.Machine.execRejoin r s
  | .rejoinDone r verifyOk wrong => Sys2Proof.Machine.execRejoinDone r verifyOk wrong s
  | .exchangePrepared r => Sys2Proof.Machine.execExchangePrepared r s
  | .handover r => Sys2Proof.Machine.execHandover r s
  | .handoverDone r => Sys2Proof.Machine.execHandoverDone r s
  | .taskTrigger p t => Sys2Proof.Machine.execTaskTrigger p t s
  | .gapExpiry p t => Sys2Proof.Machine.execGapExpiry p t s
  | .latchStart p => Sys2Proof.Machine.execLatchStart p s
  | .latchEnd p => Sys2Proof.Machine.execLatchEnd p s
  | .commitStart p => Sys2Proof.Machine.execCommitStart p s
  | .commitEnd p => Sys2Proof.Machine.execCommitEnd p s
  | .maxrunExpiry p => Sys2Proof.Machine.execMaxrunExpiry p s
  | .startupEnd p => Sys2Proof.Machine.execStartupEnd p s
  | .run m mask cold => Sys2Proof.Machine.execRun m mask cold s
  | .stop m mask => Sys2Proof.Machine.execStop m mask s
  | .clrhalt m mask => Sys2Proof.Machine.execClrhalt m mask s
  | .ftSet m v => Sys2Proof.Machine.execFtSet m v s
  | .ftClr m v => Sys2Proof.Machine.execFtClr m v s
  | .ftClrall m v => Sys2Proof.Machine.execFtClrall m v s
  | .ftRd m v => Sys2Proof.Machine.execFtRd m v s
  | .mrRd m v => Sys2Proof.Machine.execMrRd m v s
  | .mrDiRead m => Sys2Proof.Machine.execMrDiRead m s
  | .sqRwlRead m => Sys2Proof.Machine.execSqRwlRead m s
  | .encoderEdge x a b => Sys2Proof.Machine.execEncoderEdge x a b s
  | .home x => Sys2Proof.Machine.execHome x s
  | .syncCrossing rising => Sys2Proof.Machine.execSyncCrossing rising s
  | .axisStale x => Sys2Proof.Machine.execAxisStale x s
  | .axisFrozen x => Sys2Proof.Machine.execAxisFrozen x s
  | .actionNone e => Sys2Proof.Machine.execActionNone e s
  | .actionSet e => Sys2Proof.Machine.execActionSet e s
  | .actionClear e => Sys2Proof.Machine.execActionClear e s
  | .actionToggle e => Sys2Proof.Machine.execActionToggle e s
  | .actionSnap e => Sys2Proof.Machine.execActionSnap e s
  | .actionLatch e => Sys2Proof.Machine.execActionLatch e s
  | .actionTask e => Sys2Proof.Machine.execActionTask e s
  | .actionBustx e => Sys2Proof.Machine.execActionBustx e s
  | .ptWr m v => Sys2Proof.Machine.execPtWr m v s
  | .ptDis m v => Sys2Proof.Machine.execPtDis m v s
  | .ptPreset m v => Sys2Proof.Machine.execPtPreset m v s
  | .ptHome m v => Sys2Proof.Machine.execPtHome m v s
  | .ptRd m v => Sys2Proof.Machine.execPtRd m v s
  | .schedEntryWrite => Sys2Proof.Machine.execSchedEntryWrite s
  | .schedEntryDisable => Sys2Proof.Machine.execSchedEntryDisable s
  | .schedPreset => Sys2Proof.Machine.execSchedPreset s
  | .schedHome => Sys2Proof.Machine.execSchedHome s
  | .irqArrival q => Sys2Proof.Machine.execIrqArrival q s
  | .handlerDelivery t => Sys2Proof.Machine.execHandlerDelivery t s
  | .taskDelivery q => Sys2Proof.Machine.execTaskDelivery q s
  | .icCfg m v => Sys2Proof.Machine.execIcCfg m v s
  | .icDone m v => Sys2Proof.Machine.execIcDone m v s
  | .icRaise m v => Sys2Proof.Machine.execIcRaise m v s
  | .icClr m v => Sys2Proof.Machine.execIcClr m v s
  | .icHold m v => Sys2Proof.Machine.execIcHold m v s
  | .barrierCycleStart => Sys2Proof.Machine.execBarrierCycleStart s
  | .fieldCycleStart mv lo rb => Sys2Proof.Machine.execFieldCycleStart mv lo rb s
  | .hostFrameAccept noise => Sys2Proof.Machine.execHostFrameAccept noise s
  | .fieldFrameAccept noise => Sys2Proof.Machine.execFieldFrameAccept noise s
  | .heartbeat => Sys2Proof.Machine.execHeartbeat s
  | .outImage => Sys2Proof.Machine.execOutImage s
  | .cfgWrite => Sys2Proof.Machine.execCfgWrite s
  | .schedWrite => Sys2Proof.Machine.execSchedWrite s
  | .busTx => Sys2Proof.Machine.execBusTx s
  | .inImage => Sys2Proof.Machine.execInImage s
  | .supply => Sys2Proof.Machine.execSupply s
  | .axisState => Sys2Proof.Machine.execAxisState s
  | .diag => Sys2Proof.Machine.execDiag s
  | .schedFired => Sys2Proof.Machine.execSchedFired s
  | .busRxNote => Sys2Proof.Machine.execBusRxNote s
  | .safeStateTimeout => Sys2Proof.Machine.execSafeStateTimeout s
  | .flost => Sys2Proof.Machine.execFlost s
  | .fieldDieReset up => Sys2Proof.Machine.execFieldDieReset up s
  | .supplyTransition c => Sys2Proof.Machine.execSupplyTransition c s
  | .latchOff d overtemp => Sys2Proof.Machine.execLatchOff d overtemp s
  | .diagnosticSlot lowCurrent openBand high => Sys2Proof.Machine.execDiagnosticSlot lowCurrent openBand high s
  | .extdrv d => Sys2Proof.Machine.execExtdrv d s
  | .filterChange ch level => Sys2Proof.Machine.execFilterChange ch level s
  | .fastCounterEdge k rising => Sys2Proof.Machine.execFastCounterEdge k rising s
  | .fdRst m v => Sys2Proof.Machine.execFdRst m v s
  | .fdCrst m v => Sys2Proof.Machine.execFdCrst m v s
  | .fdDclr m v => Sys2Proof.Machine.execFdDclr m v s
  | .fdDrd m v => Sys2Proof.Machine.execFdDrd m v s
  | .canFrameReceive c fr => Sys2Proof.Machine.execCanFrameReceive c fr s
  | .arbitrationStart c => Sys2Proof.Machine.execArbitrationStart c s
  | .attemptEnd c res => Sys2Proof.Machine.execAttemptEnd c res s
  | .busOffRecoveryEnd c => Sys2Proof.Machine.execBusOffRecoveryEnd c s
  | .stuck c => Sys2Proof.Machine.execStuck c s
  | .stationRequest c st => Sys2Proof.Machine.execStationRequest c st s
  | .statusRecordPeriodic c => Sys2Proof.Machine.execStatusRecordPeriodic c s
  | .fbAck m v => Sys2Proof.Machine.execFbAck m v s
  | .fbTxreq m v => Sys2Proof.Machine.execFbTxreq m v s
  | .fbSput m v => Sys2Proof.Machine.execFbSput m v s
  | .recover c => Sys2Proof.Machine.execRecover c s
  | .clrst c => Sys2Proof.Machine.execClrst c s
  | .clrcnt c => Sys2Proof.Machine.execClrcnt c s
  | .rackCycle => Sys2Proof.Machine.execRackCycle s
  | .rackInputPhaseEnd boards ns => Sys2Proof.Machine.execRackInputPhaseEnd boards ns s
  | .identityProbe b answer => Sys2Proof.Machine.execIdentityProbe b answer s
  | .rirqArrival n lines => Sys2Proof.Machine.execRirqArrival n lines s
  | .rackReset => Sys2Proof.Machine.execRackReset s
  | .rescan => Sys2Proof.Machine.execRescan s
  | .rreset ms => Sys2Proof.Machine.execRreset ms s
  | .rresetEnd => Sys2Proof.Machine.execRresetEnd s
  | .linkLocalFallback pt ip => Sys2Proof.Machine.execLinkLocalFallback pt ip s
  | .helloH path ver role ident key nonce => Sys2Proof.Machine.execHelloH path ver role ident key nonce s
  | .finH ch sig => Sys2Proof.Machine.execFinH ch sig s
  | .handshakeTimeout ch => Sys2Proof.Machine.execHandshakeTimeout ch s
  | .hostData ch seq intact tag req => Sys2Proof.Machine.execHostData ch seq intact tag req s
  | .sessionTimeout ch => Sys2Proof.Machine.execSessionTimeout ch s
  | .sessionClose ch => Sys2Proof.Machine.execSessionClose ch s
  | .sessionRekey => Sys2Proof.Machine.execSessionRekey s
  | .hostStatus ch tag => Sys2Proof.Machine.execHostStatus ch tag s
  | .hostIdent ch tag => Sys2Proof.Machine.execHostIdent ch tag s
  | .hostRegion ch tag n => Sys2Proof.Machine.execHostRegion ch tag n s
  | .hostMoves ch tag ms => Sys2Proof.Machine.execHostMoves ch tag ms s
  | .cover ch tag n split runOdd => Sys2Proof.Machine.execCover ch tag n split runOdd s
  | .lastop ch tag => Sys2Proof.Machine.execLastop ch tag s
  | .ping ch tag => Sys2Proof.Machine.execPing ch tag s
  | .hostLoad ch tag forceclr => Sys2Proof.Machine.execHostLoad ch tag forceclr s
  | .loadComplete => Sys2Proof.Machine.execLoadComplete s
  | .exchange ch tag n keeplane forceclr => Sys2Proof.Machine.execExchange ch tag n keeplane forceclr s
  | .fwstage ch tag => Sys2Proof.Machine.execFwstage ch tag s
  | .hostCommandReset => Sys2Proof.Machine.execHostCommandReset s
  | .recclr ch tag token => Sys2Proof.Machine.execRecclr ch tag token s
  | .memtest ch tag => Sys2Proof.Machine.execMemtest ch tag s
  | .settdump ch tag => Sys2Proof.Machine.execSettdump ch tag s
  | .opdata ch tag bytes => Sys2Proof.Machine.execOpdata ch tag bytes s
  | .opend ch tag len digest => Sys2Proof.Machine.execOpend ch tag len digest s
  | .opcancel ch tag => Sys2Proof.Machine.execOpcancel ch tag s
  | .longOpComplete found => Sys2Proof.Machine.execLongOpComplete found s
  | .keygenGenerate ch tag slot attr0 attr1 => Sys2Proof.Machine.execKeygenGenerate ch tag slot attr0 attr1 s
  | .claim ch tag code root policy => Sys2Proof.Machine.execClaim ch tag code root policy s
  | .policy ch tag policy => Sys2Proof.Machine.execPolicy ch tag policy s
  | .keyImport ch tag slot attr0 attr1 key => Sys2Proof.Machine.execKeyImport ch tag slot attr0 attr1 key s
  | .keygenDestroy ch tag slot => Sys2Proof.Machine.execKeygenDestroy ch tag slot s
  | .release ch tag conf => Sys2Proof.Machine.execRelease ch tag conf s
  | .decommission ch tag conf => Sys2Proof.Machine.execDecommission ch tag conf s
  | .lcReturn ch tag auth => Sys2Proof.Machine.execLcReturn ch tag auth s
  | .restore ch tag auth => Sys2Proof.Machine.execRestore ch tag auth s
  | .lcTransition readBack => Sys2Proof.Machine.execLcTransition readBack s
  | .info m => Sys2Proof.Machine.execInfo m s
  | .sign m => Sys2Proof.Machine.execSign m s
  | .verify m => Sys2Proof.Machine.execVerify m s
  | .readpub m => Sys2Proof.Machine.execReadpub m s
  | .generate m => Sys2Proof.Machine.execGenerate m s
  | .derive m => Sys2Proof.Machine.execDerive m s
  | .agree m => Sys2Proof.Machine.execAgree m s
  | .encrypt m => Sys2Proof.Machine.execEncrypt m s
  | .decrypt m => Sys2Proof.Machine.execDecrypt m s
  | .ksMac m => Sys2Proof.Machine.execKsMac m s
  | .destroy m => Sys2Proof.Machine.execDestroy m s
  | .attest m => Sys2Proof.Machine.execAttest m s
  | .hash m => Sys2Proof.Machine.execHash m s
  | .ksOpComplete readBack => Sys2Proof.Machine.execKsOpComplete readBack s
  | .ksBw m v => Sys2Proof.Machine.execKsBw m v s
  | .ksBr m v => Sys2Proof.Machine.execKsBr m v s
  | .settCycle intact => Sys2Proof.Machine.execSettCycle intact s
  | .settFrameAccept intact => Sys2Proof.Machine.execSettFrameAccept intact s
  | .slost => Sys2Proof.Machine.execSlost s
  | .stCmd m v => Sys2Proof.Machine.execStCmd m v s
  | .stRrd m v => Sys2Proof.Machine.execStRrd m v s
  | .noreply m => Sys2Proof.Machine.execNoreply m s
  | .settStart => Sys2Proof.Machine.execSettStart s
  | .settStop => Sys2Proof.Machine.execSettStop s
  | .settRead => Sys2Proof.Machine.execSettRead s
  | .settVerify => Sys2Proof.Machine.execSettVerify s
  | .settVerifyDone => Sys2Proof.Machine.execSettVerifyDone s
  | .singlePulse m => Sys2Proof.Machine.execSinglePulse m s
  | .dualAEdge q other t => Sys2Proof.Machine.execDualAEdge q other t s
  | .dualBEdge q other t => Sys2Proof.Machine.execDualBEdge q other t s
  | .rateGateEnd m => Sys2Proof.Machine.execRateGateEnd m s
  | .nvSlotWrite => Sys2Proof.Machine.execNvSlotWrite s
  | .settSupplyLoss => Sys2Proof.Machine.execSettSupplyLoss s
  | .settReset slotOk fwOk => Sys2Proof.Machine.execSettReset slotOk fwOk s
  | .sealChange closed => Sys2Proof.Machine.execSealChange closed s
  | .serviceRead frame => Sys2Proof.Machine.execServiceRead frame s
  | .serviceWrite frame auditOk => Sys2Proof.Machine.execServiceWrite frame auditOk s
  | .serviceStatus frame => Sys2Proof.Machine.execServiceStatus frame s
  | .bdAns m v => Sys2Proof.Machine.execBdAns m v s
  | .bdChk m v => Sys2Proof.Machine.execBdChk m v s
  | .bdStart m v => Sys2Proof.Machine.execBdStart m v s
  | .bdConfigWrite m a v => Sys2Proof.Machine.execBdConfigWrite m a v s
  | .badgerOpen => Sys2Proof.Machine.execBadgerOpen s
  | .badgerExpiry => Sys2Proof.Machine.execBadgerExpiry s
  | .badgerAction => Sys2Proof.Machine.execBadgerAction s
  | .rtSnap m v => Sys2Proof.Machine.execRtSnap m v s
  | .rtSet m v => Sys2Proof.Machine.execRtSet m v s
  | .alarmWrite m a v => Sys2Proof.Machine.execAlarmWrite m a v s
  | .secondIncrement => Sys2Proof.Machine.execSecondIncrement s
  | .switchToBackup vmain vcell vbak => Sys2Proof.Machine.execSwitchToBackup vmain vcell vbak s
  | .returnToMain vmain vcell vbak => Sys2Proof.Machine.execReturnToMain vmain vcell vbak s
  | .clockDomainReset => Sys2Proof.Machine.execClockDomainReset s
  | .eventOccurrence e => Sys2Proof.Machine.execEventOccurrence e s
  | .recordWrite => Sys2Proof.Machine.execRecordWrite s
  | .rateWindowEnd => Sys2Proof.Machine.execRateWindowEnd s
  | .erRd m v => Sys2Proof.Machine.execErRd m v s
  | .erFind m v => Sys2Proof.Machine.execErFind m v s
  | .erLog m v => Sys2Proof.Machine.execErLog m v s
  | .moduleReset src ms wrong => Sys2Proof.Machine.execModuleReset src ms wrong s
  | .powerOn => Sys2Proof.Machine.execPowerOn s
  | .brownOut => Sys2Proof.Machine.execBrownOut s
  | .preset => Sys2Proof.Machine.execPreset s
  | .partnerHaltTimeout => Sys2Proof.Machine.execPartnerHaltTimeout s
  | .tokenLineSensed asserted => Sys2Proof.Machine.execTokenLineSensed asserted s
  | .tokenAcquire => Sys2Proof.Machine.execTokenAcquire s
  | .tokenStuck => Sys2Proof.Machine.execTokenStuck s
  | .relinquishCause rc => Sys2Proof.Machine.execRelinquishCause rc s
  | .partnerDriveTimeout => Sys2Proof.Machine.execPartnerDriveTimeout s
  | .relinquish rc lseq hd => Sys2Proof.Machine.execRelinquish rc lseq hd s
  | .pairLinkHeartbeat hb hd => Sys2Proof.Machine.execPairLinkHeartbeat hb hd s
  | .fwd w hd => Sys2Proof.Machine.execFwd w hd s
  | .iarr p lseq bcnt q hd => Sys2Proof.Machine.execIarr p lseq bcnt q hd s
  | .osig p lseq sig hd => Sys2Proof.Machine.execOsig p lseq sig hd s
  | .cmdfwd cmd lseq hd => Sys2Proof.Machine.execCmdfwd cmd lseq hd s
  | .pairState blk hd => Sys2Proof.Machine.execPairState blk hd s
  | .health h hd => Sys2Proof.Machine.execHealth h hd s
  | .healthUpdate => Sys2Proof.Machine.execHealthUpdate s
  | .joinreq sm3 fw proto ready hd => Sys2Proof.Machine.execJoinreq sm3 fw proto ready hd s
  | .joinack refused hd => Sys2Proof.Machine.execJoinack refused hd s
  | .catchupRound dirtyBytes => Sys2Proof.Machine.execCatchupRound dirtyBytes s
  | .joinComplete => Sys2Proof.Machine.execJoinComplete s
  | .joinRetry => Sys2Proof.Machine.execJoinRetry s
  | .pairLinkLoss => Sys2Proof.Machine.execPairLinkLoss s
  | .standbyLagTimeout => Sys2Proof.Machine.execStandbyLagTimeout s
  | .switchover m => Sys2Proof.Machine.execSwitchover m s
  | .desync m => Sys2Proof.Machine.execDesync m s
  | .join m => Sys2Proof.Machine.execJoin m s
  | .plHlRead m => Sys2Proof.Machine.execPlHlRead m s
  | .plPhlRead m => Sys2Proof.Machine.execPlPhlRead m s
  | .pairLinkStart eph nonce sig => Sys2Proof.Machine.execPairLinkStart eph nonce sig s
  | .pairLinkLaneChange n up => Sys2Proof.Machine.execPairLinkLaneChange n up s
  | .memoryScrub corrected uncorrectable => Sys2Proof.Machine.execMemoryScrub corrected uncorrectable s
  | .laneBist r pass => Sys2Proof.Machine.execLaneBist r pass s
  | .owlTestIdleSlot r pass => Sys2Proof.Machine.execOwlTestIdleSlot r pass s
  | .rearmByHysteresis x => Sys2Proof.Machine.execRearmByHysteresis x s
  | .extdrvClear d => Sys2Proof.Machine.execExtdrvClear d s
  | .errorFrame c lec step => Sys2Proof.Machine.execErrorFrame c lec step s
  | .recessiveIdlePeriod c => Sys2Proof.Machine.execRecessiveIdlePeriod c s
  | .ethernetLinkChange pt up => Sys2Proof.Machine.execEthernetLinkChange pt up s
  | .dhcpAnswer pt ip => Sys2Proof.Machine.execDhcpAnswer pt ip s
  | .compaction words => Sys2Proof.Machine.execCompaction words s

end Sys2Proof.Machine
end

