-- ==== Sys2Proof/Safety.lean ====
section
/-! DEFINITION. What counts as a safe step, and the invariant that every step keeps. -/

namespace Sys2Proof.Machine

/-- A step that goes on. -/
def Goes (s : State) : Prop := ∃ t, step s = .next t

/-- Every image and word data stand in their canonical form (01 R31, 02 R68). -/
def State.memWf (s : State) : Prop := SMap.wf (fun _ => (0 : Word)) s.mem = true

/-- A place of one bit holds 0 or 1 (02 R69). -/
def State.bitsWf (s : State) : Prop := ∀ a, (place a).isBit = true → s.memGet a &&& 1 = s.memGet a

/-- The recorder's queue holds at most 64 entries (15 R522). -/
def State.queueWf (s : State) : Prop := s.er.queue.length ≤ 64

/-- Sources 0x2E and 0x2F carry TARGET 0x8 (08 R307). -/
def State.fixedSources (s : State) : Prop := (s.src 0x2E).target = 8 ∧ (s.src 0x2F).target = 8

/-- The invariant: memory in its canonical form with bits in its bit places, the recorder's queue within its size, and
the house core's own sources at their target. -/
structure State.Inv (s : State) : Prop where
  mem : s.memWf
  bits : s.bitsWf
  queue : s.queueWf
  fixed : s.fixedSources

/-! ### What the statements say of a command -/

/-- The command has this effect: it answers a next state, and `P` holds of it. -/
def Answers (i : Instr) (s : State) (P : State → Prop) : Prop := ∃ t, exec i s = .next t ∧ P t

/-- Master m is there, and the port's Access codes let its world move into address a (00 R9, 13 R484). -/
def State.lets (s : State) (m : Master) (a : Nat) : Prop := s.masterExists m = true ∧ mayWrite m.world a = true

/-- Lane l of a region of this variant runs alone with nothing in flight, and the flags it holds are those of an earlier
move. -/
def State.ready (s : State) (l : Nat) : Prop :=
  regionPresent (l / 2) = true ∧ s.side l = .solo ∧ (s.lane l).items = [] ∧ (s.lane l).pend = [] ∧ (s.lane l).blq = [] ∧ (s.lane l).iuq = [] ∧
  (s.lane l).evq = [] ∧ (s.lane l).macBusy ≤ (s.lane l).cyc ∧ (s.lane l).flagSeq ≤ 64 * s.nextSeq l

/-- No store that the region of lane l issued before lane l's next move waits (01 R35). -/
def State.storesBefore (s : State) (l : Nat) : Prop := s.storeBefore l (64 * s.nextSeq l + 63) = false

/-- Owl-A's and Owl-B's copies of the signatures of region r agree (06 R247). -/
def State.owlsAgree (s : State) (r : Nat) : Prop :=
  (s.lane (2 * r)).sig = (s.lane (2 * r)).sigB ∧ (s.lane (2 * r + 1)).sig = (s.lane (2 * r + 1)).sigB

/-- Nothing but lane l differs. -/
def State.onlyLane (s t : State) (l : Nat) : Prop := t = { s with lanes := t.lanes } ∧ ∀ k, k ≠ l → t.lane k = s.lane k

/-- A trigger of lane l, and the result of group g that it makes appear: the unit's result ports and the flags are those
of r, and nothing else differs but the lane's count of moves. -/
def Computes (i : Instr) (l : Fin 8) (g : ResGroup) (s : State) (r : UnitRes) : Prop :=
  Answers i s (fun t => s.onlyLane t l.val ∧ Answers (.resultAppears l g) t (fun u =>
    s.onlyLane u l.val ∧
    u.lane l.val =
      { (s.lane l.val).setPorts r.ports with
        seq := s.nextSeq l.val
        flagSeq := 64 * s.nextSeq l.val
        flags := { (s.lane l.val).flags with
          z := r.z, n := r.n, c := r.c, v := r.v
          dz := (s.lane l.val).flags.dz || r.dz, sat := (s.lane l.val).flags.sat || r.sat } }))

/-- Session i is open with the role OWNER, the boot is done, and no long operation runs. -/
def State.serves (s : State) (i : Nat) : Prop :=
  (s.session i).opened = true ∧ s.hc.op = none ∧ s.boot = .done ∧ (s.session i).role = .owner

/-- From s to t the module sends one reply on session i, under the next record number; a session of the mailbox has the
record's bytes added to its stream (11 R411). -/
def State.replied (s t : State) (i : Nat) (cmd tag : BitVec 16) (st : RStat) (reason : BitVec 16) (ws : List Word) : Prop :=
  t.hc.outbox = s.hc.outbox ++ [.reply i cmd tag st reason ws] ∧ (t.session i).txSeq = (s.session i).txSeq + 1 ∧
  t.hc.mbOut = (if (s.session i).path = .mailbox then s.hc.mbOut ++ hostRecord (s.session i) (.reply i cmd tag st reason ws)
                else s.hc.mbOut)

/-- A key store command of the house core and the completion of its operation, with nothing waiting in front of it. -/
def KsRuns (i : Instr) (s : State) (P : State → Prop) : Prop := Answers i s (fun t => Answers (.ksOpComplete true) t P)

/-- The session, tag and request of a host command (11 R418, R421). -/
def requestOf : Instr → Option (Fin 4 × BitVec 16 × HostReq)
  | .hostStatus i tag => some (i, tag, .status)
  | .hostIdent i tag => some (i, tag, .ident)
  | .hostRegion i tag n => some (i, tag, .region n)
  | .hostMoves i tag ms => some (i, tag, .moves ms)
  | .cover i tag n split runOdd => some (i, tag, .cover n split runOdd)
  | .lastop i tag => some (i, tag, .lastop)
  | .ping i tag => some (i, tag, .ping)
  | .hostLoad i tag f => some (i, tag, .load f)
  | .exchange i tag n keep f => some (i, tag, .exchange n keep f)
  | .fwstage i tag => some (i, tag, .fwstage)
  | .recclr i tag tok => some (i, tag, .recclr tok)
  | .memtest i tag => some (i, tag, .memtest)
  | .settdump i tag => some (i, tag, .settdump)
  | .opdata i tag bs => some (i, tag, .opdata bs)
  | .opend i tag len d => some (i, tag, .opend len d)
  | .opcancel i tag => some (i, tag, .opcancel)
  | _ => none

/-- The master and the port of a trigger move into a shared unit: the address its unit's port table gives it (02 R69, R71). -/
def triggerOf : Instr → Option (Master × Nat)
  | .icCfg m _ => some (m, 0x401)
  | .icDone m _ => some (m, 0x404)
  | .icRaise m _ => some (m, 0x405)
  | .icClr m _ => some (m, 0x406)
  | .icHold m _ => some (m, 0x409)
  | .bdAns m _ => some (m, 0x801)
  | .bdChk m _ => some (m, 0x802)
  | .bdStart m _ => some (m, 0x81C)
  | .mrRd m _ => some (m, 0x889)
  | .fdRst m _ => some (m, 0x908)
  | .fdCrst m _ => some (m, 0x909)
  | .fdDclr m _ => some (m, 0x90A)
  | .fdDrd m _ => some (m, 0x90D)
  | .ptWr m _ => some (m, 0x948)
  | .ptDis m _ => some (m, 0x949)
  | .ptPreset m _ => some (m, 0x950)
  | .ptHome m _ => some (m, 0x951)
  | .ptRd m _ => some (m, 0x958)
  | .fbAck m _ => some (m, 0x990)
  | .fbTxreq m _ => some (m, 0x995)
  | .fbSput m _ => some (m, 0x998)
  | .ksBw m _ => some (m, 0xAC5)
  | .ksBr m _ => some (m, 0xAC6)
  | .rtSnap m _ => some (m, 0xB00)
  | .rtSet m _ => some (m, 0xB0A)
  | .erRd m _ => some (m, 0xB42)
  | .erFind m _ => some (m, 0xB44)
  | .erLog m _ => some (m, 0xB53)
  | .stCmd m _ => some (m, 0xB90)
  | .stRrd m _ => some (m, 0xB93)
  | .ftSet m _ => some (m, 0xBC4)
  | .ftClr m _ => some (m, 0xBC5)
  | .ftClrall m _ => some (m, 0xBC6)
  | .ftRd m _ => some (m, 0xBC7)
  | _ => none

end Sys2Proof.Machine
end

