-- ==== Sys2Proof/Certificates/Slice0/Obligations.lean ====
section
/-! DEFINITION. The statements for the provers. Each says in its docstring which rules of spec/ it follows (a file's number and
R<n>); OBLIGATIONS.json lists them. `Answers c s P` says that command c answers a next state in s and that P holds of it. -/

section Slice0Obligations

open Sys2Proof Sys2Proof.Machine

/-- A step of a block whose queue holds a command is that command on the state with the rest of the queue. -/
def Obligations.StepRunsCommand : Prop :=
  ∀ (s : State) (c : Instr) (q : List Instr), step { s with pending := c :: q } = exec c { s with pending := q }

/-- With nothing waiting, a lane cycle passes (the model's choice, notes/assumptions/1.md): 1.25 ns in Cool mode, 1.667 ns in
Warm mode (00 R7), and nothing else changes. -/
def Obligations.IdleStep : Prop :=
  ∀ (s : State), s.pending = [] → step s = .next { s with time := s.time + if s.warm then 20 else 15 }

/-- Every well-formed command goes on, and leaves the commands that wait as they are; one whose operands the hardware has no
place for stops under the name operandRange. Clauses that follow the model's reading and no rule's words:
notes/assumptions/9.md. -/
def Obligations.EveryCommandGoesOn : Prop :=
  ∀ (i : Instr) (s : State), (i.wf = true → ∃ t, exec i s = .next t ∧ t.pending = s.pending) ∧
    (i.wf = false → exec i s = .fault .operandRange)

/-- Reset (16 R532, R535; 01 R31; 08 R307; 14 R494): no program and no session, every image and port at its reset value, the
boot not carried out, and the fixed sources at the house core. Clauses that follow the model's reading and no rule's words:
notes/assumptions/8.md. -/
def Obligations.ResetState : Prop :=
  State.reset.boot = .running ∧ State.reset.warm = true ∧ State.reset.pending = [] ∧ State.reset.prog.valid = false ∧
  (∀ a, State.reset.memGet a = 0) ∧ (∀ p, p < 8 → (State.reset.lp p).st = .boot) ∧ State.reset.hc.sess = [] ∧
  State.reset.bd.q = 0x1234 ∧ State.reset.bd.st = .stopped ∧ State.reset.ks.lc = 1 ∧ State.reset.pl.role = 0 ∧
  (State.reset.src 0x2E).target = 8 ∧ State.reset.mstate = .boot

/-- The invariant holds at reset. Clauses that follow the model's reading and no rule's words: notes/assumptions/7.md. -/
def Obligations.InvariantAtReset : Prop :=
 State.reset.Inv

/-- Every step keeps the invariant: memory in its canonical form, 0 or 1 in every place of one bit (02 R69), at most 64 entries
in the recorder's queue (15 R522), and sources 0x2E and 0x2F at target 8 (08 R307). Clauses that follow the model's reading
and no rule's words: notes/assumptions/7.md. -/
def Obligations.StepKeepsInvariant : Prop := ∀ (s t : State), s.Inv → step s = .next t → t.Inv

/-- Word data, markers and output images (02 R68, R69): a written place reads the stored value, bit 0 of it where the place is
one bit, and every other place reads as before. Clauses that follow the model's reading and no rule's words:
notes/assumptions/7.md. -/
def Obligations.MemoryPlaces : Prop :=
  ∀ (s : State) (a b : Nat) (v : Word),
    (s.memSet a v).memGet a = (if (place a).isBit then v &&& 1 else v) ∧ (b ≠ a → (s.memSet a v).memGet b = s.memGet b) ∧
    (s.memWf → (s.memSet a v).memWf) ∧ (s.memWf → s.memGet a = v → (place a).isBit = false → s.memSet a v = s)

/-- A bundle of one move from a short immediate into an operand port, its other guards never true (01 R25; 02 R62-R66, R72): the
port takes the immediate and the lane goes on to the next bundle. The trail of a paired region repeats the next bundle of
its lead (06 R226, R227): here one move of a short immediate into an operand port, as Obligations.BundleMovesImmediate has
it for a lane alone. -/
def Obligations.BundleMoves : Prop :=
  (∀ (s : State) (l : Fin 8) (a d : Nat) (r : PortRow), s.ready l.val → s.mayIssue l.val = true → (s.region (l.val / 2)).errs = [] →
    let x := s.lane l.val
    let b := s.bundleAt l.val x.pc
    x.pc ≤ lastBundle → 0x1000 ≤ a → a < 0x2000 → portRow d = some r → r.dir = .op → d < 0x400 →
    slotBits b 0 = (0 : BitVec 4) ++ BitVec.ofNat 22 a ++ BitVec.ofNat 22 d →
    (∀ k, 1 ≤ k → k ≤ 3 → (slotBits b k).extractLsb' 44 4 = 1 ∧ (slotBits b k).extractLsb' 22 22 ≠ 0x3FFFFF) →
    Answers (.bundleIssue l) s (fun t => s.onlyLane t l.val ∧
      t.lane l.val = { x.setPort d (narrow r.width (BitVec.ofNat 32 a - 0x1800)) with
        seq := s.nextSeq l.val, cyc := x.cyc + 1, last := x.pc, pc := x.pc + 1, bcnt := x.bcnt + 1, wcnt := x.wcnt + 1 })) ∧
  (∀ (s : State) (r : Fin 4) (a d : Nat) (w : PortRow) (rest : List Repeat), s.paired r.val = true → (s.region r.val).errs = [] →
    (s.region r.val).outstanding = .bundle none false :: rest → s.owlsAgree r.val →
    let l := 2 * r.val + 1
    let x := s.lane l
    let b := s.bundleAt l x.pc
    x.items = [] → x.pend = [] → x.blq = [] → x.iuq = [] → x.evq = [] → x.wait = false → x.idleH = false →
    x.wcnt + 1 < (s.region r.val).window → x.pc ≤ lastBundle →
    0x1000 ≤ a → a < 0x2000 → portRow d = some w → w.dir = .op → d < 0x400 →
    slotBits b 0 = (0 : BitVec 4) ++ BitVec.ofNat 22 a ++ BitVec.ofNat 22 d →
    (∀ k, 1 ≤ k → k ≤ 3 → (slotBits b k).extractLsb' 44 4 = 1 ∧ (slotBits b k).extractLsb' 22 22 ≠ 0x3FFFFF) →
    Answers (.trailIssue r) s (fun t => (t.region r.val).outstanding = rest ∧ (∀ k, k ≠ l → t.lane k = s.lane k) ∧
      t.lane l = { x.setPort d (narrow w.width (BitVec.ofNat 32 a - 0x1800)) with
        seq := x.seq + 1, cyc := x.cyc + 1, last := x.pc, pc := x.pc + 1, bcnt := x.bcnt + 1, wcnt := x.wcnt + 1 } ∧
      t = { s with lanes := t.lanes, regions := t.regions }))

/-- The lane's own events (01 R21; 02 R81-R84): a load's value reaches the port that waits for it, a posted store reaches
memory, and a trigger that its unit does not accept waits until it does. The result of an operation in flight appears: its
ports, and its flags unless a later operation's stand (01 R20; 02 R75; 03 R104). Clauses that follow the model's reading and
no rule's words: notes/assumptions/203.md, notes/assumptions/204.md. -/
def Obligations.LaneEvents : Prop :=
  (∀ (s : State) (l : Fin 8) (i : Item) (v : Word), s.side l.val = .solo → (∀ r, (s.region r).errs = []) →
    let x := s.lane l.val
    x.items = [i] → x.pend = [] → x.blq = [] → x.iuq = [] → x.evq = [] →
    (∀ a, i.dst = 0x80 → i.val = none → i.ld = some ⟨a, some v⟩ →
      Answers (.loadDelivery l 0) s (fun t => s.onlyLane t l.val ∧ t.lane l.val = { x.setPort 0x80 v with items := [] })) ∧
    ((place i.dst = .word ∨ place i.dst = .outBit ∨ place i.dst = .marker) → i.val = some v → i.ld = none → s.storeBefore l.val i.seq = false →
      Answers (.storePerformed l) s (fun t => t = { s with lanes := t.lanes, mem := t.mem } ∧ t.lane l.val = { x with items := [] } ∧
        (∀ k, k ≠ l.val → t.lane k = s.lane k) ∧ t.memGet i.dst = (if place i.dst = .word then v else v &&& 1) ∧
        ∀ a, a ≠ i.dst → t.memGet a = s.memGet a)) ∧
    (i.dst = 0x18D → i.val = some v → i.ld = none →
      (x.cyc + 1 < x.macBusy → Answers (.triggerWriteWait l) s (fun t => s.onlyLane t l.val ∧ t.lane l.val = { x with cyc := x.cyc + 1 })) ∧
      (x.cyc + 1 = x.macBusy → Answers (.triggerWriteWait l) s (fun t => s.onlyLane t l.val ∧ (t.lane l.val).items = [] ∧
        (t.lane l.val).opX = x.opX.set (fun _ => 0) (x.port 0x188).toNat v)))) ∧
  (∀ (s : State) (l : Fin 8) (r : Pend) (rest : List Pend) (z n c v : Bool), s.side l.val = .solo →
    let x := s.lane l.val
    x.items = [] → x.evq = [] → x.pend = r :: rest → r.g ≠ .bl → r.g ≠ .ls → r.arith = false → r.fl = some (z, n, c, v) → r.acc = none →
    Answers (.resultAppears l r.g) s (fun t => s.onlyLane t l.val ∧
      (t.lane l.val).pend = rest ∧ (t.lane l.val).ports = (x.setPorts r.ports).ports ∧
      (x.flagSeq ≤ r.seq → (t.lane l.val).flags =
        { x.flags with z := z, n := n, c := c, v := v, dz := x.flags.dz || r.dz, sat := x.flags.sat || r.sat }) ∧
      (r.seq < x.flagSeq → (t.lane l.val).flags = { x.flags with dz := x.flags.dz || r.dz, sat := x.flags.sat || r.sat })))

/-- A write to a register that has no command of its own (01 R11; 02 R69, R70): a logical processor's move into an operand port
of its lane, and a master's move into a shared operand port of its own, narrowed to the port. -/
def Obligations.RegisterWrites : Prop :=
  (∀ (s : State) (n : Fin 8) (a : Addr) (v : Word) (r : PortRow), s.lpExists n.val = true → s.ready (s.laneOf n.val) →
    portRow a.toNat = some r → r.dir = .op → a.toNat < 0x400 →
    Answers (.registerWrite (.lp n) a v) s (fun t => s.onlyLane t (s.laneOf n.val) ∧
      t.lane (s.laneOf n.val) = { (s.lane (s.laneOf n.val)).setPort a.toNat (narrow r.width v) with
                                   seq := s.nextSeq (s.laneOf n.val) })) ∧
  (∀ (s : State) (m : Master) (v : Word), (∀ n, m ≠ .lp n) → m.world ≠ .sett →
    Answers (.registerWrite m 0x400 v) s (fun t => t = { s with mports := t.mports } ∧ t.mport m 0x400 = v &&& 0xFF ∧
      ∀ k b, (k ≠ m ∨ b ≠ 0x400) → b < 4096 → t.mport k b = s.mport k b))

/-- A port of a shared unit that its world may not write is a silent violation (13 R484-R486): counted and recorded, and nothing
else differs; so for a register write and for every trigger. A logical processor that is absent makes no move (04 R168). A
divide by zero with im.dze = 1 raises the arithmetic event source of the lane's logical processor as its result appears,
once, whether DZ stood or not (03 R115, R117; 08 R303, R304). Clauses that follow the model's reading and no rule's words:
notes/assumptions/302.md, notes/assumptions/1308.md. -/
def Obligations.SilentViolation : Prop :=
  ((∀ (s : State) (m : Master) (a : Addr) (v : Word), (∀ n, m ≠ .lp n) → place a.toNat = .shared → mayWrite m.world a.toNat = false →
    Answers (.registerWrite m a v) s (fun t =>
      t = { s with ks := { s.ks with vcnt := if s.ks.vcnt = BitVec.allOnes _ then s.ks.vcnt else s.ks.vcnt + 1 }, er := t.er } ∧
      (s.er.queue.length < 64 → t.er.queue.length = s.er.queue.length + 1))) ∧
  (∀ (s : State) (c : Instr) (m : Master) (a : Nat), triggerOf c = some (m, a) → s.masterExists m = true → mayWrite m.world a = false →
    Answers c s (fun t =>
      t = { s with ks := { s.ks with vcnt := if s.ks.vcnt = BitVec.allOnes _ then s.ks.vcnt else s.ks.vcnt + 1 }, er := t.er } ∧
      (s.er.queue.length < 64 → t.er.queue.length = s.er.queue.length + 1))) ∧
  (∀ (s : State) (c : Instr) (m : Master) (a : Nat), triggerOf c = some (m, a) → s.masterExists m = false → Answers c s (fun t => t = s))) ∧
  (∀ (s : State) (l : Fin 8) (p : Nat), s.ready l.val → s.lpFor l.val = p → p < 8 → s.boot = .done →
    (s.lane l.val).port 0xE0 = 1 → (s.src (8 + p)).cnt ≠ 255 →
    Answers (.imDiv l 0) s (fun t => Answers (.resultAppears l .imDiv) t (fun u =>
      (u.lane l.val).flags.dz = true ∧ (u.lane l.val).port 0xD2 = 0 ∧ (u.lane l.val).port 0xD3 = (s.lane l.val).port 0xC0 ∧
      u.src (8 + p) = { s.src (8 + p) with cnt := (s.src (8 + p)).cnt + 1 } ∧
      (∀ q, q ≠ 8 + p → u.src q = s.src q) ∧ (∀ k, k ≠ l.val → u.lane k = s.lane k) ∧
      u = { s with lanes := u.lanes, srcs := u.srcs })))

/-- The jumps (02 R88-R90): the lane's next bundle is the target. A call and a return (02 R91-R94): the call stores the flags
word and the return address below cu.sp and jumps; the return takes them back from cu.sp, with the flags and ACC that its
operand asks for. The return from a handler (08 R316): as a return that restores both, and the top of the level record
leaves it. cu.end ends the task (04 R158; 08 R319): the logical processor leaves the execution of the task, and its level
record empties. -/
def Obligations.ControlFlow : Prop :=
  (∀ (s : State) (l : Fin 8) (v : Word), s.ready l.val → s.mayIssue l.val = true → (s.region (l.val / 2)).errs = [] →
    let x := s.lane l.val
    let goes := fun (i : Instr) (t : Nat) => Answers i s (fun u => s.onlyLane u l.val ∧
      u.lane l.val = { x with seq := s.nextSeq l.val, cyc := x.cyc + 1, last := x.pc, pc := t, bcnt := x.bcnt + 1, wcnt := x.wcnt + 1 })
    x.pc ≤ lastBundle →
    (v.toNat ≤ lastBundle → goes (.cuJmp l v) v.toNat) ∧
    ((BitVec.ofNat 32 x.pc + v).toNat ≤ lastBundle → goes (.cuJrel l v) (BitVec.ofNat 32 x.pc + v).toNat)) ∧
  (∀ (s : State) (l : Fin 8) (v : Word), s.ready l.val → s.mayIssue l.val = true → (s.region (l.val / 2)).errs = [] →
    regionPresent (l.val / 2) = true →
    let x := s.lane l.val
    let sp := (x.port 0x008).toNat
    x.pc ≤ lastBundle → x.stackOk (l.val / 2) = true →
    ((x.port 0x009).toNat + 2 ≤ sp → s.storesBefore l.val → v.toNat ≤ lastBundle →
      Answers (.cuCall l v) s (fun t => Answers (.storePerformed l) t (fun u => Answers (.storePerformed l) u (fun r =>
        r = { s with lanes := r.lanes, mem := r.mem } ∧ (∀ k, k ≠ l.val → r.lane k = s.lane k) ∧
        r.lane l.val = { x.setPort 0x008 (BitVec.ofNat 32 (sp - 2)) with
          seq := s.nextSeq l.val, cyc := x.cyc + 1, last := x.pc, pc := v.toNat, bcnt := x.bcnt + 1, wcnt := x.wcnt + 1 } ∧
        r.memGet (sp - 1) = x.flagsWord ∧ r.memGet (sp - 2) = BitVec.ofNat 32 (x.pc + 1) ∧
        ∀ a, a ≠ sp - 1 → a ≠ sp - 2 → r.memGet a = s.memGet a)))) ∧
    (let back := (s.memGet sp).toNat % 2 ^ 18
     let saved := s.memGet (sp + 1)
     sp + 2 ≤ (x.port 0x00A).toNat → back ≤ lastBundle → saved.toNat / 2 ^ 16 % 32 ≤ x.bstk.length → saved.toNat / 2 ^ 16 % 32 ≤ 16 →
      Answers (.cuRet l v) s (fun t => s.onlyLane t l.val ∧ (t.lane l.val).pc = back ∧
        (t.lane l.val).port 0x008 = x.port 0x008 + 2 ∧ (t.lane l.val).bstk.length = saved.toNat / 2 ^ 16 % 32 ∧
        (t.lane l.val).flags = { x.flags with
          z := if v.getLsbD 0 then saved.getLsbD 0 else x.flags.z
          n := if v.getLsbD 0 then saved.getLsbD 1 else x.flags.n
          c := if v.getLsbD 0 then saved.getLsbD 2 else x.flags.c
          v := if v.getLsbD 0 then saved.getLsbD 3 else x.flags.v
          acc := if v.getLsbD 1 then saved.getLsbD 7 else x.flags.acc }))) ∧
  (∀ (s : State) (l : Fin 8) (v : Word) (p : Nat) (e : Level) (rest : List Level), s.ready l.val → s.mayIssue l.val = true →
    (s.region (l.val / 2)).errs = [] → s.lpOfLane l.val = some p → p < 8 → (s.lp p).levels = e :: rest → s.tailSource l.val ((s.lane l.val).bcnt + 1) = none →
    let x := s.lane l.val
    let sp := (x.port 0x008).toNat
    let back := (s.memGet sp).toNat % 2 ^ 18
    let saved := s.memGet (sp + 1)
    x.pc ≤ lastBundle → x.stackOk (l.val / 2) = true → sp + 2 ≤ (x.port 0x00A).toNat → back ≤ lastBundle →
    saved.toNat / 2 ^ 16 % 32 ≤ x.bstk.length → saved.toNat / 2 ^ 16 % 32 ≤ 16 →
    Answers (.cuReti l v) s (fun t => (t.lane l.val).pc = back ∧ (t.lane l.val).port 0x008 = x.port 0x008 + 2 ∧
      (t.lp p).levels = rest ∧ (t.lane l.val).flags = { x.flags with
        z := saved.getLsbD 0, n := saved.getLsbD 1, c := saved.getLsbD 2, v := saved.getLsbD 3, acc := saved.getLsbD 7 } ∧
      t = { s with lanes := t.lanes, lps := t.lps } ∧ (∀ k, k ≠ l.val → t.lane k = s.lane k) ∧ (∀ q, q ≠ p → t.lp q = s.lp q) ∧
      t.lp p = { s.lp p with levels := rest })) ∧
  (∀ (s : State) (l : Fin 8) (v : Word) (p : Nat), s.ready l.val → s.mayIssue l.val = true → (s.region (l.val / 2)).errs = [] →
    s.lpOfLane l.val = some p → p < 8 → (s.lane l.val).idleH = false → (s.lane l.val).pc ≤ lastBundle →
    Answers (.cuEnd l v) s (fun t => t.lp p = { s.lp p with levels := [], phase := if (s.lp p).phase = .init then .initEnd else .taskEnd } ∧
      (∀ q, q ≠ p → t.lp q = s.lp q) ∧ (∀ k, k ≠ l.val → t.lane k = s.lane k) ∧ t = { s with lanes := t.lanes, lps := t.lps }))

/-- Integer addition, subtraction, negation and absolute value (03 R112, R114, R124): result, sign word and flags. Logic, moves,
shifts and rotates of the integer unit (03 R112-R114): result, sign word and flags. -/
def Obligations.Integer32 : Prop :=
  (∀ (s : State) (l : Fin 8) (b : Word), s.ready l.val →
    let a := (s.lane l.val).port 0x80
    let cin := (s.lane l.val).flags.c
    let k : Nat := if cin then 1 else 0
    let sat := fun (x : Int) => max (-2 ^ 31) (min (2 ^ 31 - 1) x)
    let out := fun (x : Int) => decide (x < -2 ^ 31 ∨ 2 ^ 31 - 1 < x)
    Computes (.iaAdd l b) l .ia s (ia32 (a + b) (decide (2 ^ 32 ≤ a.toNat + b.toNat)) (out (a.toInt + b.toInt))) ∧
    Computes (.iaAddc l b) l .ia s
      (ia32 (a + b + BitVec.ofNat 32 k) (decide (2 ^ 32 ≤ a.toNat + b.toNat + k)) (out (a.toInt + b.toInt + k))) ∧
    Computes (.iaSub l b) l .ia s (ia32 (a - b) (decide (a.toNat < b.toNat)) (out (a.toInt - b.toInt))) ∧
    Computes (.iaSubb l b) l .ia s
      (ia32 (a - b - BitVec.ofNat 32 k) (decide (a.toNat < b.toNat + k)) (out (a.toInt - b.toInt - k))) ∧
    Computes (.iaAdds l b) l .ia s (ia32 (BitVec.ofInt 32 (sat (a.toInt + b.toInt))) (decide (2 ^ 32 ≤ a.toNat + b.toNat))
      (out (a.toInt + b.toInt)) (out (a.toInt + b.toInt))) ∧
    Computes (.iaSubs l b) l .ia s (ia32 (BitVec.ofInt 32 (sat (a.toInt - b.toInt))) (decide (a.toNat < b.toNat))
      (out (a.toInt - b.toInt)) (out (a.toInt - b.toInt))) ∧
    Computes (.iaNeg l b) l .ia s (ia32 (-b) (decide (b ≠ 0)) (decide (b = 0x80000000))) ∧
    Computes (.iaNegs l b) l .ia s
      (ia32 (if b = 0x80000000 then 0x7FFFFFFF else -b) false (decide (b = 0x80000000)) (decide (b = 0x80000000))) ∧
    Computes (.iaAbs l b) l .ia s (ia32 (if b.toInt < 0 then -b else b) false (decide (b = 0x80000000))) ∧
    Computes (.iaAbss l b) l .ia s (ia32 (if b = 0x80000000 then 0x7FFFFFFF else if b.toInt < 0 then -b else b) false
      (decide (b = 0x80000000)) (decide (b = 0x80000000)))) ∧
  (∀ (s : State) (l : Fin 8) (b : Word), s.ready l.val →
    let a := (s.lane l.val).port 0x80
    let k := b.toNat
    Computes (.iaAnd l b) l .ia s (ia32 (a &&& b) false false) ∧
    Computes (.iaOr l b) l .ia s (ia32 (a ||| b) false false) ∧
    Computes (.iaXor l b) l .ia s (ia32 (a ^^^ b) false false) ∧
    Computes (.iaAndn l b) l .ia s (ia32 (a &&& ~~~b) false false) ∧
    Computes (.iaNot l b) l .ia s (ia32 (~~~b) false false) ∧
    Computes (.iaMov l b) l .ia s (ia32 b false false) ∧
    Computes (.iaZext l b) l .ia s
      { ports := [(0xA0, b), (0xA1, 0)], z := decide (b = 0), n := false, c := false, v := false } ∧
    Computes (.iaShl l b) l .ia s (ia32 (a <<< k) (decide (1 ≤ k ∧ k ≤ 32) && a.getLsbD (32 - k)) false) ∧
    Computes (.iaShr l b) l .ia s (ia32 (a >>> k) (decide (1 ≤ k ∧ k ≤ 32) && a.getLsbD (k - 1)) false) ∧
    Computes (.iaSar l b) l .ia s
      (ia32 (a.sshiftRight k) (if 32 < k then a.msb else decide (1 ≤ k) && a.getLsbD (k - 1)) false) ∧
    Computes (.iaRotl l b) l .ia s
      (ia32 (a.rotateLeft (k % 32)) (decide (k % 32 ≠ 0) && (a.rotateLeft (k % 32)).getLsbD 0) false) ∧
    Computes (.iaRotr l b) l .ia s
      (ia32 (a.rotateRight (k % 32)) (decide (k % 32 ≠ 0) && (a.rotateRight (k % 32)).getLsbD 31) false))

/-- The 64-bit operations of the integer unit (03 R103, R112-R114, R124): both result words and the flags. -/
def Obligations.Integer64 : Prop :=
  ∀ (s : State) (l : Fin 8) (b : Word), s.ready l.val →
    let a := (s.lane l.val).port 0x81 ++ (s.lane l.val).port 0x80
    let c := (s.lane l.val).port 0x82 ++ b
    let k := b.toNat
    let out := fun (x : Int) => decide (x < -2 ^ 63 ∨ 2 ^ 63 - 1 < x)
    Computes (.iaAdd64 l b) l .ia s (ia64 (a + c) (decide (2 ^ 64 ≤ a.toNat + c.toNat)) (out (a.toInt + c.toInt))) ∧
    Computes (.iaSub64 l b) l .ia s (ia64 (a - c) (decide (a.toNat < c.toNat)) (out (a.toInt - c.toInt))) ∧
    Computes (.iaNeg64 l b) l .ia s (ia64 (-c) (decide (c ≠ 0)) (decide (c = 0x8000000000000000))) ∧
    Computes (.iaShl64 l b) l .ia s (ia64 (a <<< k) (decide (1 ≤ k ∧ k ≤ 64) && a.getLsbD (64 - k)) false) ∧
    Computes (.iaShr64 l b) l .ia s (ia64 (a >>> k) (decide (1 ≤ k ∧ k ≤ 64) && a.getLsbD (k - 1)) false) ∧
    Computes (.iaSar64 l b) l .ia s
      (ia64 (a.sshiftRight k) (if 64 < k then a.msb else decide (1 ≤ k) && a.getLsbD (k - 1)) false)

/-- Multiplies and divides (03 R115-R117, R124). A divide here finds im.dze = 0; Obligations.ArithmeticEvent has the other case. -/
def Obligations.MultiplyDivide : Prop :=
  ∀ (s : State) (l : Fin 8) (b : Word), s.ready l.val →
    let a := (s.lane l.val).port 0xC0
    let p := a.toInt * b.toInt
    let out := decide (p < -2 ^ 31 ∨ 2 ^ 31 - 1 < p)
    let r : Word := BitVec.ofInt 32 (max (-2 ^ 31) (min (2 ^ 31 - 1) p))
    Computes (.imMul l b) l .imMul s (imProduct (BitVec.ofInt 64 p) (!out)) ∧
    Computes (.imMulu l b) l .imMul s
      (imProduct (BitVec.ofNat 64 (a.toNat * b.toNat)) (decide (a.toNat * b.toNat < 2 ^ 32))) ∧
    Computes (.imMuls l b) l .imMul s
      { ports := [(0xD0, r), (0xD1, if r.msb then 0xFFFFFFFF else 0)], z := decide (r = 0), n := r.msb, c := false,
        v := out, sat := out } ∧
    ((s.lane l.val).port 0xE0 = 0 →
      (b ≠ 0 →
        Computes (.imDiv l b) l .imDiv s (imQuotient (BitVec.ofInt 32 (a.toInt.tdiv b.toInt))
          (BitVec.ofInt 32 (a.toInt.tmod b.toInt)) (decide (a = 0x80000000 ∧ b = 0xFFFFFFFF)) false) ∧
        Computes (.imDivu l b) l .imDiv s (imQuotient (a / b) (a % b) false false)) ∧
      (b = 0 → Computes (.imDiv l b) l .imDiv s (imQuotient 0 a false true) ∧
        Computes (.imDivu l b) l .imDiv s (imQuotient 0 a false true)))

/-- Compares and the test (03 R118, R119): the nine result ports and the flags. -/
def Obligations.Compares : Prop :=
  ∀ (s : State) (l : Fin 8) (b : Word), s.ready l.val →
    let a := (s.lane l.val).port 0x140
    let la := (s.lane l.val).port 0x141 ++ a
    let lb := (s.lane l.val).port 0x142 ++ b
    let fa := binary32.read a.toNat
    let fb := binary32.read b.toNat
    let da := binary64.read la.toNat
    let db := binary64.read lb.toNat
    Computes (.cpCmp l b) l .cp s
      { ports := cpPorts (decide (a = b)) (decide (a.toInt < b.toInt)) (decide (a.toInt ≤ b.toInt))
          (decide (b.toInt < a.toInt)) (decide (b.toInt ≤ a.toInt)) (decide (a.toNat < b.toNat)) (decide (b.toNat ≤ a.toNat)) false,
        z := decide (a = b), n := (a - b).msb, c := decide (a.toNat < b.toNat),
        v := decide (a.toInt - b.toInt < -2 ^ 31 ∨ 2 ^ 31 - 1 < a.toInt - b.toInt) } ∧
    Computes (.cpCmp64 l b) l .cp s
      { ports := cpPorts (decide (la = lb)) (decide (la.toInt < lb.toInt)) (decide (la.toInt ≤ lb.toInt))
          (decide (lb.toInt < la.toInt)) (decide (lb.toInt ≤ la.toInt)) (decide (la.toNat < lb.toNat))
          (decide (lb.toNat ≤ la.toNat)) false,
        z := decide (la = lb), n := (la - lb).msb, c := decide (la.toNat < lb.toNat),
        v := decide (la.toInt - lb.toInt < -2 ^ 63 ∨ 2 ^ 63 - 1 < la.toInt - lb.toInt) } ∧
    Computes (.cpCmpf l b) l .cp s (cpFloat (fa.isNan || fb.isNan) (fa.cmp fb).1 (fa.cmp fb).2) ∧
    Computes (.cpCmpd l b) l .cp s (cpFloat (da.isNan || db.isNan) (da.cmp db).1 (da.cmp db).2) ∧
    Computes (.cpTst l b) l .cp s
      { ports := [(0x150, bit (decide (a &&& b = 0))), (0x151, bit (decide (a &&& b ≠ 0))), (0x152, 0), (0x153, 0),
          (0x154, 0), (0x155, 0), (0x156, 0), (0x157, 0), (0x158, 0)],
        z := decide (a &&& b = 0), n := (a &&& b).msb, c := false, v := false }

/-- Floating-point operations (03 R120-R124) on their exact values, rounded once; a divide here finds im.dze = 0. Reading and
writing the two float formats (03 R121): every pattern that is no NaN comes back as it was, and every NaN comes back as the
canonical one. -/
def Obligations.FloatingPoint : Prop :=
  (∀ (s : State) (l : Fin 8) (b : Word), s.ready l.val →
    let a := (s.lane l.val).port 0x100
    let fa := binary32.read a.toNat
    let fb := binary32.read b.toNat
    let da := binary64.read ((s.lane l.val).port 0x101 ++ a).toNat
    let db := binary64.read ((s.lane l.val).port 0x102 ++ b).toNat
    let n := Flt.ofScaled b.toInt 0 false
    Computes (.fpFadd l b) l .fp s (fp32 (fa.add fb)) ∧ Computes (.fpFsub l b) l .fp s (fp32 (fa.add fb.neg)) ∧
    Computes (.fpFmul l b) l .fp s (fp32 (fa.mul fb)) ∧
    Computes (.fpDadd l b) l .fp s (fp64 (da.add db)) ∧ Computes (.fpDsub l b) l .fp s (fp64 (da.add db.neg)) ∧
    Computes (.fpDmul l b) l .fp s (fp64 (da.mul db)) ∧
    Computes (.fpItof l b) l .fp s (fp32 n) ∧ Computes (.fpItod l b) l .fp s (fp64 n) ∧
    Computes (.fpFtoi l b) l .fp s (fpInt (fb.toInt false)) ∧ Computes (.fpFtrunc l b) l .fp s (fpInt (fb.toInt true)) ∧
    Computes (.fpDtoi l b) l .fp s (fpInt (db.toInt false)) ∧ Computes (.fpDtrunc l b) l .fp s (fpInt (db.toInt true)) ∧
    Computes (.fpFtod l b) l .fp s (fp64 fb) ∧ Computes (.fpDtof l b) l .fp s (fp32 db) ∧
    ((s.lane l.val).port 0xE0 = 0 →
      Computes (.fpFdiv l b) l .fp s (fp32 (fa.div fb) (fa.divZero fb)) ∧
      Computes (.fpDdiv l b) l .fp s (fp64 (da.div db) (da.divZero db)))) ∧
  ((∀ w : Word, (binary32.read w.toNat).isNan = false → binary32.write (binary32.read w.toNat) = w.toNat) ∧
  (∀ w : BitVec 64, (binary64.read w.toNat).isNan = false → binary64.write (binary64.read w.toNat) = w.toNat) ∧
  binary32.write .nan = 0x7FC00000 ∧ binary64.write .nan = 0x7FF8000000000000)

/-- The multiply-accumulate unit (03 R125-R128): a run and a load of the accumulator give their results and flags, the operand
memories are written with their index advanced and read into mac.v. A run whose partial sums all fit 72 bits adds the n
products of consecutive words, without a window (03 R127). -/
def Obligations.MultiplyAccumulate : Prop :=
  (∀ (s : State) (l : Fin 8) (b : Word), s.ready l.val → (s.region (l.val / 2)).errs = [] →
    let x := s.lane l.val
    let n := b.toNat % 65536
    let done := fun (y : Lane) (r : UnitRes × BitVec 72) =>
      { y.setPorts r.1.ports with
        seq := s.nextSeq l.val, flagSeq := 64 * s.nextSeq l.val, acc72 := r.2
        flags := { y.flags with z := r.1.z, n := r.1.n, c := r.1.c, v := r.1.v, dz := y.flags.dz || r.1.dz, sat := y.flags.sat || r.1.sat } }
    let xa := (x.port 0x188).toNat
    let ya := (x.port 0x189).toNat
    Answers (.macRun l b) s (fun t => Answers (.resultAppears l .macRun) t (fun u =>
      s.onlyLane u l.val ∧
      u.lane l.val = { done x (macRun x.macPorts x.opX x.opY x.acc72 n) with macBusy := x.cyc + max n 1 })) ∧
    Answers (.macLdacc l b) s (fun t => Answers (.resultAppears l .macRun) t (fun u =>
      s.onlyLane u l.val ∧
      u.lane l.val = done x (macDone x.macPorts ((x.port 0x18B).setWidth 8 ++ x.port 0x18A ++ b : BitVec 72).toInt false []))) ∧
    Answers (.macXw l b) s (fun t => s.onlyLane t l.val ∧
      t.lane l.val = { x.setPort 0x188 (BitVec.ofNat 32 (x.macPorts.advx xa 1)) with
                       seq := s.nextSeq l.val, opX := x.opX.set (fun _ => 0) xa b }) ∧
    Answers (.macYw l b) s (fun t => s.onlyLane t l.val ∧
      t.lane l.val = { x.setPort 0x189 (BitVec.ofNat 32 ((ya + 1) % 8192)) with
                       seq := s.nextSeq l.val, opY := x.opY.set (fun _ => 0) ya b }) ∧
    Answers (.macXr l b) s (fun t => Answers (.resultAppears l .macV) t (fun u => s.onlyLane u l.val ∧
      u.lane l.val = { x.setPort 0x1A1 (x.opX.get (fun _ => 0) (b.toNat % 8192)) with seq := s.nextSeq l.val })) ∧
    Answers (.macYr l b) s (fun t => Answers (.resultAppears l .macV) t (fun u => s.onlyLane u l.val ∧
      u.lane l.val = { x.setPort 0x1A1 (x.opY.get (fun _ => 0) (b.toNat % 8192)) with seq := s.nextSeq l.val }))) ∧
  (∀ (p : MacPorts) (xm ym : SMap Word) (acc : BitVec 72) (n : Nat), p.xlen = 0 → p.sx = 1 → p.sy = 1 → p.mode = 0 →
    p.px < 8192 → p.py < 8192 →
    let term := fun (k : Nat) => (xm.get (fun _ => 0) ((p.px + k) % 8192)).toInt * (ym.get (fun _ => 0) ((p.py + k) % 8192)).toInt
    let sum := fun (k : Nat) => ((List.range k).map term).foldl (· + ·) acc.toInt
    (∀ k, k ≤ n → -2 ^ 71 ≤ sum k ∧ sum k < 2 ^ 71) →
    (macRun p xm ym acc n).2.toInt = sum n ∧ (macRun p xm ym acc n).1.v = false ∧
    (macRun p xm ym acc n).1.z = decide (sum n = 0))

/-- The indexed load and store unit (03 R130, R131): the address is base plus index, plus the operand for a load; the index
advances; a load shows its value in ls.r and a store reaches memory when it is performed. -/
def Obligations.IndexedAccess : Prop :=
  ∀ (s : State) (l : Fin 8) (b : Word), s.ready l.val → s.storesBefore l.val → (∀ r, (s.region r).errs = []) →
    let x := s.lane l.val
    let next := x.port 0x1C1 + x.port 0x1C2
    let ld := (x.port 0x1C0 + x.port 0x1C1 + b).toNat % 2 ^ 22
    let st := (x.port 0x1C0 + x.port 0x1C1).toNat % 2 ^ 22
    let loads := fun (i : Instr) => Answers i s (fun t => Answers (.resultAppears l .ls) t (fun u =>
      s.onlyLane u l.val ∧ u.lane l.val = { (x.setPort 0x1C1 next).setPort 0x1D0 (s.memGet ld) with seq := s.nextSeq l.val }))
    let stores := fun (i : Instr) (w : Word) => Answers i s (fun t => Answers (.storePerformed l) t (fun u =>
      u = { s with lanes := u.lanes, mem := u.mem } ∧ u.lane l.val = { x.setPort 0x1C1 next with seq := s.nextSeq l.val } ∧
      (∀ k, k ≠ l.val → u.lane k = s.lane k) ∧ u.memGet st = w ∧ ∀ k, k ≠ st → u.memGet k = s.memGet k))
    (place ld = .word → loads (.lsLd l b)) ∧ ((place ld).isBit = true → loads (.lsLdb l b)) ∧
    (place st = .word → stores (.lsSt l b) b) ∧
    ((place st = .outBit ∨ place st = .marker) → stores (.lsStb l b) (b &&& 1))

/-- The bit-logic operations (03 R108-R110): ACC, the branch stack and its limits. The bit stores (03 R105, R108, R109): ACC,
its inverse, a 1 or a 0 reaches the image bit that operand bits 21 to 0 name, once the store is performed; bl.set and bl.rst
store only with ACC = 1. Nothing else differs. The ends of the branch stack (03 R110): a push onto sixteen entries sets BSO
and keeps them, a pop of none sets BSU. -/
def Obligations.BitUnit : Prop :=
  (∀ (s : State) (l : Fin 8) (b : Word), s.ready l.val →
    let x := s.lane l.val
    let v := b.getLsbD 0
    let acc := x.flags.acc
    let gives := fun (i : Instr) (f : Flags) (stk : List Bool) => Answers i s (fun t => Answers (.resultAppears l .bl) t (fun u =>
      s.onlyLane u l.val ∧ u.lane l.val = { x with seq := s.nextSeq l.val, flags := f, bstk := stk }))
    gives (.blLd l b) { x.flags with acc := v } x.bstk ∧ gives (.blLdn l b) { x.flags with acc := !v } x.bstk ∧
    gives (.blAnd l b) { x.flags with acc := acc && v } x.bstk ∧ gives (.blAndn l b) { x.flags with acc := acc && !v } x.bstk ∧
    gives (.blOr l b) { x.flags with acc := acc || v } x.bstk ∧ gives (.blOrn l b) { x.flags with acc := acc || !v } x.bstk ∧
    gives (.blXor l b) { x.flags with acc := acc ^^ v } x.bstk ∧
    (x.bstk.length < 16 →
      gives (.blPush l b) { x.flags with acc := v } (acc :: x.bstk) ∧ gives (.blPushn l b) { x.flags with acc := !v } (acc :: x.bstk)) ∧
    (∀ e rest, x.bstk = e :: rest →
      gives (.blAnb l b) { x.flags with acc := acc && e } rest ∧ gives (.blOrb l b) { x.flags with acc := acc || e } rest)) ∧
  (∀ (s : State) (l : Fin 8) (b : Word), s.ready l.val → s.storesBefore l.val →
    let x := s.lane l.val
    let a := b.toNat % 2 ^ 22
    let stores := fun (i : Instr) (w : Word) => Answers i s (fun t => Answers (.resultAppears l .bl) t (fun u =>
      Answers (.storePerformed l) u (fun r =>
        r = { s with lanes := r.lanes, mem := r.mem } ∧ r.lane l.val = { x with seq := s.nextSeq l.val } ∧
        (∀ k, k ≠ l.val → r.lane k = s.lane k) ∧ r.memGet a = w ∧ ∀ k, k ≠ a → r.memGet k = s.memGet k)))
    let quiet := fun (i : Instr) => Answers i s (fun t => Answers (.resultAppears l .bl) t (fun u =>
      s.onlyLane u l.val ∧ u.lane l.val = { x with seq := s.nextSeq l.val }))
    place a = .outBit ∨ place a = .marker →
      stores (.blSt l b) (if x.flags.acc then 1 else 0) ∧ stores (.blStn l b) (if x.flags.acc then 0 else 1) ∧
      (x.flags.acc = true → stores (.blSet l b) 1 ∧ stores (.blRst l b) 0) ∧
      (x.flags.acc = false → quiet (.blSet l b) ∧ quiet (.blRst l b))) ∧
  (∀ (s : State) (l : Fin 8) (b : Word), s.ready l.val →
    let x := s.lane l.val
    let gives := fun (i : Instr) (f : Flags) => Answers i s (fun t => Answers (.resultAppears l .bl) t (fun u =>
      u.lane l.val = { x with seq := s.nextSeq l.val, flags := f } ∧ (∀ k, k ≠ l.val → u.lane k = s.lane k) ∧ u.mem = s.mem))
    (x.bstk.length = 16 →
      gives (.blPush l b) { x.flags with acc := b.getLsbD 0, bso := true } ∧
      gives (.blPushn l b) { x.flags with acc := !b.getLsbD 0, bso := true }) ∧
    (x.bstk = [] →
      gives (.blAnb l b) { x.flags with acc := false, bsu := true } ∧ gives (.blOrb l b) { x.flags with bsu := true }))

/-- The instance unit (03 R132-R140): the record at iu.ptr takes what its operation gives at the axis value of the latest latch,
and the results appear with the write-back. -/
def Obligations.InstanceUnit : Prop :=
  ∀ (s : State) (l : Fin 8) (b : Word), s.ready l.val → s.storesBefore l.val → (s.region (l.val / 2)).errs = [] →
    let x := s.lane l.val
    let ptr := (x.port 0x200).toNat
    let r := IRec.ofWords (s.memGetList ptr 8)
    let v := (s.lp (s.lpFor l.val)).ax.get (fun _ => 0) r.axis
    let gives := fun (i : Instr) (e : IRec) (q2 : Bool) => Answers i s (fun t => Answers (.iuWriteback l) t (fun u =>
      u = { s with lanes := u.lanes, mem := u.mem } ∧ (∀ k, k ≠ l.val → u.lane k = s.lane k) ∧
      u.memGetList ptr 8 = e.words ∧ (∀ a, a < ptr ∨ ptr + 8 ≤ a → u.memGet a = s.memGet a) ∧
      u.lane l.val = { x.setPorts [(0x210, bit e.q), (0x211, bit q2), (0x212, loWord e.elapsed), (0x213, hiWord e.elapsed),
                                   (0x214, e.word0)] with seq := s.nextSeq l.val }))
    ptr % 8 = 0 → inSlice (l.val / 2) ptr = true → r.axis ≤ 7 →
      (r.type = 0x01 → gives (.iuTon l b) (r.ton (b.getLsbD 0) v) false) ∧
      (r.type = 0x02 → gives (.iuTof l b) (r.tof (b.getLsbD 0) v) false) ∧
      (r.type = 0x03 → gives (.iuTp l b) (r.tp (b.getLsbD 0) v) false) ∧
      (r.type = 0x11 → gives (.iuCtu l b) (r.ctu b) false) ∧
      (r.type = 0x12 → gives (.iuCtd l b) (r.ctd b) false) ∧
      (r.type = 0x13 → gives (.iuCtud l b) (r.ctud b) (r.ctud b).qd) ∧
      (r.type = 0x21 → gives (.iuRtrig l b) (r.rtrig (b.getLsbD 0)) false) ∧
      (r.type = 0x22 → gives (.iuFtrig l b) (r.ftrig (b.getLsbD 0)) false) ∧
      (validType r.type = true → gives (.iuClr l b) r.clear false)

/-- A clear of an instance record (03 R139). -/
def Obligations.InstanceClear : Prop :=
  ∀ (s : State) (l : Fin 8) (v : Word), s.ready l.val → (s.region (l.val / 2)).errs = [] →
    let ptr := ((s.lane l.val).port 0x200).toNat
    ptr % 8 = 0 → inSlice (l.val / 2) ptr = true → validType ((s.memGet ptr).toNat / 2 ^ 24) = true →
    fld (s.memGet ptr) 23 20 ≤ 7 → Answers (.iuClr l v) s (fun t => Answers (.iuWriteback l) t (fun u =>
      u.memGetList ptr 8 = [s.memGet ptr &&& 0xFFFFFF00, s.memGet (ptr + 1), s.memGet (ptr + 2), s.memGet (ptr + 3), 0, 0, 0, 0] ∧
      ∀ a, a < ptr ∨ ptr + 8 ≤ a → u.memGet a = s.memGet a))

/-- A refused instance operation (03 R134): a record address that is no multiple of 8 or outside the region's slice, a TYPE that
the trigger does not evaluate, an AXIS above 7. The record stays, the results show the refusal, the program-fault source of
the logical processor arrives, and INSTANCE_FAULT carries the record address and the trigger address. -/
def Obligations.InstanceRefusal : Prop :=
  ∀ (s : State) (l : Fin 8) (v : Word), s.ready l.val → (s.region (l.val / 2)).errs = [] →
    let x := s.lane l.val
    let p := s.lpFor l.val
    let ptr := (x.port 0x200).toNat
    let w := (s.memGet ptr).toNat
    let refused := fun (i : Instr) (trig : Nat) => Answers i s (fun t => t.mem = s.mem ∧
      (s.boot = .done → (s.src p).cnt < 255 → (t.src p).cnt = (s.src p).cnt + 1) ∧
      (s.er.queue.length < 64 → ∃ q, t.er.queue = s.er.queue ++ [q] ∧ q.ev.code = 0x0102 ∧ q.ev.p0 = BitVec.ofNat 32 ptr ∧
        q.ev.p1 = BitVec.ofNat 32 trig) ∧
      Answers (.iuWriteback l) t (fun u => u.mem = s.mem ∧
        u.lane l.val = { x.setPorts [(0x210, 0), (0x211, 0), (0x212, 0), (0x213, 0), (0x214, 0x100)] with seq := x.seq + 1 }))
    let bad := ptr % 8 ≠ 0 ∨ inSlice (l.val / 2) ptr = false ∨ 7 < w / 2 ^ 20 % 16
    ((bad ∨ w / 2 ^ 24 ≠ 0x01) → refused (.iuTon l v) 0x204) ∧ ((bad ∨ w / 2 ^ 24 ≠ 0x02) → refused (.iuTof l v) 0x205) ∧
    ((bad ∨ w / 2 ^ 24 ≠ 0x03) → refused (.iuTp l v) 0x206) ∧ ((bad ∨ w / 2 ^ 24 ≠ 0x11) → refused (.iuCtu l v) 0x207) ∧
    ((bad ∨ w / 2 ^ 24 ≠ 0x12) → refused (.iuCtd l v) 0x208) ∧ ((bad ∨ w / 2 ^ 24 ≠ 0x13) → refused (.iuCtud l v) 0x209) ∧
    ((bad ∨ w / 2 ^ 24 ≠ 0x21) → refused (.iuRtrig l v) 0x20A) ∧ ((bad ∨ w / 2 ^ 24 ≠ 0x22) → refused (.iuFtrig l v) 0x20B) ∧
    ((bad ∨ validType (w / 2 ^ 24) = false) → refused (.iuClr l v) 0x20C)

/-- A task trigger (04 R154, R155; 06 R262; 07 R280): a task that waits for none becomes pending with its fire instant; one that
is pending already counts an overrun; the end of a GAP interval triggers its task. A disabled task and a logical processor
outside RUN take none, a standby in step notes it as its own, and a hand-over holds it back. -/
def Obligations.TaskTriggers : Prop :=
  ∀ (s : State) (p : Fin 8) (t : Fin 32),
    let k := s.task p.val t.val
    let g := s.region (p.val / 2)
    let at_t := if (s.prog.task p.val t.val).trig = 0 then 0 else s.pairTime
    let takes := (s.prog.task p.val t.val).en && decide ((s.lp p.val).st = .run) && s.lpExists p.val
    let others := fun (u : State) => ∀ q j, q < 8 → j < 32 → (q ≠ p.val ∨ j ≠ t.val) → u.task q j = s.task q j
    (takes = true → s.inStep = false → g.cov ≠ .handover →
      (k.pend = false → Answers (.taskTrigger p t) s (fun u => u.task p.val t.val = { k with pend := true, ttf := at_t } ∧ others u ∧
        u = { s with tasks := u.tasks })) ∧
      (k.pend = true → Answers (.taskTrigger p t) s (fun u =>
        u.task p.val t.val = { k with ovr := if k.ovr = 0xFFFF then 0xFFFF else k.ovr + 1 } ∧ others u ∧ u = { s with tasks := u.tasks, er := u.er })) ∧
      (k.gap = true → k.pend = false → Answers (.gapExpiry p t) s (fun u =>
        u.task p.val t.val = { k with gap := false, pend := true, ttf := 0 } ∧ others u ∧ u = { s with tasks := u.tasks }))) ∧
    (takes = true → s.inStep = true → Answers (.taskTrigger p t) s (fun u => u.task p.val t.val = { k with own := some at_t } ∧ others u ∧
      u = { s with tasks := u.tasks })) ∧
    (takes = true → s.inStep = false → g.cov = .handover → Answers (.taskTrigger p t) s (fun u =>
      u.region (p.val / 2) = { g with heldTrig := g.heldTrig ++ [(t.val, at_t)] } ∧ u.tasks = s.tasks ∧
      (∀ r, r ≠ p.val / 2 → u.region r = s.region r) ∧ u = { s with regions := u.regions })) ∧
    (takes = false → Answers (.taskTrigger p t) s (fun u => u = s)) ∧
    (k.gap = false → Answers (.gapExpiry p t) s (fun u => u = s))

/-- The start of a scan (04 R156-R159, R173; 05 R208; 07 R278-R280). LATCH_START outside the standby's step takes the next
pending task: its PEND clears, LSEQ counts, the axes and the forces are sampled, the image takes the set's input area, and
an active sends a FWD. In step a standby takes the head of the forwarded latches instead, with its LSEQ, fire instant and
axes. LATCH_END applies the sampled forces that the set covers, and nothing else, and starts the task's first bundle with
the task-start state, in the trail of a paired region too. The end of a scan (04 R158, R163, R165, R177; 05 R215; 07 R281).
The commit starts once every store is performed and the Owl has passed, with the forces of that moment. Its end brings every
output of the set to its sink, forced values in place of the program's, leaves every other sink, releases what the logical
processor has staged, writes the run times, and makes the logical processor idle, or takes it to STOP where a STOP waits and
no handler is active. A start-up routine ends without a commit: its staged items leave, and every enabled free-running task
is triggered. MAXRUN (04 R153, R160, R163; 06 R243): a task or start-up routine with a limit, MAXRUN not 0, that has not
ended writes TASK_TIME with its number (0x20 for the routine) and its limit, and halts its logical processor with cause
0x03: at once where the lane runs alone or the latch is still open, in a paired region after the trail has come to the same
bundle. Without a limit, and outside a run, nothing happens. -/
def Obligations.Scans : Prop :=
  ((∀ (s : State) (p : Fin 8) (t : Nat), s.mayLatch p.val = true → (s.pl.fwds.find? (fun w => w.lp.val == p.val)) = none →
    s.inStep = false → s.nextTask p.val = some t →
    let es := s.prog.taskIn p.val t
    let area := s.inputArea es
    Answers (.latchStart p) s (fun u =>
      u.lp p.val = { s.lp p.val with phase := .latch, task := t, latchAt := s.time, ax := s.axisSnapshot, forces := s.forcesOf p.val
                                     lseq := (s.lp p.val).lseq + 1 } ∧
      u.task p.val t = { s.task p.val t with pend := false, prevIn := area } ∧ u.mem = (s.writeInputs es area).mem ∧
      (∀ a, (∀ e ∈ es, a < e.addr ∨ e.addr + e.size ≤ a) → u.memGet a = s.memGet a) ∧
      (∀ q, q ≠ p.val → u.lp q = s.lp q) ∧ u.lanes = s.lanes ∧ u.regions = s.regions ∧ u.sinks = s.sinks ∧
      (s.pl.role ≠ 1 → u.pl = s.pl) ∧
      (s.pl.role = 1 → s.pl.link = true → s.fwdLeft + 4 * (21 + area.length + area.length / 32) ≤ 262144 →
        ∃ m, u.pl.outbox = s.pl.outbox ++ [m] ∧ ∃ w, m.msg = .fwd w ∧ w.lp = p ∧ w.init = false ∧ w.lseq = (s.lp p.val).lseq + 1 ∧
          w.ltime = s.pairTime ∧ w.ttf = (s.task p.val t).ttf ∧ w.delta = deltaOf (s.task p.val t).prevIn area))) ∧
  (∀ (s : State) (p : Fin 8) (w : Fwd), s.mayLatch p.val = true → (s.pl.fwds.find? (fun w => w.lp.val == p.val)) = some w →
    w.init = false → s.pl.iarrs = [] → s.pl.cmds = [] →
    let t := w.task.val
    let es := s.prog.taskIn p.val t
    let area := deltaWords (s.task p.val t).prevIn w.nw w.nw 0 0 w.delta
    Answers (.latchStart p) s (fun u =>
      (u.lp p.val).phase = .latch ∧ (u.lp p.val).task = t ∧ (u.lp p.val).lseq = w.lseq ∧ (u.lp p.val).latchAt = s.time ∧
      (u.lp p.val).ax = SMap.setList (fun _ => 0) [] 0 (w.ltime :: w.axsnap) ∧
      (u.task p.val t).ttf = w.ttf ∧ (u.task p.val t).pend = false ∧ (u.task p.val t).prevIn = area ∧
      u.mem = (s.writeInputs es area).mem ∧ u.pl.fwds = s.pl.fwds.erase w ∧ (∀ q, q ≠ p.val → u.lp q = s.lp q) ∧
      u.lanes = s.lanes ∧ u.regions = s.regions ∧ u.sinks = s.sinks)) ∧
  (∀ (s : State) (p : Fin 8), (s.lp p.val).st = .run → (s.lp p.val).phase = .latch →
    let d := s.prog.task p.val (s.lp p.val).task
    let fs := (s.lp p.val).forces
    let covers := fun (a : Nat) => (s.prog.taskIn p.val (s.lp p.val).task).any (fun e => e.hasBit a || e.hasWord a)
    let l := s.laneOf p.val
    Answers (.latchEnd p) s (fun u => u.lp p.val = { s.lp p.val with phase := .exec, forces := [] } ∧
      (∀ a v, (a, v) ∈ fs → covers a = true → (∀ v', (a, v') ∈ fs → v' = v) →
        u.memGet a = (if (place a).isBit then v &&& 1 else v)) ∧
      (∀ a, (∀ v, (a, v) ∈ fs → covers a = false) → u.memGet a = s.memGet a) ∧
      u.lane l = (s.lane l).startTask d.entry d.stacktop d.stacklim ∧
      ((u.lane l).pc = d.entry ∧ (u.lane l).port 0x008 = d.stacktop ∧ (u.lane l).port 0x00A = d.stacktop ∧
        (u.lane l).port 0x009 = d.stacklim ∧ (u.lane l).flags = {} ∧ (u.lane l).bstk = [] ∧ (u.lane l).bcnt = 0) ∧
      (p.val % 2 = 0 → s.paired (p.val / 2) = true → (s.region (p.val / 2)).outstanding = [] → l = p.val →
        u.lane (p.val + 1) = (s.lane (p.val + 1)).startTask d.entry d.stacktop d.stacklim ∧
        (∀ k, k ≠ l → k ≠ p.val + 1 → u.lane k = s.lane k) ∧ u.regions = s.regions) ∧
      (p.val % 2 = 0 → s.paired (p.val / 2) = true → (s.region (p.val / 2)).outstanding ≠ [] →
        (u.region (p.val / 2)).outstanding = (s.region (p.val / 2)).outstanding ++ [.start d.entry d.stacktop d.stacklim] ∧
        (∀ k, k ≠ l → u.lane k = s.lane k)) ∧
      (s.paired (p.val / 2) = false → (∀ k, k ≠ l → u.lane k = s.lane k) ∧ u.regions = s.regions) ∧
      (∀ q, q ≠ p.val → u.lp q = s.lp q) ∧ u = { s with lanes := u.lanes, lps := u.lps, mem := u.mem, regions := u.regions }))) ∧
  (∀ (s : State) (p : Fin 8), (s.lp p.val).st = .run →
    let staged := s.ptStage.get (fun _ => []) (2 + p.val)
    ((s.lp p.val).phase = .taskEnd → s.storesDone p.val = true → s.owlPassed p.val = true →
      Answers (.commitStart p) s (fun u => u.lp p.val = { s.lp p.val with phase := .commit, forces := s.forcesOf p.val } ∧
        (∀ q, q ≠ p.val → u.lp q = s.lp q) ∧ u = { s with lps := u.lps })) ∧
    ((s.lp p.val).phase = .commit →
      let es := s.prog.taskOut p.val (s.lp p.val).task
      let cyc := BitVec.ofNat 32 ((s.time - (s.lp p.val).latchAt) / s.cycleUnits)
      Answers (.commitEnd p) s (fun u =>
        (∀ e ∈ es, ∀ k, k < e.size → (∀ f ∈ es, ∀ j, j < f.size → f.sinkKey j = e.sinkKey k → f.addr + j = e.addr + k) →
          u.sink (e.sinkKey k) = s.committed (s.lp p.val).forces e k) ∧
        (∀ key, (∀ e ∈ es, ∀ k, k < e.size → e.sinkKey k ≠ key) → u.sink key = s.sink key) ∧
        u.schedOut = s.schedOut ++ staged.map (fun x => (p.val, x)) ∧ u.ptStage.get (fun _ => []) (2 + p.val) = [] ∧
        u.mem = s.mem ∧ (u.lp p.val).phase = .idle ∧
        (s.pl.role ≠ 2 → (s.lp p.val).stopReq = false →
          u.lp p.val = { s.lp p.val with phase := .idle, forces := [], cseq := (s.lp p.val).lseq } ∧
          u.task p.val (s.lp p.val).task =
            { s.task p.val (s.lp p.val).task with
              ran := true, tlast := cyc, gap := decide ((s.prog.task p.val (s.lp p.val).task).trig = 0)
              tmax := if (s.task p.val (s.lp p.val).task).tmax < cyc then cyc else (s.task p.val (s.lp p.val).task).tmax } ∧
          (∀ q, q ≠ p.val → u.lp q = s.lp q) ∧ u.lanes = s.lanes) ∧
        (s.pl.role ≠ 2 → (s.lp p.val).stopReq = true → (s.lp p.val).levels = [] → (u.lp p.val).st = .stop ∧
          ∀ q, q ≠ p.val → u.lp q = s.lp q))) ∧
    ((s.lp p.val).phase = .initEnd → s.storesDone p.val = true → s.owlPassed p.val = true →
      Answers (.startupEnd p) s (fun u => u.mem = s.mem ∧ u.sinks = s.sinks ∧ (u.lp p.val).phase = .idle ∧
        u.schedOut = s.schedOut ++ staged.map (fun x => (p.val, x)) ∧ u.ptStage.get (fun _ => []) (2 + p.val) = [] ∧
        ((s.lp p.val).stopReq = false → u.lp p.val = { s.lp p.val with phase := .idle } ∧ u.lanes = s.lanes ∧
          (s.inStep = false → s.lpExists p.val = true → (s.region (p.val / 2)).cov ≠ .handover → ∀ t, t < 32 → (s.prog.task p.val t).trig = 0 →
            (s.prog.task p.val t).en = true → (u.task p.val t).pend = true)) ∧
        ((s.lp p.val).stopReq = true → (s.lp p.val).levels = [] → (u.lp p.val).st = .stop)))) ∧
  (∀ (s : State) (p : Fin 8),
    let x := s.lp p.val
    let running := x.phase = .latch ∨ x.phase = .exec ∨ x.phase = .init
    (x.st = .run → running → s.maxrunOf p.val ≠ 0 → (s.region (p.val / 2)).leadFault = none →
      (p.val % 2 = 1 ∨ s.paired (p.val / 2) = false ∨ x.phase = .latch →
        Answers (.maxrunExpiry p) s (fun u => (u.lp p.val).st = .halt ∧ (u.lp p.val).hcause = 0x03 ∧ (u.lp p.val).levels = [] ∧
          u.mem = s.mem ∧ u.sinks = s.sinks ∧ u.ptStage.get (fun _ => []) (2 + p.val) = [] ∧
          (s.er.queue.length < 64 → ∃ q rest, u.er.queue = s.er.queue ++ q :: rest ∧ q.ev.code = 0x0104 ∧
            q.ev.p0 = BitVec.ofNat 32 (if x.phase = .init then 0x20 else x.task) ∧ q.ev.p1 = BitVec.ofNat 32 (s.maxrunOf p.val)) ∧
          ∀ q, q ≠ p.val → u.lp q = s.lp q)) ∧
      (p.val % 2 = 0 → s.paired (p.val / 2) = true → x.phase ≠ .latch → s.owlsAgree (p.val / 2) →
        Answers (.maxrunExpiry p) s (fun u => (u.region (p.val / 2)).leadFault = some 0 ∧
          (u.region (p.val / 2)).outstanding = (s.region (p.val / 2)).outstanding ++ [.maxrun] ∧ u.lp p.val = x ∧ u.mem = s.mem))) ∧
    (x.st ≠ .run ∨ ¬ running ∨ s.maxrunOf p.val = 0 → Answers (.maxrunExpiry p) s (fun u => u = s)))

/-- The state commands (04 R165, R167, R183; 07 R272, R278). RUN starts a logical processor that stands in STOP, on a module
that is not pair-provisioned or holds the line; it waits for the token where the line is free and nothing runs, and is
ignored where no program may run. STOP stops an idle one at once and a busy one at its boundary; CLRHALT clears a halt. The
force table (04 R173-R175; 07 R278): FT_SET makes an entry active where its target may be forced and no other entry has it,
and ft.rej says 1 otherwise; FT_CLR and FT_CLRALL clear, FT_RD reads an entry back. An active module forwards what it
accepts. -/
def Obligations.StateAndForceCommands : Prop :=
  (∀ (s : State) (m : Master) (mask : BitVec 8) (p : Fin 8),
    s.lets m 0x841 →
    mask.getLsbD p.val = true →
    let x := s.lp p.val
    let runs := decide (s.boot = .done) && !s.halted && s.lcRuns && s.prog.valid
    (∀ cold,
      (runs = true → s.provisioned = false ∨ s.pl.own = true → s.lpExists p.val = true → x.st = .stop →
        (s.region (p.val / 2)).cov ≠ .unavail →
        Answers (.run m mask cold) s (fun t => (t.lp p.val).st = .run ∧ (t.lp p.val).stopReq = false ∧ (t.lp p.val).err = 0 ∧
          (t.lp p.val).hcause = 0 ∧ (cold = false → t.mem = s.mem) ∧ t.sinks = s.sinks)) ∧
      (runs = true → s.provisioned = true → s.pl.own = false → (s.anyRun = true ∨ s.pl.sensed = true) →
        Answers (.run m mask cold) s (fun t => t = s)) ∧
      (runs = true → s.provisioned = true → s.pl.own = false → s.anyRun = false → s.pl.sensed = false →
        Answers (.run m mask cold) s (fun t => t = { s with pl := { s.pl with waitRun := some (mask, cold), waitAt := s.time } })) ∧
      (runs = false → Answers (.run m mask cold) s (fun t => t = s))) ∧
    (s.lpExists p.val = true → x.st = .run →
      (x.phase = .idle → x.levels = [] → Answers (.stop m mask) s (fun t => (t.lp p.val).st = .stop ∧ t.mem = s.mem ∧ t.sinks = s.sinks)) ∧
      (x.phase ≠ .idle ∨ x.levels ≠ [] → Answers (.stop m mask) s (fun t =>
        t.lp p.val = { x with stopReq := true } ∧ t.mem = s.mem ∧ t.sinks = s.sinks))) ∧
    (x.st ≠ .run → Answers (.stop m mask) s (fun t => t.lp p.val = x ∧ t.mem = s.mem ∧ t.sinks = s.sinks)) ∧
    (s.halted = false → s.lpExists p.val = true → x.st = .halt → x.unavail = false →
      Answers (.clrhalt m mask) s (fun t => t.lp p.val = { x with st := .stop, hcause := 0 } ∧ t.sinks = s.sinks)) ∧
    (s.halted = true ∨ x.st ≠ .halt → Answers (.clrhalt m mask) s (fun t => t.lp p.val = x ∧ t.sinks = s.sinks ∧ (s.halted = true → t.mem = s.mem)))) ∧
  (∀ (s : State) (m : Master) (v : Word),
    s.lets m 0xBC4 →
    let i := (s.mport m 0xBC0).toNat
    let a := (s.mport m 0xBC1).toNat
    i < 1024 →
    let taken := s.force.any (fun e => e.2.en && e.2.addr == a && e.1 != i)
    let forwards := fun (t : State) (c : PairCmd) => t.pl.outbox.map (fun o => o.msg) =
      s.pl.outbox.map (fun o => o.msg) ++ (if s.pl.role = 1 ∧ s.pl.link = true then [.cmd c s.lseqs] else [])
    (s.prog.forceTarget a = true → taken = false →
      Answers (.ftSet m v) s (fun t => t.forceAt i = { addr := a, val := s.mport m 0xBC2, en := true } ∧ t.mport m 0xBCB = 0 ∧
        (∀ j, j ≠ i → t.forceAt j = s.forceAt j) ∧ forwards t (.ftSet ⟨i % 1024, by omega⟩ ((s.mport m 0xBC1).setWidth 22) (s.mport m 0xBC2)) ∧
        t = { s with force := t.force, mports := t.mports, pl := t.pl })) ∧
    (s.prog.forceTarget a = false ∨ taken = true → Answers (.ftSet m v) s (fun t => t.mport m 0xBCB = 1 ∧ t = { s with mports := t.mports })) ∧
    Answers (.ftClr m v) s (fun t => t.forceAt i = { s.forceAt i with en := false } ∧ (∀ j, j ≠ i → t.forceAt j = s.forceAt j) ∧
      forwards t (.ftClr ⟨i % 1024, by omega⟩) ∧ t = { s with force := t.force, pl := t.pl }) ∧
    Answers (.ftClrall m v) s (fun t => t.forced = false ∧ forwards t .ftClrall ∧ t = { s with force := t.force, pl := t.pl }) ∧
    Answers (.ftRd m v) s (fun t => t.mport m 0xBC9 = (s.forceAt i).val ∧
      ((t.mport m 0xBC8).getLsbD 31 = true ↔ ((s.forceAt i).en = true ∨ (BitVec.ofNat 32 (s.forceAt i).addr).getLsbD 31 = true)) ∧
      t = { s with mports := t.mports }))

/-- The reads that latch further words for their master (04 R181, R185, R186): the mirror word that mr.sel names, the sample
time and frame count of its own frame with mr.di, and the high word of the retentive write count with sq.rwl. -/
def Obligations.LatchingReads : Prop :=
  ∀ (s : State) (m : Master) (v : Word),
    (s.lets m 0x889 → Answers (.mrRd m v) s (fun t =>
      t = s.setSport 0x88A (s.mirrorWord ((s.mport m 0x888).toNat / 2 ^ 28) ((s.mport m 0x888).toNat % 2 ^ 28)))) ∧
    (mayRead m.world 0x880 = true → Answers (.mrDiRead m) s (fun t => t.mport m 0x881 = s.mrTs.extractLsb' 0 32 ∧
      t.mport m 0x882 = s.mrTs.extractLsb' 32 32 ∧ t.mport m 0x883 = s.mrDiSeq ∧ t = { s with mports := t.mports })) ∧
    (mayRead m.world 0x858 = true → Answers (.sqRwlRead m) s (fun t =>
      t.mport m 0x859 = s.mram.rwl.extractLsb' 32 32 ∧ t = { s with mports := t.mports }))

/-- A paired region splits at the boundary (06 R250): coverage SPLIT, the odd logical processor in STOP, or in RUN where the
request names it and a program is valid; SPLITN counts. Before the boundary, or with the Owl still to pass, nothing happens.
A rejoin starts at the boundary (06 R252, R253), and after an exchange by itself (06 R264). It ends in PAIRED, the other
lane holding the copy of the lane that ran, where the verify passes and every window of the Owl test reports as it must;
otherwise (06 R254) the region is as it was before it, with MKIND 1 for the verify and 7 for the Owl. No table of the odd
logical processor changes. The Owl (06 R237, R241, R243, R247), over the oldest window that both lanes have closed. Equal
signatures count it, and where it was the last before a halt that both lanes met alike, the logical processor halts with
cause 0x01 for a program fault and 0x03 for MAXRUN. A difference halts it with cause 0x02 and reports MISMATCH; on the part
with two Owls, verdicts that differ are OWLDIS. -/
def Obligations.Coverage : Prop :=
  (∀ (s : State) (r : Fin 4) (runOdd : Bool),
    let g := s.region r.val
    let odd := 2 * r.val + 1
    g.pendReq = some (true, runOdd) →
    (g.cov = .splitPend → s.atBoundary r.val = true → s.owlPassed (2 * r.val) = true → g.outstanding = [] →
      Answers (.pairedToSplit r) s (fun t =>
        (t.region r.val).cov = .split ∧ (t.region r.val).pendReq = none ∧ (t.region r.val).fifo = [] ∧
        (t.region r.val).ucstart = s.ax0 ∧ (t.region r.val).splitn = (if g.splitn = 0xFFFFFFFF then 0xFFFFFFFF else g.splitn + 1) ∧
        (runOdd = false ∨ s.prog.valid = false → t.lp odd = { s.lp odd with st := .stop, phase := .idle, hcause := 0 } ∧
          t = { s with lps := t.lps, regions := t.regions, lanes := t.lanes, er := t.er }) ∧
        (runOdd = true → s.prog.valid = true → (t.lp odd).st = .run) ∧
        (∀ p, p ≠ odd → t.lp p = s.lp p) ∧ (∀ k, k ≠ r.val → t.region k = s.region k) ∧ t.mem = s.mem)) ∧
    (g.cov ≠ .splitPend ∨ s.atBoundary r.val = false ∨ s.owlPassed (2 * r.val) = false ∨ g.outstanding ≠ [] →
      Answers (.pairedToSplit r) s (fun t => t = s))) ∧
  ((∀ (s : State) (r : Fin 4), (s.region r.val).cov = .split →
    ((s.region r.val).pendReq = some (false, false) ∨ (s.region r.val).pendReq = some (false, true)) →
    (s.lp (2 * r.val + 1)).st = .stop → s.atBoundary r.val = true →
    Answers (.rejoin r) s (fun t => t.region r.val = { s.region r.val with cov := .rejoin, back := .split, pendReq := none } ∧
      (∀ k, k ≠ r.val → t.region k = s.region k) ∧ t = { s with regions := t.regions })) ∧
  (∀ (s : State) (r : Fin 4), (s.region r.val).cov = .exRun → (s.region r.val).exStage ≠ 9 → s.atBoundary r.val = true →
    Answers (.rejoin r) s (fun t => (t.region r.val).cov = .rejoin ∧ (t.region r.val).back = .exRun ∧
      (∀ k, k ≠ r.val → t.region k = s.region k) ∧ t = { s with regions := t.regions })) ∧
  (∀ (s : State) (r : Fin 4) (wrong : List (Bool × Option (Fin 64))), (s.region r.val).cov = .rejoin →
    let after := decide ((s.region r.val).back = .exRun)
    let src := if after then 2 * r.val + 1 else 2 * r.val
    let dst := if after then 2 * r.val else 2 * r.val + 1
    (wrong = [] → Answers (.rejoinDone r true wrong) s (fun t =>
      (t.region r.val).cov = .paired ∧ (t.region r.val).ucend = s.ax0 ∧ (t.region r.val).onTrail = false ∧ t.lps = s.lps ∧
      (t.lane dst).ports = (s.lane src).ports ∧ (t.lane dst).flags = (s.lane src).flags ∧ (t.lane dst).bstk = (s.lane src).bstk ∧
      (∀ k, k ≠ r.val → t.region k = s.region k) ∧ t.mem = s.mem ∧ t = { s with regions := t.regions, lanes := t.lanes, er := t.er, hc := t.hc })) ∧
    (wrong ≠ [] → Answers (.rejoinDone r true wrong) s (fun t => (∀ k, k ≠ r.val → t.region k = s.region k) ∧
      (if dualOwl = true then (t.region r.val).cov = .paired
       else (t.region r.val).cov = (s.region r.val).back ∧ (t.region r.val).mkind = 7) ∧ t.lps = s.lps ∧ t.mem = s.mem)) ∧
    Answers (.rejoinDone r false wrong) s (fun t =>
      (t.region r.val).cov = (s.region r.val).back ∧ (t.region r.val).mkind = 1 ∧
      (after = false → t.hc = s.hc) ∧ (∀ k, k ≠ r.val → t.region k = s.region k) ∧ t.lps = s.lps ∧ t.mem = s.mem))) ∧
  (∀ (s : State) (r : Fin 4) (a b : WinSig) (as bs : List WinSig),
    let g := s.region r.val
    g.leadSigs = a :: as →
    g.trailSigs = b :: bs →
    let owlA : Prop := a.sig = b.sig ∧ a.win = b.win
    let owlB : Prop := a.sig = a.sigB ∧ a.sigB = b.sigB ∧ a.win = b.win
    (owlA → owlB →
      (g.leadFault = none → Answers (.owlVerdict r) s (fun t =>
        t.region r.val = { g with leadSigs := as, trailSigs := bs, wins := g.wins + 1 } ∧
        (∀ k, k ≠ r.val → t.region k = s.region k) ∧ t = { s with regions := t.regions })) ∧
      (∀ c, g.leadFault = some c → g.trailFault = some c → as = [] → bs = [] →
        (s.lp (2 * r.val)).st = .run → Answers (.owlVerdict r) s (fun t =>
          (t.lp (2 * r.val)).st = .halt ∧ (t.lp (2 * r.val)).hcause = (if c = 0 then 0x03 else 0x01) ∧
          (t.region r.val).wins = g.wins + 1 ∧ (t.region r.val).leadFault = none ∧ t.mem = s.mem))) ∧
    (¬ owlA → (s.lp (2 * r.val)).st = .run → Answers (.owlVerdict r) s (fun t =>
      (t.lp (2 * r.val)).st = .halt ∧
      (t.lp (2 * r.val)).hcause = (if s.pl.role = 1 ∧ s.partnerFit = true ∧ s.lpExists (2 * r.val) = true then 0x05 else 0x02) ∧
      (t.region r.val).mkind = (if dualOwl = true ∧ owlB then 6 else 1) ∧ (t.region r.val).wins = g.wins ∧ t.mem = s.mem)) ∧
    (owlA → ¬ owlB → g.leadFault = none → (s.lp (2 * r.val)).st = .run → Answers (.owlVerdict r) s (fun t => t.mem = s.mem ∧
      (if dualOwl = true then (t.lp (2 * r.val)).st = .halt ∧ (t.region r.val).mkind = 6 ∧ (t.region r.val).wins = g.wins
       else t.lps = s.lps ∧ (t.region r.val).wins = g.wins + 1))))

/-- The online exchange (06 R257-R263): a prepared image stands in the free bank and waits for the boundary, the hand-over takes
the new program's tables, and its end switches the bank pointer and the lane. Clauses that follow the model's reading and no
rule's words: notes/assumptions/609.md. -/
def Obligations.ProgramExchange : Prop :=
  ∀ (s : State) (r : Fin 4),
    ((s.region r.val).cov = .exPrep → (s.region r.val).exStage = 2 →
      (s.exchangeImage r.val (s.region r.val).exBytes (s.region r.val).exForce = 0 →
        Answers (.exchangePrepared r) s (fun t => (t.region r.val).cov = .exPrep ∧ (t.region r.val).exStage = 3 ∧
          (if s.mram.curB then t.mram.bankA else t.mram.bankB) = (s.region r.val).exBytes ∧ t.mram.current = s.mram.current ∧
          t.prog = s.prog ∧ t.mem = s.mem)) ∧
      (s.exchangeImage r.val (s.region r.val).exBytes (s.region r.val).exForce ≠ 0 →
        Answers (.exchangePrepared r) s (fun t => (t.region r.val).cov = .paired ∧ (t.region r.val).exStage = 0 ∧
          t.mram.current = s.mram.current ∧ t.prog = s.prog ∧ t.mem = s.mem))) ∧
    ((s.region r.val).cov = .exPrep → (s.region r.val).exStage = 3 → s.atBoundary r.val = true →
      (s.lp (2 * r.val)).st = .run → s.owlPassed (2 * r.val) = true →
      Answers (.handover r) s (fun t => (t.region r.val).cov = .handover ∧ (t.region r.val).ucstart = s.ax0 ∧
        t.prog = parseImage (s.region r.val).exBytes ∧ t.lps = s.lps ∧ t.mram = s.mram)) ∧
    ((s.region r.val).cov = .handover → Answers (.handoverDone r) s (fun t =>
      (t.region r.val).cov = .exRun ∧ (t.region r.val).onTrail = true ∧ (t.region r.val).exBytes = [] ∧
      t.mram.curB = (!s.mram.curB) ∧ t.prog = s.prog ∧ t.mem = s.mem))

/-- An encoder edge (05 R193, R194, R199, R202, R204, R206): a step forward or back moves POS by one count in the direction that
INV gives, a skipped state counts an error and loses the axis, and equal levels or an axis that is off keep the position. A
step after a loss recovers the axis, with REFLOST, unless the wire is still open; OVERSPEED holds the position and counts on
until the axis is calm, when it steps by what it has counted. Loss, freezing and homing of the axes (05 R195, R202, R203): a
lost axis keeps its position and goes on with the velocity that it had, a STALE axis freezes with velocity 0, and a Z edge
brings an axis to its home value; each leaves the other axes, and does nothing where its condition is absent. The mains
phase axis (05 R196, R202, R204): a zero crossing a period of 45 Hz to 66 Hz after the latest one of its direction sets the
correction that ends half a period later, the velocity of a rising one following its period; one out of range loses the
axis; a lost axis comes back at the second crossing in range. Clauses that follow the model's reading and no rule's words:
notes/assumptions/506.md. -/
def Obligations.AxisInputs : Prop :=
  (∀ (s : State) (x : Fin 4) (a b : Bool),
    s.field.powered = true →
    let n := x.val + 1
    let y := s.field.axis n
    let d := (quadrature a b + 4 - quadrature y.lastA y.lastB) % 4
    let back := (d == 3) != y.desc.inv
    let step : Int := if back then -65536 else 65536
    (y.desc.en = true → d = 1 ∨ d = 3 → y.stale = false → y.frozen = false → y.overspeed = false →
      Answers (.encoderEdge x a b) s (fun t => (t.field.axis n).pos = y.pos + BitVec.ofInt 64 step ∧ (t.field.axis n).rev = back ∧
        (t.field.axis n).lastA = a ∧ (t.field.axis n).lastB = b ∧ (t.field.axis n).tl = s.fieldNs ∧ (t.field.axis n).errcnt = y.errcnt ∧
        (∀ k, k ≠ n → t.field.axis k = s.field.axis k) ∧ t = { s with field := t.field } ∧
        t.field = { s.field with axes := t.field.axes, ins := t.field.ins })) ∧
    (y.desc.en = true → d = 2 → Answers (.encoderEdge x a b) s (fun t =>
      (t.field.axis n).errcnt = (if y.errcnt = 0xFF then 0xFF else y.errcnt + 1) ∧
      (t.field.axis n).stale = (y.stale || !y.frozen || y.overspeed) ∧
      (∀ k, k ≠ n → t.field.axis k = s.field.axis k) ∧ t = { s with field := t.field })) ∧
    (d = 0 ∨ y.desc.en = false ∨ (y.stale = true ∧ y.openWire = true ∧ d ≠ 2) → Answers (.encoderEdge x a b) s (fun t =>
      t.field.axis n = { y with lastA := a, lastB := b } ∧ (∀ k, k ≠ n → t.field.axis k = s.field.axis k) ∧ t = { s with field := t.field } ∧
      t.field = { s.field with axes := t.field.axes, ins := t.field.ins })) ∧
    (y.desc.en = true → d = 1 ∨ d = 3 → y.overspeed = false → (y.stale = true ∧ y.openWire = false) ∨ (y.stale = false ∧ y.frozen = true) →
      Answers (.encoderEdge x a b) s (fun t => (t.field.axis n).stale = false ∧ (t.field.axis n).frozen = false ∧
        (t.field.axis n).reflost = true ∧
        (t.field.axis n).pos = s.field.posAt n s.fieldNs + BitVec.ofInt 64 step ∧
        (∀ k, k ≠ n → t.field.axis k = s.field.axis k) ∧ t = { s with field := t.field })) ∧
    (y.desc.en = true → d = 1 ∨ d = 3 → y.overspeed = true → y.stale = false ∨ y.openWire = false → Answers (.encoderEdge x a b) s (fun t =>
      (if (t.field.axis n).overspeed then (t.field.axis n).pos = y.pos ∧ (t.field.axis n).skipped = y.skipped + step
       else (t.field.axis n).pos = y.pos + BitVec.ofInt 64 (y.skipped + step) ∧ (t.field.axis n).skipped = 0) ∧
      (∀ k, k ≠ n → t.field.axis k = s.field.axis k) ∧ t = { s with field := t.field }))) ∧
  (∀ (s : State) (x : Fin 8),
    s.field.powered = true →
    let a := s.field.axis x.val
    let p := s.field.posAt x.val s.fieldNs
    let record := fun (t : State) (code sev : Nat) =>
      t.field.evq = s.field.evq ++ [⟨code, sev, 0x28 + x.val, [BitVec.ofNat 32 x.val, p.extractLsb' 0 32, p.extractLsb' 32 32]⟩]
    (x.val ≠ 0 → a.desc.en = true → a.stale = false → (a.frozen = false ∨ a.overspeed = true) →
      Answers (.axisStale x) s (fun t => (t.field.axis x.val).stale = true ∧ (t.field.axis x.val).base = s.field.rateAt x.val s.fieldNs ∧
        (t.field.axis x.val).vel = s.field.rateAt x.val s.fieldNs ∧ (t.field.axis x.val).pos = p ∧ record t 0x0301 4 ∧
        (∀ k, k ≠ x.val → t.field.axis k = s.field.axis k) ∧ t = { s with field := t.field })) ∧
    (x.val = 0 ∨ a.desc.en = false ∨ a.stale = true ∨ (a.frozen = true ∧ a.overspeed = false) → Answers (.axisStale x) s (fun t => t = s)) ∧
    (x.val ≠ 0 → a.desc.en = true → a.stale = true → a.frozen = false →
      Answers (.axisFrozen x) s (fun t => (t.field.axis x.val).frozen = true ∧ t.field.velAt x.val s.fieldNs = 0 ∧
        (t.field.axis x.val).pos = p ∧ record t 0x0302 5 ∧
        (∀ k, k ≠ x.val → t.field.axis k = s.field.axis k) ∧ t = { s with field := t.field })) ∧
    (x.val = 0 ∨ a.desc.en = false ∨ a.stale = false ∨ a.frozen = true → Answers (.axisFrozen x) s (fun t => t = s)) ∧
    (∀ h : Fin 4, h.val + 1 = x.val →
      (a.desc.en = true → a.homep = true → Answers (.home h) s (fun t => (t.field.axis x.val).pos = a.homeVal ∧
        (t.field.axis x.val).mpos = reduceMod a.homeVal a.desc.mod ∧ (t.field.axis x.val).prev = reduceMod a.homeVal a.desc.mod ∧
        (t.field.axis x.val).homep = false ∧ (t.field.axis x.val).reflost = false ∧
        (∀ k, k ≠ x.val → t.field.axis k = s.field.axis k) ∧ t = { s with field := t.field })) ∧
      (a.desc.en = false ∨ a.homep = false → Answers (.home h) s (fun t => t = s)))) ∧
  (∀ (s : State) (rising : Bool) (t0 : Nat),
    s.field.powered = true →
    let a := s.field.axis 5
    let span := s.fieldNs - t0
    let inRange := decide (1000000000 ≤ span * 66 ∧ span * 45 ≤ 1000000000)
    a.desc.en = true →
    lastCrossing s.field.syncT rising = some t0 →
    (inRange = true → a.stale = false → a.frozen = false →
      Answers (.syncCrossing rising) s (fun t => (t.field.axis 5).pos = s.field.posAt 5 s.fieldNs ∧
        (t.field.axis 5).adjEnd = s.fieldNs + span / 2 ∧ (t.field.axis 5).stale = false ∧
        (t.field.axis 5).base = (if rising then ⟨65536 * 65536, span⟩ else a.base) ∧ 0 ≤ (t.field.axis 5).vel.num ∧
        (∀ k, k ≠ 5 → t.field.axis k = s.field.axis k) ∧ t = { s with field := t.field })) ∧
    (inRange = false → a.frozen = false →
      Answers (.syncCrossing rising) s (fun t => (t.field.axis 5).stale = true ∧ (t.field.axis 5).goodRuns = 0 ∧
        (t.field.axis 5).pos = s.field.posAt 5 s.fieldNs ∧ (∀ k, k ≠ 5 → t.field.axis k = s.field.axis k) ∧ t = { s with field := t.field })) ∧
    (inRange = true → a.stale = true ∨ a.frozen = true →
      (a.goodRuns = 0 → Answers (.syncCrossing rising) s (fun t => t.field.axis 5 = { a with goodRuns := 1 } ∧
        (∀ k, k ≠ 5 → t.field.axis k = s.field.axis k) ∧ t = { s with field := t.field })) ∧
      (1 ≤ a.goodRuns → Answers (.syncCrossing rising) s (fun t => (t.field.axis 5).stale = false ∧ (t.field.axis 5).frozen = false ∧
        (t.field.axis 5).adjEnd = s.fieldNs ∧ (∀ k, k ≠ 5 → t.field.axis k = s.field.axis k) ∧ t = { s with field := t.field }))))

/-- Staging of table records (05 R213-R215, R223, R224): a record joins its master's buffer while it has room and no cause
refuses it, and pt.err reads 0; a refused one shows its cause, 5 for the full buffer and 6 for a home of an axis without a Z
input; PT_RD reads the host-side record of an entry. Applied records (05 R203, R211, R214-R216): the head of the queue
writes, disables, presets or arms a home. A write comes after its tick's evaluation of its axis; the entry waits armed
unless its axis, which is not FROZEN and whose channel no force holds, has gone past the position forward since REF by less
than half the modulo length: then it fires at once, late. A decided action of the position event table (05 R210, R212, R217,
R220): the one that is due first takes place at its instant by its ACTION and leaves a note with that instant, the state of
its axis and the action's value; before the instant, and out of its turn, nothing happens. Clauses that follow the model's
reading and no rule's words: notes/assumptions/503.md, notes/assumptions/507.md. -/
def Obligations.PositionTable : Prop :=
  (∀ (s : State) (m : Master) (v : Word),
    m.world = .system ∨ m.world = .program →
    s.masterExists m = true →
    let own := match m with | .lp n => s.prog.ownsDo n.val | _ => (fun _ => true)
    let w0 := s.mport m 0x941
    let p := s.mport m 0x944 ++ s.mport m 0x943
    let ax := (s.mport m 0x94C).toNat
    let val := s.mport m 0x94E ++ s.mport m 0x94D
    let cause := entryCause s.prog.axes w0 (s.mport m 0x942) p own
    let zhome := (axisDesc s.prog.axes ax).zhome
    let h := s.ptHost.get (fun _ => {}) (s.mport m 0x940).toNat
    let stages := fun (i : Instr) (r : Rec) => Answers i s (fun t => t.staged m = s.staged m ++ [r] ∧ t.mport m 0x954 = 0 ∧
      (∀ k, k ≠ m → t.staged k = s.staged k) ∧ t = { s with ptStage := t.ptStage, mports := t.mports })
    let refuses := fun (i : Instr) (c : Nat) => Answers i s (fun t => t.mport m 0x954 = BitVec.ofNat 32 c ∧ t = { s with mports := t.mports })
    ((s.staged m).length < 256 →
      (cause = 0 → stages (.ptWr m v) (Rec.mk 1 0 (s.mport m 0x940).toNat (w0 &&& 0xFFC0FFFF) (s.mport m 0x942) p
        (s.stageRef m (entryAxis w0)).1 (s.stageRef m (entryAxis w0)).2)) ∧
      stages (.ptDis m v) (Rec.mk 2 0 (s.mport m 0x940).toNat 0 0 0 0 false) ∧
      stages (.ptPreset m v) (Rec.mk 3 ax 0 0 0 val 0 false) ∧
      (zhome = true → stages (.ptHome m v) (Rec.mk 4 ax 0 0 0 val 0 false)) ∧
      (zhome = false → refuses (.ptHome m v) 6)) ∧
    (256 ≤ (s.staged m).length →
      (cause = 0 → refuses (.ptWr m v) 5) ∧ refuses (.ptDis m v) 5 ∧ refuses (.ptPreset m v) 5 ∧ refuses (.ptHome m v) 5) ∧
    (cause ≠ 0 → refuses (.ptWr m v) cause) ∧
    Answers (.ptRd m v) s (fun t => t.mport m 0x959 = h.w0 ∧ t.mport m 0x95B = h.tf.extractLsb' 0 32 ∧
      t.mport m 0x95C = h.tf.extractLsb' 32 32 ∧ t.mport m 0x95D = h.val ∧ t = { s with mports := t.mports })) ∧
  (∀ (s : State) (r : Rec) (rest : List Rec),
    s.field.powered = true →
    s.field.recq = r :: rest →
    let a := s.field.axis r.axsel
    let kept := fun (t : State) => t.field.recq = rest ∧ (∀ k, k ≠ r.axsel → t.field.axis k = s.field.axis k) ∧ t = { s with field := t.field }
    (∀ x : Fin 8, entryAxis r.w0 = x.val → r.kind = 1 → Answers (.rearmByHysteresis x) s (fun u =>
      let m := (s.field.axis x.val).desc.mod
      let cur := u.field.mposAt x.val s.fieldNs
      let pos := u.field.posAt x.val s.fieldNs
      let ref := if r.live then pos else r.ref
      let gone := smod (cur - ref) m
      let stays := decide (m ≠ 0 ∧ m.toNat ≤ 2 * (pos - ref).toInt.natAbs) || s.field.heldByForce r.w0 || u.field.axisFrozen x.val
      let e : Entry := { w0 := r.w0, hyst := r.hyst, posn := r.value, armf := entryFwd r.w0, armr := entryRev r.w0, done := false }
      ((stays = true ∨ gone = 0) → Answers .schedEntryWrite s (fun t => t.field.recq = rest ∧ t.field.entry r.index = e ∧
        (∀ k, k ≠ r.index → t.field.entry k = u.field.entry k) ∧ t.field.notes = s.field.notes ∧ (t.field.axis x.val).prev = cur ∧
        t = { s with field := t.field, ptHost := t.ptHost })) ∧
      (stays = false → s.field.notes.length < 1024 → 0 < gone → entryFwd r.w0 = true → 0 < umod (r.value - ref) m → umod (r.value - ref) m ≤ gone →
        Answers .schedEntryWrite s (fun t => t.field.recq = rest ∧
          t.field.entry r.index = { e with armf := false, armr := false, done := !entryRearm r.w0 } ∧
          (∀ k, k ≠ r.index → t.field.entry k = u.field.entry k) ∧
          (∃ q, t.field.notes = s.field.notes ++ [q] ∧ q.late = true ∧ q.index = r.index ∧ q.revd = false ∧ q.tf = s.fieldAx0 ∧
            (x.val = 0 → m = 0 → q.lateness = BitVec.ofNat 32 (min (cur - r.value).toInt.toNat 0xFFFFFFFF))) ∧
          t = { s with field := t.field, ptHost := t.ptHost, free := t.free })))) ∧
    (r.kind = 2 → Answers .schedEntryDisable s (fun t => t.field.recq = rest ∧
      t.field.entry r.index = { s.field.entry r.index with w0 := (s.field.entry r.index).w0 &&& 0xE7FFFFFF } ∧
      (∀ k, k ≠ r.index → t.field.entry k = s.field.entry k) ∧ t = { s with field := t.field, ptHost := t.ptHost })) ∧
    (r.kind = 3 → Answers .schedPreset s (fun t => kept t ∧
      (r.axsel = 0 → t.field.axis 0 = s.field.axis 0) ∧
      (r.axsel ≠ 0 → (t.field.axis r.axsel).pos = reduceMod r.value a.desc.mod ∧ (t.field.axis r.axsel).reflost = false ∧
        (t.field.axis r.axsel).prev = reduceMod (reduceMod r.value a.desc.mod) a.desc.mod))) ∧
    (r.kind = 4 → Answers .schedHome s (fun t => kept t ∧
      (a.desc.zhome = true → t.field.axis r.axsel = { a with homep := true, homeVal := r.value }) ∧
      (a.desc.zhome = false → t.field.axis r.axsel = a))) ∧
    (r.kind ≠ 1 → Answers .schedEntryWrite s (fun t => t = s)) ∧ (r.kind ≠ 2 → Answers .schedEntryDisable s (fun t => t = s)) ∧
    (r.kind ≠ 3 → Answers .schedPreset s (fun t => t = s)) ∧ (r.kind ≠ 4 → Answers .schedHome s (fun t => t = s))) ∧
  (∀ (s : State) (e : Fin 4096) (d : Decided) (rest : List Decided),
    s.field.powered = true →
    s.field.decided = d :: rest →
    d.index = e.val →
    let act := entryAction d.w0
    let lead := s.field.leader (entryTarget d.w0 % 16)
    let fires := fun (i : Instr) (val : Word) (body : State → Prop) => Answers i s (fun t =>
      t.field.decided = rest ∧ t.field.table = s.field.table ∧
      t.field.notes = s.field.notes ++ [Note.mk false (s.field.unreached d d.due) (s.field.axis (entryAxis d.w0)).stale d.back act e.val
        (s.field.ax0At d.due) val 0] ∧ t.field.axes = s.field.axes ∧ body t ∧ t = { s with field := t.field })
    (d.due ≤ s.fieldNs → s.field.notes.length < 1024 →
      (act = 0 → fires (.actionNone e) 0 (fun t => t.field.outs = s.field.outs)) ∧
      (act = 1 → fires (.actionSet e) 0 (fun t => (t.field.out lead).placed = true)) ∧
      (act = 2 → fires (.actionClear e) 0 (fun t => (t.field.out lead).placed = false)) ∧
      (act = 3 → fires (.actionToggle e) 0 (fun t => (t.field.out lead).placed = !(s.field.out lead).placed)) ∧
      (act = 4 → fires (.actionSnap e) (s.field.snapInputs (entryTarget d.w0 % 16)) (fun t => t.field.outs = s.field.outs)) ∧
      (act = 5 → fires (.actionLatch e) (s.field.ctr (entryTarget d.w0 % 16)).cnt (fun t => t.field.ctrs = s.field.ctrs)) ∧
      (act = 6 → fires (.actionTask e) 0 (fun t => t.field.outs = s.field.outs)) ∧
      (act = 7 → fires (.actionBustx e) 0 (fun t => t.field.cans = (if s.field.safeact then s.field.cans
        else (s.field.request (entryTarget d.w0 / 4 % 2) (entryTarget d.w0 % 4)).cans)))) ∧
    (s.fieldNs < d.due → Answers (.actionNone e) s (fun t => t = s) ∧ Answers (.actionSet e) s (fun t => t = s) ∧
      Answers (.actionClear e) s (fun t => t = s) ∧ Answers (.actionToggle e) s (fun t => t = s) ∧ Answers (.actionSnap e) s (fun t => t = s) ∧
      Answers (.actionLatch e) s (fun t => t = s) ∧ Answers (.actionTask e) s (fun t => t = s) ∧ Answers (.actionBustx e) s (fun t => t = s)))

/-- Arrivals (08 R303, R304, R320, R324): outside BOOT a source counts to 255, then marks a loss; ic.raise is an arrival of a
source from 0x80 on and of nothing else, ic.clr empties a source, ic.hold sets the hold. Every master of the SYSTEM and
PROGRAM worlds that is there may raise and clear. ic.cfg (00 R12; 08 R305-R307): the source that ic.sel names takes the word
without its reserved bits, 0x2E and 0x2F keep TARGET 8, an ACTIVE source keeps its TARGET and MODE or the write is ignored
whole, and a logical processor that is there writes only within its own target: any other write of its own is a silent
violation. Completion (08 R318): ic.done makes the ACTIVE source that it names inactive where the source's TARGET is the
writer's; any other operand completes nothing and counts an error of the writer's target, up to 65,535. -/
def Obligations.InterruptCommands : Prop :=
  (∀ (s : State) (q : Fin 256) (m : Master) (v : Word),
    m.world = .system ∨ m.world = .program →
    s.masterExists m = true →
    let x := s.src q.val
    let y := if x.cnt = 255 then { x with asat := true } else { x with cnt := x.cnt + 1 }
    (reservedSource q.val = false → s.boot = .done → Answers (.irqArrival q) s (fun t => t.src q.val = y ∧
      (∀ k, k ≠ q.val → t.src k = s.src k) ∧ t = { s with srcs := t.srcs })) ∧
    (reservedSource q.val = true ∨ s.boot ≠ .done → Answers (.irqArrival q) s (fun t => t = s)) ∧
    (v = BitVec.ofNat 32 q.val → 0x80 ≤ q.val → s.boot = .done → Answers (.icRaise m v) s (fun t => t.src q.val = y ∧
      (∀ k, k ≠ q.val → t.src k = s.src k) ∧ t = { s with srcs := t.srcs })) ∧
    (v.toNat < 0x80 ∨ 0x100 ≤ v.toNat → Answers (.icRaise m v) s (fun t => t = s)) ∧
    (v = BitVec.ofNat 32 q.val → Answers (.icClr m v) s (fun t => t.src q.val = { x with cnt := 0, asat := false } ∧
      (∀ k, k ≠ q.val → t.src k = s.src k) ∧ t = { s with srcs := t.srcs })) ∧
    (0x100 ≤ v.toNat → Answers (.icClr m v) s (fun t => t = s)) ∧
    (m.world = .system → Answers (.icHold m v) s (fun t => t = { s with hold := v.getLsbD 0 }))) ∧
  (∀ (s : State) (m : Master) (v : Word),
    let q := (s.mport m 0x400).toNat % 256
    let x := s.src q
    let fixed := decide (q = 0x2E ∨ q = 0x2F)
    let w : Word := if fixed then (v &&& 0xF083FFFF) ||| 0x08000000 else v &&& 0xFF83FFFF
    let keeps := decide ((w.extractLsb' 24 4).toNat = x.target) && (w.getLsbD 23 == x.taskMode)
    ((m.world = .system ∨ m.world = .boot) ∨ (∃ n, m = .lp n ∧ s.lpExists n.val = true ∧ x.target = n.val ∧ (w.extractLsb' 24 4).toNat = n.val) →
      reservedSource q = false →
      ((x.active = false ∨ keeps = true) → Answers (.icCfg m v) s (fun t => t.src q = { x with cfg := w } ∧
        (∀ k, k ≠ q → t.src k = s.src k) ∧ t = { s with srcs := t.srcs })) ∧
      (x.active = true → keeps = false → Answers (.icCfg m v) s (fun t => t = s))) ∧
    (∀ n, m = .lp n → s.lpExists n.val = true → (x.target ≠ n.val ∨ (w.extractLsb' 24 4).toNat ≠ n.val) →
      Answers (.icCfg m v) s (fun t => t.srcs = s.srcs ∧
        t.ks.vcnt = if s.ks.vcnt = BitVec.allOnes _ then s.ks.vcnt else s.ks.vcnt + 1))) ∧
  (∀ (s : State) (m : Master) (v : Word),
    m.world = .system ∨ m.world = .program →
    s.masterExists m = true →
    let q := v.toNat
    let x := s.src q
    let up := fun (e : BitVec 16) => if e = 0xFFFF then e else e + 1
    (q < 256 → x.active = true → x.target = m.target →
      Answers (.icDone m v) s (fun t => t.src q = { x with active := false } ∧
        (∀ k, k ≠ q → t.src k = s.src k) ∧ t = { s with srcs := t.srcs, hcLevels := t.hcLevels } ∧
        t.hcLevels = (if m.target = 8 then s.hcLevels.filter (fun e => e.src ≠ q) else s.hcLevels))) ∧
    ((256 ≤ q ∨ x.active = false ∨ x.target ≠ m.target) →
      (∀ n, m = .lp n → Answers (.icDone m v) s (fun t => t.lp n.val = { s.lp n.val with err := up (s.lp n.val).err } ∧
        (∀ p, p ≠ n.val → t.lp p = s.lp p) ∧ t = { s with lps := t.lps })) ∧
      (m.world = .system → Answers (.icDone m v) s (fun t => t = { s with hcErr := up s.hcErr }))))

/-- Delivery as a handler (08 R308-R314), outside a standby's step. Where the logical processor stands at an entry point and a
source is deliverable, the count is latched, the source becomes ACTIVE, its level joins the record, the frame of flags word
and return address goes below cu.sp as two posted stores, and the lane goes on at the vector; an idle one first takes the
stack registers of its start-up routine's descriptor. Where the stack has no room, nothing is delivered and a lane alone
halts with cause 0x01. A source of the house core's is latched in its record. Delivery in task mode (04 R154; 07 R280; 08
R310): the count is latched for the target and cleared, and every task of the target that names the source receives one
trigger: a task that waits for none becomes pending with its fire instant, one that is pending counts an overrun, and a
target outside RUN ignores it. -/
def Obligations.InterruptDelivery : Prop :=
  ((∀ (s : State) (p : Fin 8) (q : Nat), s.inStep = false → s.entryPoint p.val = true → q < 256 → s.owlsAgree (p.val / 2) →
    s.bestSource p.val (runningLevel (s.levelsOf p.val)) = some q →
    let l := s.laneOf p.val
    let x := s.lane l
    let y := s.lp p.val
    let idle := decide (y.phase = .idle) && !y.idleHandler
    let d := (s.prog.init p.val).getD ⟨0, 0, 0, 0⟩
    let top := if idle then d.stacktop else x.port 0x008
    let lim := if idle then d.stacklim else x.port 0x009
    let sp := top.toNat
    (lim.toNat + 2 ≤ sp →
      Answers (.handlerDelivery ⟨p.val, by omega⟩) s (fun t =>
        t.src q = { s.src q with cnt := 0, active := true } ∧ (∀ k, k ≠ q → t.src k = s.src k) ∧
        (t.lp p.val).levels = { level := (s.src q).level, src := q, ecnt := (s.src q).cnt } :: y.levels ∧
        (t.lp p.val).idleHandler = (y.idleHandler || idle) ∧
        (∀ k, k ≠ p.val → t.lp k = s.lp k) ∧ (t.lane l).pc = (s.src q).vector ∧
        (t.lane l).port 0x008 = BitVec.ofNat 32 (sp - 2) ∧ (t.lane l).flags = (if idle then {} else x.flags) ∧
        ((t.lane l).items.drop x.items.length).map (fun i => (i.dst, i.val)) =
          (if idle then [(sp - 1, some (Lane.flagsWord { x with flags := {}, bstk := [] })), (sp - 2, some (BitVec.ofNat 32 idleMarker))]
           else [(sp - 1, some x.flagsWord), (sp - 2, some (BitVec.ofNat 32 x.pc))]) ∧
        (∀ k, k ≠ l → t.lane k = s.lane k) ∧ t.mem = s.mem ∧
        (s.side l = .solo → t.regions = s.regions) ∧ (s.pl.role ≠ 1 → t.pl = s.pl) ∧
        t = { s with srcs := t.srcs, lps := t.lps, lanes := t.lanes, regions := t.regions, pl := t.pl })) ∧
    (sp < lim.toNat + 2 → s.side l = .solo →
      Answers (.handlerDelivery ⟨p.val, by omega⟩) s (fun t => t.src q = s.src q ∧ (t.lp p.val).st = .halt ∧
        (t.lp p.val).hcause = 0x01 ∧ t.mem = s.mem))) ∧
  (∀ (s : State) (q : Nat), q < 256 → s.bestSource 8 (runningLevel s.hcLevels) = some q →
    Answers (.handlerDelivery 8) s (fun t => t.src q = { s.src q with cnt := 0, active := true } ∧
      (∀ k, k ≠ q → t.src k = s.src k) ∧
      t = { s with srcs := t.srcs, hcLevels := { level := (s.src q).level, src := q, ecnt := (s.src q).cnt } :: s.hcLevels }))) ∧
  ((∀ (s : State) (q : Fin 256) (p : Fin 8) (t : Fin 32),
    let x := s.src q.val
    let d := s.prog.task p.val t.val
    let k := s.task p.val t.val
    x.cnt ≠ 0 → s.hold = false → x.taskMode = true → x.level ≠ 0 → x.target = p.val →
    Answers (.taskDelivery q) s (fun u => u.src q.val = { x with cnt := 0 } ∧ u.lp p.val = { s.lp p.val with taskEcnt := x.cnt } ∧
      (∀ k, k ≠ q.val → u.src k = s.src k) ∧ (∀ j, j ≠ p.val → u.lp j = s.lp j) ∧ u.mem = s.mem ∧ u.lanes = s.lanes ∧
      ((s.lp p.val).st ≠ .run ∨ d.en = false ∨ d.trig ≠ 2 ∨ d.arg ≠ q.val → u.task p.val t.val = k) ∧
      ((s.lp p.val).st = .run → s.lpExists p.val = true → d.en = true → d.trig = 2 → d.arg = q.val → s.inStep = false →
        (s.region (p.val / 2)).cov ≠ .handover →
        u.task p.val t.val = (if k.pend then { k with ovr := if k.ovr = 0xFFFF then k.ovr else k.ovr + 1 }
                              else { k with pend := true, ttf := s.pairTime })))) ∧
  (∀ (s : State) (q : Fin 256),
    let x := s.src q.val
    x.cnt ≠ 0 → s.hold = false → x.taskMode = true → x.level ≠ 0 → x.target = 8 →
    Answers (.taskDelivery q) s (fun u => u.src q.val = { x with cnt := 0 } ∧ (∀ k, k ≠ q.val → u.src k = s.src k) ∧
      u = { s with srcs := u.srcs, hcEcnt := x.cnt })))

/-- The barrier link at the host domain (09 R327-R334): outside BOOT a barrier cycle sends one host frame, with EPOCH and the
next SEQ, HEARTBEAT first and a new loopback pattern, then OUT_IMAGE. At a powered field die a new frame whose check holds
is accepted and restarts the safe-state timer; any other is discarded and counted. Field frames (04 R166, R185; 07 R290; 09
R327-R330): a powered field die sends one with EPOCH, the next SEQ, its inputs, its supply and its axes; the host domain
accepts a new one whose check holds, counts it in the mirror and ends field loss, and counts any other as discarded. Field
loss sets FLOST, and an active module with a fit partner relinquishes. Clauses that follow the model's reading and no rule's
words: notes/assumptions/904.md. -/
def Obligations.LinkFrames : Prop :=
  (∀ (s : State) (fr : Frame HostMsg) (noise : List Byte),
    let f := s.field
    let fresh := decide (f.rx.epoch ≠ some fr.epoch)
    (s.boot = .done → Answers .barrierCycleStart s (fun t =>
      (∃ fr, t.hframe = some fr ∧ fr.epoch = s.mram.hostEpoch ∧ fr.seq = s.txSeq ∧ fr.econ = t.econ ∧
        fr.msgs.take 2 = [.heartbeat s.ssackn s.pl.role s.mstate.code t.econ s.pairTime t.lbp s.wantCfg, t.outMsg]) ∧
      t.lbp ≠ s.lbp ∧ t.lbpPrev = s.lbp ∧ t.txSeq = s.txSeq + 1 ∧ t.cfgDue = false ∧ t.field = { f with rxStart := s.fieldNs } ∧ t.lanes = s.lanes)) ∧
    (s.boot ≠ .done → Answers .barrierCycleStart s (fun t => t = s)) ∧
    (s.hframe = some fr → f.powered = true → fr.arrives HostMsg.wire 1 noise = true → f.rx.accepts fr.epoch fr.seq = true →
      Answers (.hostFrameAccept noise) s (fun t =>
        t.field.rxMsgs = fr.msgs ∧ t.field.rx = { f.rx with epoch := some fr.epoch, seq := fr.seq } ∧
        t.field.lastAccept = s.fieldNs ∧ t.field.alignAt = f.rxStart ∧ t.field.safeWait = false ∧
        t.field.safeact = (f.safeact && !decide (frameAck fr.msgs = some f.sscnt)) ∧
        t.field.lastReqn = (if fresh then 0 else f.lastReqn) ∧
        (∀ x, x < 8 → t.field.axis x = (if fresh then { f.axis x with reflost := true, errcnt := 0 } else f.axis x)) ∧
        t = { s with hframe := none, field := t.field })) ∧
    (s.hframe = some fr → f.powered = true → fr.arrives HostMsg.wire 1 noise = false ∨ f.rx.accepts fr.epoch fr.seq = false →
      Answers (.hostFrameAccept noise) s (fun t =>
        t = { s with hframe := none, field := { f with rx := { f.rx with errs := if f.rx.errs = 0xFFFF then 0xFFFF else f.rx.errs + 1 } } })) ∧
    (f.powered = false → Answers (.hostFrameAccept noise) s (fun t => t = { s with hframe := none })) ∧
    (s.hframe = none → Answers (.hostFrameAccept noise) s (fun t => t = s))) ∧
  (∀ (s : State) (fr : Frame FieldMsg) (noise : List Byte),
    (∀ mv lo rb, s.field.powered = true → Answers (.fieldCycleStart mv lo rb) s (fun t =>
      (∃ fr, t.field.frame = some fr ∧ fr.epoch = s.field.epoch ∧ fr.seq = s.field.txSeq ∧ fr.econ = s.field.econ ∧
        fr.msgs.take 3 = [s.inImage rb, .supply s.field.lstate s.field.high (lo ++ mv),
          .axisState ((List.range 8).flatMap (fun x => s.field.axisWords x s.fieldNs)) (s.field.evq.filter (fun e => e.source < 0x30))]) ∧
      t.field.txSeq = s.field.txSeq + 1 ∧ (∀ k, (t.field.ctr k) = { s.field.ctr k with carry := false }) ∧ t.field.evq = [] ∧
      t.field.outs = s.field.outs ∧ t.field.ins = s.field.ins ∧ t.field.axes = s.field.axes ∧ t = { s with field := t.field })) ∧
    (s.field.frame = some fr → fr.arrives FieldMsg.wire 2 noise = true → s.hrx.accepts fr.epoch fr.seq = true →
      Answers (.fieldFrameAccept noise) s (fun t =>
        t.hrxMsgs = fr.msgs ∧ t.hrx = { s.hrx with epoch := some fr.epoch, seq := fr.seq } ∧ t.mrFseq = s.mrFseq + 1 ∧
        t.flost = false ∧ t.field = { s.field with frame := none } ∧
        t = { s with field := t.field, hrx := t.hrx, hrxMsgs := t.hrxMsgs, mrFseq := t.mrFseq, flost := t.flost, srcs := t.srcs })) ∧
    (s.field.frame = some fr → fr.arrives FieldMsg.wire 2 noise = false ∨ s.hrx.accepts fr.epoch fr.seq = false →
      Answers (.fieldFrameAccept noise) s (fun t =>
        t = { s with field := { s.field with frame := none }
                     hrx := { s.hrx with errs := if s.hrx.errs = 0xFFFF then 0xFFFF else s.hrx.errs + 1 } })) ∧
    (s.field.frame = none → Answers (.fieldFrameAccept noise) s (fun t => t = s)) ∧
    (s.flost = false → s.pl.role ≠ 1 ∨ s.partnerFit = false → Answers .flost s (fun t => t = { s with flost := true, srcs := t.srcs })) ∧
    (s.flost = false → s.pl.role = 1 → s.partnerFit = true → Answers .flost s (fun t => t.flost = true ∧ t.pl.own = false ∧
      t.pl.role = 2 ∧ t.pl.rc = 5 ∧ t.halted = true ∧ t.mem = s.mem)) ∧
    (s.flost = true → Answers .flost s (fun t => t = s)))

/-- What an accepted host frame's messages do at the field die (05 R190, R214, R219; 09 R332-R335, R341, R345; 10 R376). What an
accepted field frame's messages do in the host domain (04 R154, R186; 05 R207, R221, R225; 09 R337-R340; 10 R372). Clauses
that follow the model's reading and no rule's words: notes/assumptions/901.md, notes/assumptions/903.md,
notes/assumptions/1005.md. -/
def Obligations.LinkMessages : Prop :=
  (∀ (s : State) (rest : List HostMsg),
    let f := s.field
    let kept := fun (t : State) => t.field.rxMsgs = rest ∧ t = { s with field := t.field }
    (∀ a role mst e h lbp cfg, f.rxMsgs = .heartbeat a role mst e h lbp cfg :: rest → Answers .heartbeat s (fun t =>
      t.field.role = role ∧ t.field.mstate = mst ∧ t.field.lbp = lbp ∧ t.field.wantCfg = cfg ∧ t.field.econ = e ∧ t.field.ax0set = true ∧
      t.field.everCfgMatch = (f.everCfgMatch || (f.cfgok && decide (f.cfgid = cfg))) ∧
      (∃ err : Int, -8 ≤ err ∧ err ≤ 8 ∧ t.field.ax0off = h - BitVec.ofNat 64 f.alignAt + BitVec.ofInt 64 err) ∧ t.field.rxMsgs = rest ∧
      t = { s with field := t.field, free := t.free })) ∧
    (∀ val cmds crst rst dclr reqn, f.rxMsgs = .outImage val cmds crst rst dclr reqn :: rest → Answers .outImage s (fun t =>
      (∀ n, n < 16 → (t.field.out n).cmd = cmds.getD n .safe ∧ (t.field.out n).val = val.getLsbD n ∧
        (t.field.out n).sw = t.field.switchOf n) ∧
      (reqn ≠ 0 → reqn ≠ f.lastReqn → t.field.lastReqn = reqn ∧
        (∀ k, k < 12 → (t.field.ctr k).cnt = if crst.getLsbD k then 0 else (f.ctr k).cnt) ∧
        ∀ n, n < 16 → (t.field.out n).wt = ((f.out n).wt && !dclr.getLsbD n)) ∧
      ((reqn = 0 ∨ reqn = f.lastReqn) → t.field.lastReqn = f.lastReqn ∧ t.field.ctrs = f.ctrs) ∧
      (SMap.wf (fun _ => {}) f.table = true → ∀ i,
        let n := f.leader (entryTarget (f.entry i).w0 % 16)
        let safe := fun (c : OutCmd) => c == .safe || (c == .pdrive && !f.shared n)
        t.field.entry i = (if outputAction (f.entry i).w0 = true ∧ f.leader n = n ∧ f.isPlaced n = true ∧ safe (cmds.getD n .safe) = true ∧ safe (f.out n).cmd = false
          then { f.entry i with done := true, armf := false, armr := false } else f.entry i)) ∧
      kept t)) ∧
    (∀ b ofs n ws, f.rxMsgs = .cfgWrite [.block b ofs n ws] :: rest → Answers .cfgWrite s (fun t =>
      t.field.received b = placeWords (f.received b) ofs ws ∧ (ofs = 0 → n = ws.length → t.field.block b = some ws) ∧
      (∀ k, k ≠ b → t.field.block k = f.block k ∧ t.field.received k = f.received k) ∧
      t = { s with field := { f with rxMsgs := rest, blocks := t.field.blocks } })) ∧
    (∀ id a x b, f.rxMsgs = .cfgWrite [.commit id] :: rest → f.block 0x10 = some a → f.block 0x11 = some x →
      f.block 0x12 = some b → f.commitCheck id = 0 → Answers .cfgWrite s (fun t =>
        t.field.cfg = a ∧ t.field.cfgAxes = x ∧ t.field.cfgFbus = b ∧ t.field.cfgid = id ∧ t.field.cfgok = true ∧
        t.field.blocks = [] ∧ (∀ n, n < 16 → (t.field.out n).wt = false) ∧ kept t)) ∧
    (∀ id, f.rxMsgs = .cfgWrite [.commit id] :: rest → f.commitCheck id ≠ 0 → f.diagq.length < 256 →
      Answers .cfgWrite s (fun t => t = { s with field := { f with
        rxMsgs := rest, blocks := [], diagq := f.diagq ++ [⟨true, 8, f.commitCheck id, 0x41, s.fieldAx0⟩] } })) ∧
    (∀ rs, f.rxMsgs = .cfgWrite rs :: rest → Answers .cfgWrite s kept) ∧
    (∀ rs, f.rxMsgs = .schedWrite rs :: rest → Answers .schedWrite s (fun t =>
      t = { s with field := { f with rxMsgs := rest, recq := f.recq ++ rs } })) ∧
    (∀ r : BusTx, r.kind = 2 → f.rxMsgs = .busTx [r] :: rest → Answers .busTx s (fun t =>
      ((t.field.can r.ch).station r.index) = { (f.can r.ch).station r.index with data := r.words, run := r.run } ∧
      (∀ n, n ≠ r.index → (t.field.can r.ch).station n = (f.can r.ch).station n) ∧
      (∀ c, c ≠ r.ch → t.field.can c = f.can c) ∧
      t = { s with field := { f with rxMsgs := rest, cans := t.field.cans } })) ∧
    (∀ rs, f.rxMsgs = .busTx rs :: rest → Answers .busTx s kept)) ∧
  (∀ (s : State) (rest : List FieldMsg),
    (∀ di ts st ctr carry id re sc he sa ok fr, s.hrxMsgs = .inImage di ts st ctr carry id re sc he sa ok fr :: rest →
      Answers .inImage s (fun t => t.mrDi = di ∧ t.mrTs = ts ∧ t.mrDiSeq = s.mrFseq ∧ t.mrStat = st ∧ t.mrCtr = ctr ∧
        t.fdIn = some (id, sc, re, he, sa, ok) ∧ t.ptGen = (if fr then s.ptGen + 1 else s.ptGen) ∧
        t.reqNow = (if s.reqNow.isSome ∧ re = s.reqn then none else s.reqNow) ∧ t.hrxMsgs = rest ∧ t.lanes = s.lanes ∧ t.field = s.field)) ∧
    (∀ l high w, s.hrxMsgs = .supply l high w :: rest → Answers .supply s (fun t =>
      t.fdLs = BitVec.ofNat 3 (l.code + (if high then 4 else 0)) ∧ t.fdLplus = w ∧ t.hrxMsgs = rest ∧
      (t.fdLs ≠ s.fdLs → s.boot = .done → ((t.src 0x1A).cnt ≠ (s.src 0x1A).cnt ∨ (t.src 0x1A).asat = true)) ∧
      t = { s with fdLs := t.fdLs, fdLplus := t.fdLplus, hrxMsgs := rest, srcs := t.srcs, er := t.er })) ∧
    (∀ ws evs, s.hrxMsgs = .axisState ws evs :: rest → Answers .axisState s (fun t =>
      (evs = [] → t.er = s.er) ∧ t = { s with hrxMsgs := rest, mrAx := ws, er := t.er })) ∧
    (∀ dovf lbe es sc wtp on evs, s.hrxMsgs = .diag dovf lbe es sc wtp on evs :: rest → Answers .diag s (fun t =>
      t.fdDovf = dovf ∧ (∀ n, n < 16 → t.fdDiag.get (fun _ => 0) n = s.outState n (sc.getD n 0) (wtp.getD n 0) (on.getLsbD n)) ∧
      (s.pl.role = 2 → t.pl.loops = if lbe = ~~~s.lbp ∨ lbe = ~~~s.lbpPrev then satInc s.pl.loops else s.pl.loops) ∧
      (s.pl.role ≠ 2 → t.pl = s.pl) ∧ t.hrxMsgs = rest ∧ t.lanes = s.lanes ∧ t.field = s.field)) ∧
    (∀ ns n lost, s.hrxMsgs = .schedFired (ns ++ [n]) lost :: rest → Answers .schedFired s (fun t =>
      let old := s.ptHost.get (fun _ => {}) n.index
      let h := t.ptHost.get (fun _ => {}) n.index
      h.late = n.late ∧ h.unreached = n.unreached ∧ h.stalef = n.stale ∧ h.done = !entryRearm h.w0 ∧ h.tf = n.tf ∧ h.val = n.val ∧
      (ns = [] → h.fcnt = (if old.fcnt = 0xFFFF then 0xFFFF else old.fcnt + 1)) ∧
      t.ptLost.toNat = min (s.ptLost.toNat + lost) 65535 ∧
      (∀ i, (∀ x ∈ ns ++ [n], x.index ≠ i) → t.ptHost.get (fun _ => {}) i = s.ptHost.get (fun _ => {}) i) ∧
      t.hrxMsgs = rest ∧ t.field = s.field)) ∧
    (∀ c new nrx i ws, s.hrxMsgs = .busRxNote [.object c new nrx i ws] :: rest → Answers .busRxNote s (fun t =>
      t.mirrorObj c i = noteObject (s.mirrorObj c i) ws new nrx ∧ t.mrFb = s.mrFb ∧ t.hrxMsgs = rest ∧ t.lanes = s.lanes)) ∧
    (∀ c ws sts, s.hrxMsgs = .busRxNote [.status c ws sts] :: rest → Answers .busRxNote s (fun t =>
      (c < 2 → ∀ k, k < 4 → t.mrFb.get (fun _ => 0) (0x980 + c + 2 * k) = wordAt ws k) ∧ t.mrObj = s.mrObj ∧ t.hrxMsgs = rest ∧
      t.lanes = s.lanes)) ∧
    (∀ c i r k, s.hrxMsgs = .busRxNote [.done c i r k] :: rest → Answers .busRxNote s (fun t =>
      t.fbTxs.get (fun _ => 0) (3 * c + i) = (if i < 3 then r.setWidth 32 else s.fbTxs.get (fun _ => 0) (3 * c + i)) ∧
      t.mrObj = s.mrObj ∧ t.mrFb = s.mrFb ∧ t.hrxMsgs = rest ∧ t.lanes = s.lanes)) ∧
    (∀ rs, s.hrxMsgs = .busRxNote rs :: rest → Answers .busRxNote s (fun t => t.hrxMsgs = rest ∧ t.lanes = s.lanes ∧ t.field = s.field)))

/-- The field die's inputs and outputs (09 R346-R354): latch-off of a group, open-wire and open-load detection by two
evaluations in a row, external drive, filtered inputs and fast counters. Requests to the field die (09 R334, R358, R359,
R361): a mask of a system master waits in the next request, one of a logical processor's is staged where it owns every
channel that it names and is refused with fd.stat bit 9 otherwise; a read of a channel's state fills fd.dv. EXTDRV clears
(09 R353); on a channel that is not EXTDRV nothing differs. A tick's evaluation of an axis (05 R206, R211, R212, R217): the
position predicted Λ = 2 us ahead is compared with that of the tick before. Each armed entry that it crosses, unless a force
holds its channel, has its action decided: the entry is disarmed, done unless it re-arms, and the action waits for its fire
instant, in the order of the instants. The other entries arm by their hysteresis. A movement of M/4 in a tick freezes the
axis with OVERSPEED, and nothing is decided on an axis that is off or FROZEN. Clauses that follow the model's reading and no
rule's words: notes/assumptions/905.md. -/
def Obligations.FieldEvents : Prop :=
  (∀ (s : State),
    s.field.powered = true →
    let f := s.field
    let kept := fun (t : State) => t = { s with field := t.field }
    (∀ (d : Fin 16) hot, (f.out d.val).latched = false → (hot = true ∨ (f.out d.val).sw = .on) →
      Answers (.latchOff d hot) s (fun t =>
        (∀ n, n < 16 → f.leader n = f.leader d.val → (t.field.out n).latched = true ∧ (t.field.out n).sw = .off ∧
          (t.field.out n).latchedAt = s.fieldNs ∧ (t.field.out n).sccnt = satInc (f.out n).sccnt) ∧
        (∀ n, n < 16 → f.leader n ≠ f.leader d.val → (t.field.out n).latched = (f.out n).latched ∧
          (t.field.out n).sccnt = (f.out n).sccnt) ∧ kept t)) ∧
    (∀ (d : Fin 16) hot, (f.out d.val).latched = true ∨ (hot = false ∧ (f.out d.val).sw ≠ .on) → Answers (.latchOff d hot) s (fun t => t = s)) ∧
    (∀ (low : BitVec 32) (band high : BitVec 16), Answers (.diagnosticSlot low band high) s (fun t =>
      (∀ i, i < 32 → t.field.inp i =
        if f.owen i = false then f.inp i
        else if low.getLsbD i = (f.inp i).openw then { f.inp i with owCnt := 0 }
        else if (f.inp i).owCnt = 0 then { f.inp i with owCnt := 1 }
        else { f.inp i with openw := low.getLsbD i, owCnt := 0 }) ∧
      (∀ n, n < 16 → t.field.out n =
        if f.olen n = false ∨ f.leader n ≠ n ∨ (f.out n).sw ≠ .off ∨ f.lstate = .missing ∨ (f.out n).offAt.any (fun z => s.fieldNs < z + 1000000)
        then f.out n
        else if high.getLsbD n = true ∨ band.getLsbD n = (f.out n).openl then { f.out n with olCnt := 0 }
        else if (f.out n).olCnt = 0 then { f.out n with olCnt := 1 }
        else { f.out n with openl := band.getLsbD n, olCnt := 0 }) ∧ kept t)) ∧
    (∀ (d : Fin 16) l, f.leader d.val = l →
      ((f.out l).extdrv = false → (f.out l).sw ≠ .on → ((f.out l).sw = .partner → f.role ≠ 2) → Answers (.extdrv d) s (fun t =>
        (t.field.out l).extdrv = true ∧ (t.field.out l).wt = ((f.out l).wt || (s.wiredTo l != [])) ∧
        (∀ y rest, s.wiredTo l = y :: rest → (t.field.out l).wtp = BitVec.ofNat 8 (0x20 + y)) ∧
        (∀ n, n ≠ l → t.field.out n = f.out n) ∧ kept t)) ∧
      ((f.out l).extdrv = true ∨ (f.out l).sw = .on ∨ ((f.out l).sw = .partner ∧ f.role = 2) → Answers (.extdrv d) s (fun t => t = s))) ∧
    (∀ (i : Fin 32) level,
      (12 ≤ i.val → Answers (.filterChange i level) s (fun t => t.field.inp i.val = { f.inp i.val with lvl := level } ∧
        (∀ k, k ≠ i.val → t.field.inp k = f.inp k) ∧ t = { s with field := { f with ins := t.field.ins } })) ∧
      (i.val < 12 → Answers (.filterChange i level) s (fun t => t = s))) ∧
    (∀ (k : Fin 12) rising, Answers (.fastCounterEdge k rising) s (fun t =>
      let counts := decide (f.cmode k.val = 3 ∨ (f.cmode k.val = 1 ∧ rising = true) ∨ (f.cmode k.val = 2 ∧ rising = false))
      (t.field.inp k.val).lvl = rising ∧
      (counts = true → (t.field.ctr k.val).cnt = (f.ctr k.val).cnt + 1 ∧ (t.field.ctr k.val).last = s.fieldNs ∧
        (t.field.ctr k.val).carry = ((f.ctr k.val).carry || decide ((f.ctr k.val).cnt = 0xFFFFFFFF))) ∧
      (counts = false → t.field.ctr k.val = f.ctr k.val) ∧
      (∀ j, j ≠ k.val → t.field.ctr j = f.ctr j ∧ t.field.inp j = f.inp j) ∧
      t = { s with field := { f with ins := t.field.ins, ctrs := t.field.ctrs } }))) ∧
  (∀ (s : State) (m : Master) (v : Word),
    let own := fun (n : Nat) (t : Nat → Bool) => (List.range n).all (fun k => !v.getLsbD k || t k)
    let stages := fun (i : Instr) (owned : Bool) (f : Masks → Masks) =>
      (m.world = .system → Answers i s (fun t => t.reqNext = f s.reqNext ∧ t.mport m 0x900 = 0 ∧ t = { s with reqNext := t.reqNext, mports := t.mports })) ∧
      (∀ n, m = .lp n → owned = true → Answers i s (fun t => t.fdStage.get (fun _ => {}) m.code = f (s.fdStage.get (fun _ => {}) m.code) ∧
        t.mport m 0x900 = 0 ∧ t = { s with fdStage := t.fdStage, mports := t.mports })) ∧
      (∀ n, m = .lp n → owned = false → Answers i s (fun t => t.mport m 0x900 = 1 ∧ t = { s with mports := t.mports }))
    let does := fun (n : Nat) => s.prog.ownsDo m.target n
    (s.lets m 0x908 →
      stages (.fdRst m v) (own 16 does) (fun k => { k with rst := k.rst ||| v.setWidth 16 }) ∧
      stages (.fdCrst m v) (own 12 (fun n => s.prog.ownsIn m.target 8 n)) (fun k => { k with crst := k.crst ||| v.setWidth 12 }) ∧
      stages (.fdDclr m v) (own 16 does) (fun k => { k with dclr := k.dclr ||| v.setWidth 16 })) ∧
    (s.lets m 0x90D → Answers (.fdDrd m v) s (fun t =>
      let c := (s.mport m 0x90C).toNat
      t.sport 0x90E = (if c < 32 then flagAt 1 (s.mrStat.getLsbD c) ||| flagAt 0 (s.mrDi.getLsbD c)
        else if c < 48 then s.fdDiag.get (fun _ => 0) (c - 32) else 0) ∧ t = { s with sports := t.sports }))) ∧
  (∀ (s : State) (d : Fin 16),
    s.field.powered = true →
    ((s.field.out d.val).extdrv = true → Answers (.extdrvClear d) s (fun t =>
      t.field.out d.val = { s.field.out d.val with extdrv := false } ∧ (∀ n, n ≠ d.val → t.field.out n = s.field.out n) ∧
      t = { s with field := t.field })) ∧
    ((s.field.out d.val).extdrv = false → Answers (.extdrvClear d) s (fun t => t.field.out d.val = s.field.out d.val ∧
      (∀ n, n ≠ d.val → t.field.out n = s.field.out n) ∧ t = { s with field := t.field }))) ∧
  (∀ (s : State) (x : Fin 8),
    s.field.powered = true →
    let f := s.field
    let a := f.axis x.val
    let m := a.desc.mod
    let now := s.fieldNs
    let cur := f.mposAt x.val (now + 2000)
    let way := (f.posAt x.val (now + 2000) - f.posAt x.val (now + 1992)).toInt
    let fwd := fun (e : Entry) => e.armf && decide (entryDir e.w0 ≠ 0) && !f.heldByForce e.w0 && decide (0 < smod (cur - a.prev) m) &&
      decide (0 < umod (e.posn - a.prev) m) && decide (umod (e.posn - a.prev) m ≤ smod (cur - a.prev) m)
    let bwd := fun (e : Entry) => e.armr && decide (entryDir e.w0 ≠ 0) && !f.heldByForce e.w0 && decide (x.val ≠ 0 ∧ x.val ≠ 5) &&
      decide (smod (cur - a.prev) m < 0) && decide (0 < umod (a.prev - e.posn) m) && decide (umod (a.prev - e.posn) m ≤ -smod (cur - a.prev) m)
    (f.axisOn x.val = true → f.axisFrozen x.val = false → (m = 0 ∨ 4 * way.natAbs < m.toNat) → SMap.wf (fun _ => {}) f.table = true →
      Answers (.rearmByHysteresis x) s (fun t =>
        (∀ i, entryAxis (f.entry i).w0 = x.val → entryDir (f.entry i).w0 ≠ 0 →
          (fwd (f.entry i) = true ∨ bwd (f.entry i) = true →
            t.field.entry i = { f.entry i with done := (f.entry i).done || !entryRearm (f.entry i).w0
                                               armf := entryRearm (f.entry i).w0 && (!(f.entry i).done && entryFwd (f.entry i).w0 &&
                                                 decide (smod (cur - (f.entry i).posn) m < -((f.entry i).hyst.toNat : Int)))
                                               armr := entryRearm (f.entry i).w0 && (!(f.entry i).done && entryRev (f.entry i).w0 &&
                                                 decide ((f.entry i).hyst.toNat < smod (cur - (f.entry i).posn) m)) } ∧
            ∃ d ∈ t.field.decided, d.index = i ∧ d.w0 = (f.entry i).w0 ∧ d.posn = (f.entry i).posn ∧ d.back = !fwd (f.entry i) ∧
              d.due = f.fireAt (f.entry i) now) ∧
          (fwd (f.entry i) = false → bwd (f.entry i) = false → t.field.entry i = (f.entry i).rearm m cur)) ∧
        (∀ i, entryAxis (f.entry i).w0 ≠ x.val ∨ entryDir (f.entry i).w0 = 0 → t.field.entry i = f.entry i) ∧
        (∀ d ∈ f.decided, d ∈ t.field.decided) ∧
        (t.field.axis x.val).prev = cur ∧ (∀ k, k ≠ x.val → t.field.axis k = f.axis k) ∧ t.field.notes = f.notes ∧
        t.field.outs = f.outs ∧ t = { s with field := t.field })) ∧
    (f.axisOn x.val = true → f.axisFrozen x.val = false → m ≠ 0 → m.toNat ≤ 4 * way.natAbs →
      Answers (.rearmByHysteresis x) s (fun t => (t.field.axis x.val).frozen = true ∧ (t.field.axis x.val).overspeed = true ∧
        t.field.velAt x.val now = (if x.val = 0 then f.velAt 0 now else 0) ∧ t.field.table = f.table ∧ t.field.decided = f.decided ∧
        t.field.notes = f.notes ∧ (∀ k, k ≠ x.val → t.field.axis k = f.axis k) ∧ t = { s with field := t.field })) ∧
    (f.axisOn x.val = false ∨ f.axisFrozen x.val = true → Answers (.rearmByHysteresis x) s (fun t => t = s)))

/-- The supply and the safe state of the field die (01 R47; 09 R342-R344, R355; 05 R222): SSTO after the latest accepted frame
the outputs take their safe values; a power-up, or L+ below 9 V, resets the die but for its stored configuration; the supply
states follow L+. Without L+ the field die does nothing (01 R47; 09 R344): its axes, table, inputs, outputs, channels and
its end of the barrier link stand still. -/
def Obligations.FieldWithoutSupply : Prop :=
  (∀ (s : State),
    let f := s.field
    let ssto := (if f.cfgok then (wordAt f.cfg 0).toNat % 1024 else 50) * 1000000
    let kept := fun (t : State) => t = { s with field := t.field }
    (f.powered = true → f.safeWait = false → f.lastAccept + ssto ≤ s.fieldNs → Answers .safeStateTimeout s (fun t =>
      t.field.safeact = true ∧ t.field.safeWait = true ∧ t.field.sscnt = f.sscnt + 1 ∧
      (∀ n, n < 16 → (t.field.out n).sw = t.field.switchOf n) ∧ kept t)) ∧
    (f.powered = false ∨ f.safeWait = true ∨ s.fieldNs < f.lastAccept + ssto → Answers .safeStateTimeout s (fun t => t = s)) ∧
    (∀ up, Answers (.fieldDieReset up) s (fun t => t.field.powered = up ∧ t.field.epoch = f.epoch + 1 ∧ t.field.frst = true ∧
      t.field.cfgok = f.cfgok ∧ t.field.cfgid = f.cfgid ∧ t.field.cfg = f.cfg ∧ t.field.sscnt = f.sscnt ∧ t.field.table = [] ∧
      t.field.outs = [] ∧ t.field.ctrs = [] ∧ t.field.ins = [] ∧ t.field.ax0set = false ∧ t.field.lstate = .missing ∧
      t.field.diagq = [⟨true, 9, 0, 0x41, 0⟩] ∧ kept t)) ∧
    (f.powered = true →
      Answers (.supplyTransition .toOk) s (fun t => t.field.lstate = (if f.lstate = .low then .ok else f.lstate) ∧ kept t) ∧
      Answers (.supplyTransition .toLow) s (fun t => t.field.lstate = .low ∧ kept t) ∧
      Answers (.supplyTransition .toMissing) s (fun t => t.field.lstate = .missing ∧ (∀ n, n < 16 → (t.field.out n).sw = .off) ∧ kept t) ∧
      Answers (.supplyTransition .highOn) s (fun t => t.field.high = true ∧ t.field.lstate = f.lstate ∧ kept t) ∧
      Answers (.supplyTransition .highOff) s (fun t => t.field.high = false ∧ t.field.lstate = f.lstate ∧ kept t))) ∧
  (∀ (s : State),
    s.field.powered = false →
    let still := fun (i : Instr) => Answers i s (fun t => t = s)
    (∀ x a b, still (.encoderEdge x a b)) ∧ (∀ x, still (.home x)) ∧
    (∀ b, still (.syncCrossing b)) ∧
    (∀ x, still (.axisStale x) ∧ still (.axisFrozen x) ∧ still (.rearmByHysteresis x)) ∧
    (∀ e, still (.actionNone e) ∧ still (.actionSet e) ∧ still (.actionClear e) ∧ still (.actionToggle e) ∧ still (.actionSnap e) ∧
      still (.actionLatch e) ∧ still (.actionTask e) ∧ still (.actionBustx e)) ∧
    still .schedEntryWrite ∧ still .schedEntryDisable ∧ still .schedPreset ∧ still .schedHome ∧ still .safeStateTimeout ∧
    (∀ a b c, still (.fieldCycleStart a b c)) ∧ (∀ c, still (.supplyTransition c)) ∧
    (∀ d b, still (.latchOff d b)) ∧ (∀ a b c, still (.diagnosticSlot a b c)) ∧
    (∀ d, still (.extdrv d) ∧ still (.extdrvClear d)) ∧
    (∀ i b, still (.filterChange i b)) ∧ (∀ k b, still (.fastCounterEdge k b)) ∧
    (∀ c, still (.arbitrationStart c) ∧ still (.busOffRecoveryEnd c) ∧ still (.stuck c) ∧ still (.statusRecordPeriodic c) ∧ still (.recover c) ∧
      still (.clrst c) ∧ still (.clrcnt c) ∧ still (.recessiveIdlePeriod c)))

/-- A request of the field die stays in every host frame until it is echoed (09 R334). -/
def Obligations.RequestHeld : Prop :=
  ∀ (s : State) (m : Masks), s.reqNow = some m →
    (s.boot = .done → Answers .barrierCycleStart s (fun t => t.reqNow = some m ∧ t.reqn = s.reqn ∧
      ∃ fr, t.hframe = some fr ∧ (fr.msgs[1]?).any (fun (x : HostMsg) => match x with
        | .outImage _ _ crst rst dclr n => decide (crst = m.crst ∧ rst = m.rst ∧ dclr = m.dclr ∧ n = s.reqn)
        | _ => false) = true)) ∧
    (∀ rest di ts st ctr carry id re sc he sa ok fr, s.hrxMsgs = .inImage di ts st ctr carry id re sc he sa ok fr :: rest →
      Answers .inImage s (fun t => t.reqNow = (if re = s.reqn then none else some m) ∧ t.reqn = s.reqn))

/-- A received frame (10 R362, R369, R370): it overwrites the object of its standard identifier or of its entry in the list of
extended identifiers, counts its UCNT and waits as new for the next note; an extended frame that no object takes counts in
XDISC; a channel with FD = 0 answers an FD frame with an error frame (the LEC and the counter step are the model's choice,
notes/assumptions/1010.md); a channel that is off or bus-off takes nothing. Transmission (10 R362, R371, R375, R377-R379,
R381, R386): a start of arbitration puts the offered buffer on the bus in the frame that its words give; a success completes
it with OK, a lost arbitration leaves it pending, an error sends it again up to RLIM times and then completes it with
NOSEND, and a request that a stop has ended completes with the stop's result. Clauses that follow the model's reading and no
rule's words: notes/assumptions/1004.md. -/
def Obligations.CanFrames : Prop :=
  (∀ (s : State) (c : Fin 2) (fr : CanFrame), (Instr.canFrameReceive c fr).wf = true → s.field.powered = true →
    let k := s.field.can c.val
    let on := k.on = true ∧ k.est ≠ 2
    let taken := on ∧ (fr.fdf = true → k.fd = true)
    let stored := fun (i : Nat) (t : State) =>
      wordAt ((t.field.can c.val).obj i) 0 =
        flagAt 29 true ||| flagAt 28 fr.fdf ||| flagAt 27 fr.brs ||| flagAt 26 fr.esi ||| flagAt 25 fr.rtr |||
        at_ 16 ((fld (wordAt (k.obj i) 0) 23 16 + 1) % 256) ||| (wordAt (k.obj i) 0 &&& 0x300) ||| at_ 0 fr.len ∧
      ((t.field.can c.val).obj i).take (2 + (wordsOfBytes fr.data).length) =
        [wordAt ((t.field.can c.val).obj i) 0, flagAt 31 fr.ext ||| fr.id.setWidth 32] ++ wordsOfBytes fr.data ∧
      (∀ j, j ≠ i → (t.field.can c.val).obj j = k.obj j) ∧ (t.field.can c.val).xdisc = k.xdisc
    (taken → fr.ext = false → Answers (.canFrameReceive c fr) s (stored fr.id.toNat)) ∧
    (∀ e, taken → fr.ext = true →
      (List.range 64).find? (fun e => (wordAt s.field.cfgFbus (8 + 64 * c.val + e)).getLsbD 31 &&
        decide ((wordAt s.field.cfgFbus (8 + 64 * c.val + e)).extractLsb' 0 29 = fr.id)) = some e →
      Answers (.canFrameReceive c fr) s (stored (2048 + e))) ∧
    (taken → fr.ext = true →
      (∀ e, e < 64 → ¬ ((wordAt s.field.cfgFbus (8 + 64 * c.val + e)).getLsbD 31 = true ∧
        (wordAt s.field.cfgFbus (8 + 64 * c.val + e)).extractLsb' 0 29 = fr.id)) →
      Answers (.canFrameReceive c fr) s (fun t =>
        (t.field.can c.val).objs = k.objs ∧ (t.field.can c.val).xdisc = satInc k.xdisc)) ∧
    (on → fr.fdf = true → k.fd = false → k.tec < 256 → Answers (.canFrameReceive c fr) s (fun t =>
      t.field.can c.val = { k with errf := satInc k.errf, lec := 2, recn := min (k.recn + 1) 255 } ∧ t = { s with field := t.field })) ∧
    (k.on = false ∨ k.est = 2 → Answers (.canFrameReceive c fr) s (fun t => t = s))) ∧
  (∀ (s : State) (c : Fin 2) (b : Nat), s.field.powered = true → b < 3 →
    let k := s.field.can c.val
    let x := k.buf b
    let words := x.next.getD x.words
    let sending := (List.range 3).find? (fun i => decide ((k.buf i).st = .txing)) = some b ∧ ∀ i, i < 3 → i ≠ b → (k.buf i).due = none
    let frame := fun (t : State) => (∀ i, i ≠ b → (t.field.can c.val).buf i = k.buf i) ∧ (t.field.can c.val).line = none ∧
      t = { s with field := t.field }
    (k.on = true → k.est ≠ 2 → k.txoff = false → k.busy = false → k.offered = some (false, b) →
      Answers (.arbitrationStart c) s (fun t => (t.field.can c.val).buf b = { x with st := .txing } ∧
        (∀ i, i ≠ b → (t.field.can c.val).buf i = k.buf i) ∧
        (t.field.can c.val).line.all (fun fr =>
          let w := wordAt x.words 0
          fr.fdf = w.getLsbD 27 ∧ fr.brs = (w.getLsbD 27 && w.getLsbD 26 && k.brs) ∧
          fr.esi = (w.getLsbD 27 && decide (k.estate = 1)) ∧ fr.ext = (wordAt x.words 1).getLsbD 31 ∧
          fr.id = (wordAt x.words 1).extractLsb' 0 29 ∧
          fr.len = if w.getLsbD 27 then validFdLen (fld w 6 0) else fld w 6 0) ∧
        (t.field.can c.val).line ≠ none ∧ t = { s with field := t.field })) ∧
    (k.on = false ∨ k.est = 2 ∨ k.txoff = true ∨ k.busy = true ∨ k.offered = none → Answers (.arbitrationStart c) s (fun t => t = s)) ∧
    (sending → x.due = none → x.again = false → Answers (.attemptEnd c .success) s (fun t =>
      ((t.field.can c.val).buf b).st = .idle ∧ ((t.field.can c.val).buf b).count = x.count + 1 ∧
      t.field.busPend.getLast? = some (.done c.val b 1 (x.count + 1)) ∧ (t.field.can c.val).noPartner = false ∧ frame t)) ∧
    (sending → x.due = none → k.badFormat words = false → Answers (.attemptEnd c .lostArbitration) s (fun t =>
      ((t.field.can c.val).buf b).st = .pend ∧ ((t.field.can c.val).buf b).count = x.count ∧
      ((t.field.can c.val).buf b).words = words ∧ (t.field.can c.val).txabort = k.txabort ∧ frame t)) ∧
    (∀ r, sending → x.due = none → r ≠ .success → r ≠ .lostArbitration → Answers (.attemptEnd c r) s (fun t =>
      ((t.field.can c.val).buf b).count = x.count + 1 ∧
      (x.count + 1 ≤ k.rlim → k.badFormat words = false → ((t.field.can c.val).buf b).st = .pend ∧
        (t.field.can c.val).txabort = k.txabort) ∧
      (k.rlim < x.count + 1 → ((t.field.can c.val).buf b).st = .idle ∧ (t.field.can c.val).txabort = satInc k.txabort ∧
        BusPend.done c.val b 2 (x.count + 1) ∈ t.field.busPend) ∧ frame t)) ∧
    (sending → Answers (.attemptEnd c .ackError) s (fun t => (t.field.can c.val).ackRun = min (k.ackRun + 1) 16 ∧
      (t.field.can c.val).noPartner = (k.noPartner || decide (15 ≤ k.ackRun)) ∧ (t.field.can c.val).lec = 3)) ∧
    (∀ r res, sending → x.due = some res → Answers (.attemptEnd c r) s (fun t => ((t.field.can c.val).buf b).st = .idle ∧
      BusPend.done c.val b res (if r = .lostArbitration then x.count else x.count + 1) ∈ t.field.busPend ∧ frame t)) ∧
    (∀ r, k.busy = false → Answers (.attemptEnd c r) s (fun t => t.field.can c.val = { k with line := none } ∧ t = { s with field := t.field })))

/-- Errors and recovery of a channel (10 R380, R381, R383, R384, R395); the steps of the counters are those of ISO 11898-1
(notes/assumptions/1002.md). Clauses that follow the model's reading and no rule's words: notes/assumptions/1002.md. -/
def Obligations.BusErrors : Prop :=
  ∀ (s : State) (c : Fin 2), s.field.powered = true →
    let k := s.field.can c.val
    let frame := fun (t : State) => t = { s with field := t.field }
    let tec := fun (lec : BitVec 3) (e : ErrorStep) => match e with
      | .transmitter n => if lec = 3 ∧ k.estate = 1 then k.tec else k.tec + 8 + 8 * n
      | _ => k.tec
    let rcn := fun (e : ErrorStep) => match e with
      | .receiver n => min (k.recn + 1 + 8 * n) 255
      | _ => k.recn
    (k.on = true → Answers (.stuck c) s (fun t => t.field.can c.val = { k with stuck := true } ∧ frame t)) ∧
    (k.on = false → Answers (.stuck c) s (fun t => t = s)) ∧
    Answers (.recessiveIdlePeriod c) s (fun t => t.field.can c.val = { k with stuck := false } ∧ frame t) ∧
    (∀ lec e, k.on = true → k.est ≠ 2 → tec lec e < 256 → Answers (.errorFrame c lec e) s (fun t =>
      t.field.can c.val = { k with errf := satInc k.errf, lec := lec, tec := tec lec e, recn := rcn e } ∧ frame t)) ∧
    (∀ lec e, k.on = true → k.est ≠ 2 → 256 ≤ tec lec e → Answers (.errorFrame c lec e) s (fun t =>
      (t.field.can c.val).est = 2 ∧ (∀ b, b < 3 → ((t.field.can c.val).buf b).st = .idle) ∧
      (t.field.can c.val).recovering = k.autoRecover ∧ (t.field.can c.val).bowait = !k.autoRecover ∧ frame t)) ∧
    (∀ lec e, k.on = false ∨ k.est = 2 → Answers (.errorFrame c lec e) s (fun t => t = s)) ∧
    (k.est = 2 → k.bowait = true → Answers (.recover c) s (fun t =>
      t.field.can c.val = { k with bowait := false, recovering := true } ∧ frame t)) ∧
    (k.est ≠ 2 ∨ k.bowait = false → Answers (.recover c) s (fun t => t = s)) ∧
    (k.est = 2 → k.recovering = true → Answers (.busOffRecoveryEnd c) s (fun t =>
      t.field.can c.val = { k with est := 0, recovering := false, tec := 0, recn := 0 } ∧ frame t)) ∧
    (k.est ≠ 2 ∨ k.recovering = false → Answers (.busOffRecoveryEnd c) s (fun t => t = s)) ∧
    Answers (.clrst c) s (fun t => t.field.can c.val = { k with idClash := false, clashId := 0, clxtd := false } ∧ frame t) ∧
    Answers (.clrcnt c) s (fun t => t.field.can c.val = { k with xdisc := 0, errf := 0, mrg := 0, txabort := 0 } ∧ frame t) ∧
    Answers (.statusRecordPeriodic c) s (fun t => BusPend.stat c.val ∈ t.field.busPend ∧ t.field.cans = s.field.cans ∧ frame t)

/-- The station engine (10 R387-R389): a request of an enabled station takes the next SEQ and the latest output data: an idle
frame waits, a waiting one is replaced and a frame on the bus is followed by it, both merges counted; the first request
starts the station's window; a station that is not enabled does nothing. The bus commands of a master (10 R373, R376, R388,
R394): an acknowledge of an object that the master may read clears ND and LOST in the mirror; a request of a buffer and a
station's output data are staged by a logical processor that owns them and leave at once for the house core; any other is
refused with its code. Clauses that follow the model's reading and no rule's words: notes/assumptions/1005.md,
notes/assumptions/1006.md. -/
def Obligations.BusRequests : Prop :=
  (∀ (s : State) (c : Fin 2) (n : Fin 64), n ≠ 0 → s.field.powered = true →
    let k := s.field.can c.val
    let x := k.station n.val
    let on := k.on = true ∧ s.field.stationOn c.val n.val = true
    let id := BitVec.ofNat 32 (0x200 + n.val)
    (on → Answers (.stationRequest c n) s (fun t =>
      let y := (t.field.can c.val).station n.val
      y.seq = x.seq + 1 ∧ y.started = true ∧ y.gotInput = false ∧
      (x.started = false → y.sts = x.sts) ∧
      (x.started = true → x.gotInput = true → y.sts = .ok ∧ y.missed = 0) ∧
      (x.started = true → x.gotInput = false → y.missed = x.missed + 1 ∧
        y.sts = if stationToc (stationEntry s.field.cfgFbus c.val n.val) ≤ x.missed + 1 then .down
                else if x.sts = .ok then .stale else x.sts) ∧
      (x.buf.st = .idle → y.buf.st = .pend ∧ y.buf.count = 0 ∧ wordAt y.buf.words 1 = id ∧ (t.field.can c.val).mrg = k.mrg) ∧
      (x.buf.st = .pend → y.buf.st = .pend ∧ y.buf.count = x.buf.count ∧ wordAt y.buf.words 1 = id ∧
        (t.field.can c.val).mrg = satInc k.mrg) ∧
      (x.buf.st = .txing → y.buf.st = .txing ∧ y.buf.words = x.buf.words ∧ (y.buf.next.map (fun ws => wordAt ws 1)) = some id ∧
        (t.field.can c.val).mrg = satInc k.mrg) ∧
      (∀ j, j ≠ n.val → (t.field.can c.val).station j = k.station j) ∧ t = { s with field := t.field })) ∧
    (k.on = false ∨ s.field.stationOn c.val n.val = false → Answers (.stationRequest c n) s (fun t => t = s))) ∧
  (∀ (s : State) (m : Master) (v : Word),
    let refused := fun (code : Word) (i : Instr) => Answers i s (fun t => t.mport m 0x99D = code ∧ t = { s with mports := t.mports })
    let tc := (s.mport m 0x994).toNat / 4 % 2
    let tb := (s.mport m 0x994).toNat % 4
    let c := (s.mport m 0x996).toNat / 64 % 2
    let st := (s.mport m 0x996).toNat % 64
    let e := stationEntry s.prog.fbus c st
    let a := (s.mport m 0x997).toNat
    let last := a + ((e.toNat / 2 ^ 16) % 128 + 3) / 4 - 1
    let enabled := st ≠ 0 ∧ e.getLsbD 31 = true
    (s.lets m 0x990 →
      let c := (v.toNat / 2 ^ 12) % 2
      let i := v.toNat % 2 ^ 12
      let may := i < 2112 ∧ ∀ n, m = .lp n → s.prog.ownsIn n.val (0xA + c) i = true
      (may → (s.mirrorObj c i).length = 18 → Answers (.fbAck m v) s (fun t =>
        wordAt (t.mirrorObj c i) 0 = wordAt (s.mirrorObj c i) 0 &&&
          ((if v.getLsbD 16 then 0x7FFFFFFF else 0xFFFFFFFF) &&& (if v.getLsbD 17 then 0xBFFFFFFF else 0xFFFFFFFF)) ∧
        (t.mirrorObj c i).tail = (s.mirrorObj c i).tail ∧ t = { s with mrObj := t.mrObj })) ∧
      (¬ may → Answers (.fbAck m v) s (fun t => t = s))) ∧
    (s.lets m 0x995 →
      (m.world = .system → tb < 3 → Answers (.fbTxreq m v) s (fun t =>
        t.busOut = s.busOut ++ [BusTx.mk 1 tc false false tb []] ∧ t.mport m 0x99D = 0 ∧
        t = { s with busOut := t.busOut, fbTxs := t.fbTxs, mports := t.mports })) ∧
      (m.world = .system → tb = 3 → refused 1 (.fbTxreq m v)) ∧
      (∀ n, m = .lp n → s.prog.ownsOut n.val (0xA + tc) tb = true → Answers (.fbTxreq m v) s (fun t =>
        t.fbStage.get (fun _ => []) m.code = s.fbStage.get (fun _ => []) m.code ++ [.txreq tc tb] ∧
        t.mport m 0x99D = 0 ∧ t = { s with fbStage := t.fbStage, mports := t.mports })) ∧
      (∀ n, m = .lp n → s.prog.ownsOut n.val (0xA + tc) tb = false → refused 1 (.fbTxreq m v))) ∧
    (s.lets m 0x998 →
      (¬ enabled → refused 2 (.fbSput m v)) ∧
      (∀ n, m = .lp n → enabled → (e.toNat / 2 ^ 27) % 8 = n.val → inSlice (n.val / 2) a = true → inSlice (n.val / 2) (max a last) = true →
        Answers (.fbSput m v) s (fun t =>
          t.fbStage.get (fun _ => []) m.code = s.fbStage.get (fun _ => []) m.code ++ [.sput c st a] ∧
          t.mport m 0x99D = 0 ∧ t = { s with fbStage := t.fbStage, mports := t.mports })) ∧
      (∀ n, m = .lp n → enabled → (e.toNat / 2 ^ 27) % 8 = n.val →
        inSlice (n.val / 2) a = false ∨ inSlice (n.val / 2) (max a last) = false → refused 3 (.fbSput m v)) ∧
      (∀ n, m = .lp n → enabled → (e.toNat / 2 ^ 27) % 8 ≠ n.val → refused 1 (.fbSput m v)) ∧
      (m.world = .system → enabled → place a = .word → Answers (.fbSput m v) s (fun t =>
        (t.busOut.map (fun r => (r.kind, r.ch, r.index))) = (s.busOut.map (fun r => (r.kind, r.ch, r.index))) ++ [(2, c, st)] ∧
        t.mport m 0x99D = 0 ∧ t = { s with busOut := t.busOut, fbSout := t.fbSout, fbRun := t.fbRun, mports := t.mports })) ∧
      (m.world = .system → enabled → place a ≠ .word → refused 3 (.fbSput m v))))

/-- The rack cycle (11 R397, R398, R401-R404, R406, R411): the rack master takes the output snapshot and starts the input
phases; a board whose accesses all succeed is OK and gives its inputs to the mirror, one with a failed access counts it, and
the third in a row makes it FAILED; the mailbox is served; the later input phase ends the cycle and raises RACKCYC. Probes,
lines and commands of the rack bus (11 R398, R405, R406, R409, R410, R412): a probe of an enabled board compares the
identity that it reads under the board's mask; RIRQ lines arrive where they are enabled; RESET resets the module where RSTIN
lets it; the rack master rescans and drives RESET for its time. The byte order of an identity on D and the levels of the
other lines are the model's choice (notes/assumptions/1116.md, 1101.md). Clauses that follow the model's reading and no
rule's words: notes/assumptions/1101.md, notes/assumptions/1114.md. -/
def Obligations.RackBus : Prop :=
  (∀ (s : State),
    let k := s.rk
    let first := k.enabled.any (fun b => (k.board b).first) = true
    let reads := fun (b : Nat) => boardAccesses k.sect b false [] ++ windowAccesses k.sect b false []
    let writes := fun (b : Nat) => (k.snap.find? (fun o => o.1 == b)).elim [] (fun o => boardAccesses k.sect b true o.2)
    (s.rackMaster = true → ¬ first → Answers .rackCycle s (fun t => t = { s with rk := { k with
      snap := k.enabled.filterMap (fun b => if (k.board b).served then s.boardSnap b else none)
      running := true, cycAt := s.ns, par := [], ser := [] } })) ∧
    (s.rackMaster = false ∨ first → Answers .rackCycle s (fun t => t = s)) ∧
    (∀ as ns, (Instr.rackInputPhaseEnd as ns).wf = true → k.running = true → Answers (.rackInputPhaseEnd as ns) s (fun t =>
      let of := fun (b : Nat) => (as.find? (fun a => a.board.val == b)).getD { board := 0, reads := [], writes := [] }
      (∀ b ∈ k.enabled, (k.board b).served = true → (runAccesses (reads b) (of b).reads).2 = none →
        (t.rk.board b).stale = true ∧ (t.rk.board b).fails = min ((k.board b).fails + 1) 3 ∧
        (t.rk.board b).st = (if (k.board b).fails + 1 ≥ 3 then .failed else (k.board b).st)) ∧
      (∀ b ∈ k.enabled, ∀ d, (k.board b).served = true → mailboxBoard k.sect ≠ b → (runAccesses (reads b) (of b).reads).2 = some d →
        (runAccesses (writes b) (of b).writes).2 ≠ none →
        (t.rk.board b).stale = false ∧ (t.rk.board b).fails = 0 ∧ (t.rk.board b).st = .ok ∧
        ((∀ c ∈ k.enabled, boardNib k.sect c ≤ 1020) → ∀ j, j < 8 * boardNib k.sect b →
          t.rk.inBits.get (fun _ => 0) (0x48000 + (b - 1) * 0x2000 + j) = wordAt (byteBits (d.take (boardNib k.sect b))) j)) ∧
      (∀ b, (k.board b).served = false → t.rk.board b = k.board b) ∧
      (∀ b ∈ k.enabled, ∀ j, j < 5 →
        t.rk.inBits.get (fun _ => 0) (0x48000 + (b - 1) * 0x2000 + 0x1FE0 + j) = wordAt (t.statusBits b) j) ∧
      (let b := mailboxBoard k.sect
       (∀ d, b ∈ k.enabled → (k.board b).served = true → (runAccesses (reads b) (of b).reads).2 = some d →
         let q := windowOf (d.drop (padded (boardPers k.sect b) (boardNib k.sect b) + 4 * boardNiw k.sect b))
         let next := q.ack = s.hc.mbReply.tog ∧ s.hc.mbOut ≠ []
         t.hc.mbReply = (if next then { tog := !s.hc.mbReply.tog, ack := q.tog, data := s.hc.mbOut.take 63 }
                         else { s.hc.mbReply with ack := q.tog }) ∧
         t.hc.mbOut = (if next then s.hc.mbOut.drop 63 else s.hc.mbOut)) ∧
       (b ∉ k.enabled ∨ (k.board b).served = false ∨ (runAccesses (reads b) (of b).reads).2 = none → t.hc = s.hc)) ∧
      t.rk.running = false ∧ t.rk.cyc = k.cyc + 1 ∧ t.rk.tc = BitVec.ofNat 32 (min ns 0xFFFFFFFF) ∧ t.rk.tmax = (if k.tmax.ult t.rk.tc then t.rk.tc else k.tmax) ∧
      (s.boot = .done → (s.src 0x1E).cnt < 255 → (t.src 0x1E).cnt = (s.src 0x1E).cnt + 1) ∧
      t = { s with rk := t.rk, srcs := t.srcs, er := t.er, hc := { s.hc with mbReply := t.hc.mbReply, mbOut := t.hc.mbOut } })) ∧
    (∀ as ns, (Instr.rackInputPhaseEnd as ns).wf = true → k.running = false → Answers (.rackInputPhaseEnd as ns) s (fun t => t = s))) ∧
  (∀ (s : State),
    let k := s.rk
    let still := fun (i : Instr) => Answers i s (fun t => t = s)
    let held := (wordAt k.sect 0).getLsbD 31 = false ∨ k.rreset = true ∨ (s.pl.role = 2 ∧ s.pl.link = true ∧ s.pl.sensed = true)
    (∀ (b : Fin 21) answer, (Instr.identityProbe b answer).wf = true → s.rackMaster = true → boardOn k.sect b.val = true →
      Answers (.identityProbe b answer) s (fun t =>
        let mask := boardWord k.sect b.val 5
        let free := boardPers k.sect b.val = 0 ∧ mask = 0
        let a := probeAccess k.sect b.val
        (t.rk.board b.val).st = (if free then .ok else
          match probeValue k.sect b.val answer with
          | none => .missing
          | some v => if v &&& mask = boardWord k.sect b.val 6 &&& mask then .ok else .wrongid) ∧
        (t.rk.board b.val).rescan = false ∧ (t.rk.board b.val).first = false ∧
        ((t.rk.board b.val).st = .ok → (t.rk.board b.val).fails = 0) ∧
        t.rk.par = k.par ++ (if free ∨ a.pers = 3 then [] else [a]) ∧ t.rk.ser = k.ser ++ (if free ∨ a.pers ≠ 3 then [] else [a]) ∧
        (∀ c, c ≠ b.val → t.rk.board c = k.board c) ∧ t = { s with rk := t.rk, srcs := t.srcs, er := t.er })) ∧
    (∀ (b : Fin 21) answer, (Instr.identityProbe b answer).wf = true → s.rackMaster = false ∨ boardOn k.sect b.val = false →
      still (.identityProbe b answer)) ∧
    (∀ (n : Fin 8) lines, Answers (.rirqArrival n lines) s (fun t =>
      t.rk = { k with irql := lines.setWidth 8 ||| BitVec.ofNat 8 (2 ^ n.val), rstl := lines.getLsbD 8 } ∧
      ((wordAt k.sect 0).getLsbD n.val = true → s.boot = .done → (s.src (0x20 + n.val)).cnt < 255 →
        (t.src (0x20 + n.val)).cnt = (s.src (0x20 + n.val)).cnt + 1) ∧
      ((wordAt k.sect 0).getLsbD n.val = false → t.srcs = s.srcs) ∧ t = { s with rk := t.rk, srcs := t.srcs })) ∧
    (held → Answers .rackReset s (fun t => t = { s with rk := { k with rstl := true } })) ∧
    (¬ held → Answers .rackReset s (fun t => t.boot = .running ∧ t.pending = s.pending ∧
      (s.boot ≠ .running → t.resetReq = some .rackReset))) ∧
    (s.rackMaster = true → Answers .rescan s (fun t =>
      (∀ b, t.rk.board b = if b ∈ k.enabled then { k.board b with rescan := true } else k.board b) ∧
      t = { s with rk := { k with boards := t.rk.boards } })) ∧
    (s.rackMaster = false → still .rescan) ∧
    (∀ ms : BitVec 8, s.rackMaster = true → ms ≠ 0 → Answers (.rreset ms) s (fun t =>
      t = { s with rk := { k with rreset := true, rresetEnd := s.time + ms.toNat * 12000000 } })) ∧
    (∀ ms : BitVec 8, s.rackMaster = false ∨ ms = 0 → still (.rreset ms)) ∧
    (k.rreset = true → k.rresetEnd ≤ s.time → Answers .rresetEnd s (fun t => t = { s with rk := { k with rreset := false, rstl := false } })) ∧
    (k.rreset = false ∨ s.time < k.rresetEnd → still .rresetEnd))

/-- Ethernet ports and sessions (11 R414-R417, R426; 13 R482): a port's address, an opened and a finished handshake, the
closings with ALERT, a rekey, and a DATA record: the next SEQ with a good tag carries its request, any other closes. Clauses
that follow the model's reading and no rule's words: notes/assumptions/1102.md, notes/assumptions/1111.md,
notes/assumptions/1606.md. -/
def Obligations.HostSessions : Prop :=
  ∀ (s : State),
    (∀ (k : Fin 2), s.boot = .done → Answers (.ethernetLinkChange k false) s (fun t =>
      t.ethPort k.val = { s.ethPort k.val with up := false } ∧ (∀ j, j ≠ k.val → t.ethPort j = s.ethPort j) ∧
      t = { s with hc := { s.hc with eth := t.hc.eth } })) ∧
    (∀ (k : Fin 2), s.boot = .done → (s.ethPort k.val).up = false → Answers (.ethernetLinkChange k true) s (fun t =>
      (t.ethPort k.val).up = true ∧ (t.ethPort k.val).ip = wordAt s.ks.policy (2 + 3 * k.val) ∧
      (t.ethPort k.val).dhcp = decide (wordAt s.ks.policy (2 + 3 * k.val) = 0) ∧
      t = { s with hc := { s.hc with eth := t.hc.eth } })) ∧
    (∀ (k : Fin 2) up, (s.boot ≠ .done ∨ (up = true ∧ (s.ethPort k.val).up = true)) → Answers (.ethernetLinkChange k up) s (fun t => t = s)) ∧
    (∀ (k : Fin 2) ip, ((s.ethPort k.val).up = false ∨ (s.ethPort k.val).dhcp = false) →
      Answers (.dhcpAnswer k ip) s (fun t => t = s) ∧ Answers (.linkLocalFallback k ip) s (fun t => t = s)) ∧
    (∀ (k : Fin 2) ip, (s.ethPort k.val).ip ≠ 0 → Answers (.linkLocalFallback k ip) s (fun t => t = s)) ∧
    (∀ (k : Fin 2) ip, (s.ethPort k.val).up = true → (s.ethPort k.val).dhcp = true →
      Answers (.dhcpAnswer k ip) s (fun t => t.ethPort k.val = { s.ethPort k.val with ip := ip, linkLocal := false } ∧
        t = { s with hc := { s.hc with eth := t.hc.eth } }) ∧
      ((s.ethPort k.val).ip = 0 → Answers (.linkLocalFallback k ip) s (fun t =>
        t.ethPort k.val = { s.ethPort k.val with ip := ip, linkLocal := true } ∧ t = { s with hc := { s.hc with eth := t.hc.eth } }))) ∧
    (∀ (k : Fin 2) role ident key nonce, s.boot = .done → (s.ethPort k.val).up = true → (s.session 0).used = false →
      Answers (.helloH (if k = 0 then .x6 else .x6b) 1 role ident key nonce) s (fun t =>
        (t.session 0).used = true ∧ (t.session 0).opened = false ∧ (t.session 0).want = role ∧ (t.session 0).ident = ident ∧
        (t.session 0).key = key ∧ (∃ e n c g, t.hc.outbox = s.hc.outbox ++ [.helloM 0 e n c g]) ∧ t.hc.mbOut = s.hc.mbOut ∧
        (∀ j, j ≠ 0 → t.session j = s.session j) ∧ t = { s with hc := t.hc, free := t.free })) ∧
    (∀ (k : Fin 2) ver role ident key nonce, s.boot = .done → (s.ethPort k.val).up = true →
      (ver ≠ 1 ∨ (∀ i, i < 4 → (s.session i).used = true)) →
      Answers (.helloH (if k = 0 then .x6 else .x6b) ver role ident key nonce) s (fun t =>
        t = { s with hc := { s.hc with rej := satInc s.hc.rej, outbox := s.hc.outbox ++ [.alert (if ver ≠ 1 then 1 else 4)] } })) ∧
    (∀ (k : Fin 2) ver role ident key nonce, (s.boot ≠ .done ∨ (s.ethPort k.val).up = false) →
      Answers (.helloH (if k = 0 then .x6 else .x6b) ver role ident key nonce) s (fun t => t = s)) ∧
    (∀ (i : Fin 4) sig, (s.session i.val).used = true → (s.session i.val).opened = false → (s.ks.lc = 2 ∨ s.ks.lc = 4) →
      Answers (.finH i sig) s (fun t =>
        (Config.sm2Verify (s.session i.val).key (sm3Z (s.session i.val).key (s.session i.val).trans) sig = true → (t.session i.val).opened = true ∧
          (t.session i.val).role = (s.session i.val).want ∧ (t.session i.val).rxSeq = 0 ∧ (t.session i.val).txSeq = 0 ∧
          t.hc.outbox = s.hc.outbox ++ [.finM i.val (s.session i.val).want]) ∧
        (Config.sm2Verify (s.session i.val).key (sm3Z (s.session i.val).key (s.session i.val).trans) sig = false →
          t.session i.val = {} ∧ t.hc.outbox = s.hc.outbox ++ [.alert 2] ∧ t.hc.rej = satInc s.hc.rej) ∧
        (s.hc.op.all (fun o => decide (o.sess ≠ i.val)) = true → t = { s with hc := t.hc }))) ∧
    (∀ (i : Fin 4) sig e, (s.session i.val).used = true → (s.session i.val).opened = false → s.ks.lc = 3 →
      s.admission (s.session i.val).ident = some e → e.2 = 3 → Answers (.finH i sig) s (fun t =>
        (Config.sm2Verify (s.slot e.1).key (sm3Z (s.slot e.1).key (s.session i.val).trans) sig = true → (t.session i.val).opened = true ∧
          (t.session i.val).role = (s.session i.val).want ∧ (t.session i.val).rxSeq = 0 ∧ (t.session i.val).txSeq = 0 ∧
          t.hc.outbox = s.hc.outbox ++ [.finM i.val (s.session i.val).want]) ∧
        (Config.sm2Verify (s.slot e.1).key (sm3Z (s.slot e.1).key (s.session i.val).trans) sig = false →
          t.session i.val = {} ∧ t.hc.outbox = s.hc.outbox ++ [.alert 2] ∧ t.hc.rej = satInc s.hc.rej) ∧
        (s.hc.op.all (fun o => decide (o.sess ≠ i.val)) = true → t = { s with hc := t.hc }))) ∧
    (∀ (i : Fin 4) sig, (s.session i.val).used = true → (s.session i.val).opened = false →
      s.hc.op.all (fun o => decide (o.sess ≠ i.val)) = true →
      ((s.ks.lc ≠ 2 ∧ s.ks.lc ≠ 3 ∧ s.ks.lc ≠ 4) ∨ (s.ks.lc = 3 ∧ s.admission (s.session i.val).ident = none)) → Answers (.finH i sig) s (fun t =>
        t.session i.val = {} ∧ t.hc.outbox = s.hc.outbox ++ [.alert (if s.ks.lc = 3 then 2 else 3)] ∧ t.hc.rej = satInc s.hc.rej ∧
        t = { s with hc := t.hc })) ∧
    (∀ (i : Fin 4) sig, ((s.session i.val).used = false ∨ (s.session i.val).opened = true) → Answers (.finH i sig) s (fun t => t = s)) ∧
    (∀ (i : Fin 4), ((s.session i.val).used = false ∨ (s.session i.val).opened = true) → Answers (.handshakeTimeout i) s (fun t => t = s)) ∧
    (∀ (i : Fin 4), (s.session i.val).opened = false → Answers (.sessionTimeout i) s (fun t => t = s)) ∧
    (∀ (i : Fin 4), s.hc.op.all (fun o => decide (o.sess ≠ i.val)) = true →
      ((s.session i.val).used = true → (s.session i.val).opened = false → Answers (.handshakeTimeout i) s (fun t =>
        t.session i.val = {} ∧ t.hc.outbox = s.hc.outbox ++ [.alert 5] ∧ t.hc.rej = satInc s.hc.rej ∧ t = { s with hc := t.hc })) ∧
      ((s.session i.val).opened = true → Answers (.sessionTimeout i) s (fun t =>
        t.session i.val = {} ∧ t.hc.outbox = s.hc.outbox ++ [.alert 5] ∧ t.hc.rej = satInc s.hc.rej ∧ t = { s with hc := t.hc })) ∧
      Answers (.sessionClose i) s (fun t => t.session i.val = {} ∧ (∀ j, j ≠ i.val → t.session j = s.session j) ∧
        t.hc.outbox = s.hc.outbox ∧ t = { s with hc := t.hc })) ∧
    Answers .sessionRekey s (fun t => (∀ i, i < 4 → (s.session i).opened = true → (t.session i).rxSeq = 0 ∧ (t.session i).txSeq = 0 ∧
      (t.session i).opened = true) ∧ (∀ i, (s.session i).opened = false → t.session i = s.session i) ∧
      (s.pl.link = false → t.pl = s.pl) ∧ t = { s with hc := t.hc, free := t.free, pl := { s.pl with keys := t.pl.keys } }) ∧
    (∀ (i : Fin 4) seq intact tag q, ((s.session i.val).opened = false ∨
      s.hc.op.any (fun o => decide (o.sess = i.val) && o.wait.isSome) = true) → Answers (.hostData i seq intact tag q) s (fun t => t = s)) ∧
    (∀ (i : Fin 4) seq tag q, (s.session i.val).opened = true →
      s.hc.op.all (fun o => decide (o.sess ≠ i.val) || o.wait.isNone) = true → seq = (s.session i.val).rxSeq → seq ≠ 0xFFFFFFFF →
      (s.session i.val).txSeq ≠ 0xFFFFFFFF →
      Answers (.hostData i seq true tag q) s (fun t => (q = .ping → s.hc.op = none → (t.session i.val).rxSeq = seq + 1 ∧ s.replied t i.val 7 tag .ok 0 []) ∧
        t = (s.setSession i.val { s.session i.val with rxSeq := seq + 1 }).request i.val tag q)) ∧
    (∀ (i : Fin 4) seq intact tag q, (s.session i.val).opened = true → s.hc.op.all (fun o => decide (o.sess ≠ i.val)) = true →
      (intact = false ∨ seq ≠ (s.session i.val).rxSeq ∨ seq = 0xFFFFFFFF ∨ (s.session i.val).txSeq = 0xFFFFFFFF) → Answers (.hostData i seq intact tag q) s (fun t =>
        t.session i.val = {} ∧ t.hc.outbox = s.hc.outbox ++ [.alert 6] ∧ t = { s with hc := t.hc }))

/-- What every host request meets before it is carried out, in this order (11 R415, R418, R419, R425; 13 R456): no open session,
a request of the session that still waits for its reply, the long operation in progress (BUSY with its phase, progress and
CMD, and hc.busy counts), a module still in its boot (STATE), malformed parameters (BADREQ), a role too low (ROLE), and a
lifecycle state that does not permit it (STATE). -/
def Obligations.HostAnswers : Prop :=
  ∀ (s : State) (c : Instr) (i : Fin 4) (tag : BitVec 16) (q : HostReq), requestOf c = some (i, tag, q) →
    ((s.session i.val).opened = false → Answers c s (fun t => t = s)) ∧
    (s.hc.op.any (fun o => decide (o.sess = i.val) && o.wait.isSome) = true → Answers c s (fun t => t = s)) ∧
    (∀ o, (s.session i.val).opened = true → s.hc.op = some o → (o.sess ≠ i.val ∨ (o.wait = none ∧
      ((q ≠ .opcancel ∧ (∀ bs, q ≠ .opdata bs) ∧ (∀ len d, q ≠ .opend len d)) ∨ (o.phase ≠ 1 ∧ o.cmd ≠ 0x16)))) → Answers c s (fun t =>
      s.replied t i.val (reqCmd q) tag .busy 0 [at_ 24 o.phase.toNat ||| at_ 16 s.progress ||| at_ 0 o.cmd.toNat] ∧
      t.hc.busy = satInc s.hc.busy ∧ t.hc.op = s.hc.op ∧ t = { s with hc := t.hc, free := t.free })) ∧
    ((s.session i.val).opened = true → s.hc.op = none → s.boot ≠ .done → bootReq q = false → Answers c s (fun t =>
      s.replied t i.val (reqCmd q) tag .state 0 [] ∧ t = { s with hc := t.hc })) ∧
    ((s.session i.val).opened = true → s.hc.op = none → s.boot = .done → malformed q = true → Answers c s (fun t =>
      s.replied t i.val (reqCmd q) tag .badreq 0 [] ∧ t = { s with hc := t.hc })) ∧
    ((s.session i.val).opened = true → s.hc.op = none → s.boot = .done → malformed q = false →
      roleCode (s.session i.val).role < reqRole q → Answers c s (fun t =>
      s.replied t i.val (reqCmd q) tag .role 0 [] ∧ t = { s with hc := t.hc })) ∧
    ((s.session i.val).opened = true → s.hc.op = none → s.boot = .done → malformed q = false → 0 < reqRole q →
      reqRole q ≤ roleCode (s.session i.val).role → s.ks.lc ≠ 2 → s.ks.lc ≠ 3 → Answers c s (fun t =>
      s.replied t i.val (reqCmd q) tag .state 0 [] ∧ t = { s with hc := t.hc }))

/-- Requests that the module answers at once (11 R421-R423): the status words, the identity record, a region's record, the
latest operation, PING, and a move list: reads of word data, a write of a port, and a write that the HOST world does not
permit, which has no effect but its violation. Commands of the host that start something (11 R424, R425; 04 R170; 06 R248,
R257; 15 R529; 16 R537, R543): an accepted one is the long operation in progress; a refused one answers its reason. Clauses
that follow the model's reading and no rule's words: notes/assumptions/1114.md, notes/assumptions/1104.md,
notes/assumptions/1105.md, notes/assumptions/1106.md. -/
def Obligations.HostOperations : Prop :=
  (∀ (s : State) (i : Fin 4) (tag : BitVec 16), s.serves i.val → s.ks.lc = 3 →
    Answers (.hostStatus i tag) s (fun t =>
      s.replied t i.val 1 tag .ok 0 [s.portRead .host 0x840, s.hcStat, s.rkStat, s.portRead .host 0xA80] ∧ t = { s with hc := t.hc }) ∧
    Answers (.hostIdent i tag) s (fun t => s.replied t i.val 2 tag .ok 0 s.identRecord ∧ t = { s with hc := t.hc }) ∧
    (∀ n : Word, n.toNat < 4 → Answers (.hostRegion i tag n) s (fun t =>
      s.replied t i.val 3 tag .ok 0 (s.regionWords n.toNat) ∧ t = { s with hc := t.hc })) ∧
    (∀ n : Word, 4 ≤ n.toNat → Answers (.hostRegion i tag n) s (fun t => s.replied t i.val 3 tag .badreq 0 [] ∧ t = { s with hc := t.hc })) ∧
    Answers (.lastop i tag) s (fun t =>
      s.replied t i.val 6 tag .ok 0 [at_ 16 (fld s.hc.last 15 0) ||| at_ 0 (fld s.hc.last 31 16)] ∧ t = { s with hc := t.hc }) ∧
    Answers (.ping i tag) s (fun t => s.replied t i.val 7 tag .ok 0 [] ∧ t = { s with hc := t.hc }) ∧
    (∀ a : Addr, place a.toNat = .word → Answers (.hostMoves i tag [.read a]) s (fun t =>
      s.replied t i.val 4 tag .ok 0 [s.memGet a.toNat] ∧ t = { s with hc := t.hc })) ∧
    (∀ v, (wordAt s.ks.policy 1).getLsbD 1 = false → Answers (.hostMoves i tag [.lit v 0xB40]) s (fun t =>
      s.replied t i.val 4 tag .ok 0 [] ∧ t.mport .host 0xB40 = v &&& 0xFFFF ∧ t = { s with hc := t.hc, mports := t.mports })) ∧
    (∀ (a : Addr) v, place a.toNat = .word → (wordAt s.ks.policy 1).getLsbD 1 = false → Answers (.hostMoves i tag [.lit v a]) s (fun t =>
      s.replied t i.val 4 tag .ok 0 [] ∧ t.mem = s.mem ∧ t.mports = s.mports)) ∧
    (∀ m, (wordAt s.ks.policy 1).getLsbD 1 = true → readsOnly [m] = false → malformed (.moves [m]) = false →
      Answers (.hostMoves i tag [m]) s (fun t => s.replied t i.val 4 tag .role 0 [] ∧ t = { s with hc := t.hc }))) ∧
  (∀ (s : State) (i : Fin 4) (tag : BitVec 16), s.serves i.val → s.ks.lc = 3 →
    let op := fun (c : BitVec 16) (p : BitVec 2) => ({ cmd := c, sess := i.val, key := (s.session i.val).ident, phase := p } : LongOp)
    (∀ f, s.mstate = .stop → Answers (.hostLoad i tag f) s (fun t =>
      s.replied t i.val 0x10 tag .ok 0 [] ∧ t.hc.op = some { op 0x10 1 with forceclr := f } ∧ t = { s with hc := t.hc })) ∧
    (∀ f, s.mstate ≠ .stop → Answers (.hostLoad i tag f) s (fun t =>
      s.replied t i.val 0x10 tag .state 0 [] ∧ t.hc.op = none ∧ t = { s with hc := t.hc })) ∧
    (∀ n keep f, n.toNat < 4 → s.exchangeRefusal n.toNat = 0 → Answers (.exchange i tag n keep f) s (fun t =>
      s.replied t i.val 0x11 tag .ok 0 [] ∧ t.hc.op = some { op 0x11 1 with forceclr := f, region := n.toNat } ∧
      t.region n.toNat = { s.region n.toNat with cov := .exPrep, exStage := 1, exKeep := keep, exForce := f, exBytes := [] } ∧
      (∀ k, k ≠ n.toNat → t.region k = s.region k) ∧ t = { s with hc := t.hc, regions := t.regions })) ∧
    (∀ n keep f, n.toNat < 4 → s.exchangeRefusal n.toNat ≠ 0 → Answers (.exchange i tag n keep f) s (fun t =>
      s.replied t i.val 0x11 tag .refused (s.exchangeRefusal n.toNat) [] ∧ t = { s with hc := t.hc })) ∧
    (∀ n keep f, 4 ≤ n.toNat → Answers (.exchange i tag n keep f) s (fun t =>
      s.replied t i.val 0x11 tag .badreq 0 [] ∧ t = { s with hc := t.hc })) ∧
    (∀ n split runOdd, 4 ≤ n.toNat → Answers (.cover i tag n split runOdd) s (fun t =>
      s.replied t i.val 5 tag .badreq 0 [] ∧ t = { s with hc := t.hc })) ∧
    (∀ n runOdd, n.toNat < 4 → s.coverRefusal n.toNat false = 0 → s.atBoundary n.toNat = false → Answers (.cover i tag n false runOdd) s (fun t =>
      s.replied t i.val 5 tag .ok 0 [] ∧ t.region n.toNat = { s.region n.toNat with pendReq := some (false, runOdd) } ∧
      (∀ k, k ≠ n.toNat → t.region k = s.region k) ∧ t = { s with hc := t.hc, regions := t.regions, pl := t.pl })) ∧
    (∀ n runOdd, n.toNat < 4 → s.coverRefusal n.toNat true = 0 → s.atBoundary n.toNat = false → Answers (.cover i tag n true runOdd) s (fun t =>
      s.replied t i.val 5 tag .ok 0 [] ∧ t.region n.toNat = { s.region n.toNat with pendReq := some (true, runOdd), cov := .splitPend } ∧
      (∀ k, k ≠ n.toNat → t.region k = s.region k) ∧ t = { s with hc := t.hc, regions := t.regions, pl := t.pl })) ∧
    (∀ n split runOdd, n.toNat < 4 → s.coverRefusal n.toNat split ≠ 0 → Answers (.cover i tag n split runOdd) s (fun t =>
      s.replied t i.val 5 tag .refused (s.coverRefusal n.toNat split) [] ∧ t = { s with hc := t.hc })) ∧
    Answers (.fwstage i tag) s (fun t => s.replied t i.val 0x12 tag .ok 0 [] ∧ t.hc.op = some (op 0x12 1) ∧ t = { s with hc := t.hc }) ∧
    Answers (.settdump i tag) s (fun t => s.replied t i.val 0x16 tag .ok 0 [] ∧ t.hc.op = some (op 0x16 3) ∧ t = { s with hc := t.hc }) ∧
    Answers (.memtest i tag) s (fun t => t.hc.op = some { op 0x15 3 with wait := some (0x15, tag) } ∧ t.hc.outbox = s.hc.outbox ∧
      t.mram.staged = [] ∧ t.mram.delta = [] ∧ t.mram.current = s.mram.current ∧ t = { s with hc := t.hc, mram := t.mram }) ∧
    Answers (.recclr i tag s.recToken) s (fun t => t.er = { s.er with clr := true } ∧
      t.hc.op = some { op 0x14 3 with wait := some (0x14, tag) } ∧ t = { s with hc := t.hc, er := t.er }) ∧
    (∀ tok, tok ≠ s.recToken → Answers (.recclr i tag tok) s (fun t => s.replied t i.val 0x14 tag .refused 0x300 [] ∧
      t = { s with hc := t.hc })) ∧
    (∀ bs, Answers (.opdata i tag bs) s (fun t => s.replied t i.val 0x20 tag (if s.hc.last.toNat % 65536 = 5 then .aborted else .state) 0 [] ∧
      t = { s with hc := t.hc })))

/-- A long operation goes on and ends (11 R424, R426; 04 R170; 16 R537): its data gather, OPEND moves it to its check, OPCANCEL
aborts it with its target empty, its end gives LASTOP and the reply; a host command reset follows its request. Clauses that
follow the model's reading and no rule's words: notes/assumptions/1114.md, notes/assumptions/1105.md,
notes/assumptions/1107.md. -/
def Obligations.HostTransfers : Prop :=
  ∀ (s : State) (i : Fin 4) (tag : BitVec 16) (o : LongOp), (s.session i.val).opened = true → s.hc.op = some o → o.sess = i.val →
    (∀ bs, o.wait = none → o.phase = 1 → o.cmd = 0x10 → bs.length ≤ 16376 → o.bytes.length + bs.length ≤ 25165824 →
      Answers (.opdata i tag bs) s (fun t => s.replied t i.val 0x20 tag .ok 0 [] ∧
        t.hc.op = some { o with bytes := o.bytes ++ bs, started := true } ∧ t = { s with hc := t.hc })) ∧
    (o.wait = none → o.phase = 1 → o.cmd = 0x10 → Answers (.opend i tag o.bytes.length (Config.sm3 o.bytes)) s (fun t =>
      t = { s with hc := { s.hc with op := some { o with wait := some (0x21, tag), phase := 2 } } })) ∧
    (∀ len d, o.wait = none → o.phase = 1 → o.cmd = 0x10 → len ≠ o.bytes.length → Answers (.opend i tag len d) s (fun t =>
      t.hc.op = none ∧ t.hc.last = (0x10 : BitVec 16) ++ (4 : BitVec 16) ∧ s.replied t i.val 0x21 tag .refused 1 [] ∧
      t.prog = s.prog ∧ t.mram.current = s.mram.current)) ∧
    (o.wait = none → o.phase = 1 → o.cmd = 0x10 → Answers (.opcancel i tag) s (fun t =>
      t.hc.op = none ∧ t.hc.last = (0x10 : BitVec 16) ++ (5 : BitVec 16) ∧ s.replied t i.val 0x22 tag .aborted 0 [] ∧
      t.mram = (if s.mram.curB then { s.mram with bankA := [] } else { s.mram with bankB := [] }) ∧
      t = { s with hc := t.hc, mram := t.mram, er := t.er })) ∧
    (∀ w, o.wait = some w → o.cmd = 0x15 → ∀ found, Answers (.longOpComplete found) s (fun t =>
      t.hc.op = none ∧ t.hc.last = (0x15 : BitVec 16) ++ (0 : BitVec 16) ∧ s.replied t i.val w.1 w.2 .ok 0 [BitVec.ofNat 32 found] ∧
      t = { s with hc := t.hc, er := t.er })) ∧
    (∀ w, o.wait = some w → o.cmd = 0x14 → ∀ found, Answers (.longOpComplete found) s (fun t =>
      t.hc.op = none ∧ s.replied t i.val w.1 w.2 .ok 0 [] ∧ t.er.clr = false ∧ t.er.cnt = 1 ∧
      recCode (t.recordAt 0) = 1 ∧ (∀ k, k ≠ 0 → t.recordAt k = []) ∧ t.lanes = s.lanes ∧ t.prog = s.prog)) ∧
    (∀ w, o.wait = some w → o.cmd = 0x10 → o.phase = 2 → s.imageCause o.bytes ≠ 0 → Answers .loadComplete s (fun t =>
      t.hc.op = none ∧ s.replied t i.val w.1 w.2 .refused (0x100 + BitVec.ofNat 16 (s.imageCause o.bytes)) [] ∧
      t.prog = s.prog ∧ t.mem = s.mem ∧ t.code = s.code ∧ t.mram.current = s.mram.current)) ∧
    (∀ w, o.wait = some w → o.cmd = 0x10 → o.phase = 2 → s.imageCause o.bytes = 0 → s.mstate = .stop →
      (s.forced = false ∨ o.forceclr = true) → Answers .loadComplete s (fun t =>
      t.hc.op = none ∧ s.replied t i.val w.1 w.2 .ok 0 [] ∧ t.prog = parseImage o.bytes ∧ t.mram.current = o.bytes ∧
      t.force = [] ∧ t.tasks = [])) ∧
    (∀ w, o.wait = some w → o.cmd = 0x10 → o.phase = 2 → s.imageCause o.bytes = 0 →
      ((s.forced = true ∧ o.forceclr = false) ∨ s.mstate ≠ .stop) → Answers .loadComplete s (fun t =>
      t.hc.op = none ∧ s.replied t i.val w.1 w.2 .refused (if s.forced = true ∧ o.forceclr = false then 0x19 else 0x10) [] ∧
      t.prog = s.prog ∧ t.mem = s.mem ∧ t.code = s.code ∧ t.mram.current = s.mram.current)) ∧
    ((o.cmd ≠ 0x10 ∨ o.phase ≠ 2) → Answers .loadComplete s (fun t => t = s)) ∧
    ((o.cmd = 0x10 ∨ o.cmd = 0x11 ∨ o.cmd = 0x12 ∨ o.cmd = 0x16) → o.kg = none → ∀ found, Answers (.longOpComplete found) s (fun t => t = s)) ∧
    (∀ bs, o.wait = none → o.phase = 1 → o.cmd = 0x11 → bs.length ≤ 16376 → o.bytes.length + bs.length ≤ 25165824 →
      Answers (.opdata i tag bs) s (fun t => s.replied t i.val 0x20 tag .ok 0 [] ∧
        t.hc.op = some { o with bytes := o.bytes ++ bs, started := true } ∧ t = { s with hc := t.hc })) ∧
    (∀ bs, o.wait = none → o.phase = 1 → o.cmd = 0x12 → bs.length ≤ 16376 → o.bytes.length + bs.length ≤ 192 + 2031360 →
      Answers (.opdata i tag bs) s (fun t => s.replied t i.val 0x20 tag .ok 0 [] ∧
        t.hc.op = some { o with bytes := o.bytes ++ bs, started := true } ∧
        t.mram = (if o.started then s.mram else { s.mram with bstate := 0 }) ∧ t = { s with hc := t.hc, mram := t.mram })) ∧
    (o.wait = none → o.phase = 1 → o.cmd = 0x11 → Answers (.opend i tag o.bytes.length (Config.sm3 o.bytes)) s (fun t =>
      t.hc = { s.hc with op := some { o with wait := some (0x21, tag), phase := 2 } } ∧
      t.region o.region = { s.region o.region with exBytes := o.bytes, exStage := 2 } ∧
      (∀ k, k ≠ o.region → t.region k = s.region k) ∧ t = { s with hc := t.hc, regions := t.regions })) ∧
    (o.wait = none → o.phase = 1 → o.cmd = 0x12 → o.bytes = [] → o.started = false → s.anyRun = false →
      Answers (.opend i tag 0 (Config.sm3 [])) s (fun t =>
        t.hc.op = none ∧ t.hc.resetDue = true ∧ s.replied t i.val 0x21 tag .ok 0 [] ∧ t = { s with hc := t.hc, er := t.er, free := t.free })) ∧
    (o.wait = none → o.phase = 1 → o.cmd = 0x12 → o.bytes ≠ [] → Answers (.opend i tag o.bytes.length (Config.sm3 o.bytes)) s (fun t =>
      t.hc.op = none ∧ t.hc.last = (0x12 : BitVec 16) ++ (0 : BitVec 16) ∧ s.replied t i.val 0x21 tag .ok 0 [] ∧
      t.mram = { s.mram with staged := o.bytes.take 192, delta := o.bytes.drop 192, bstate := 1, applyn := 0, next := 0 })) ∧
    (o.wait = none → o.phase = 1 → o.cmd = 0x10 → Answers (.sessionClose i) s (fun t =>
      t.hc.op = none ∧ t.hc.last = (0x10 : BitVec 16) ++ (5 : BitVec 16) ∧ t.session i.val = {} ∧ t.hc.outbox = s.hc.outbox ∧
      t.mram = (if s.mram.curB then { s.mram with bankA := [] } else { s.mram with bankB := [] }))) ∧
    (o.phase ≠ 1 → o.cmd ≠ 0x16 → Answers (.sessionClose i) s (fun t =>
      t.hc.op = some { o with wait := none } ∧ t.session i.val = {} ∧ t.hc.outbox = s.hc.outbox ∧ t = { s with hc := t.hc })) ∧
    (s.hc.resetDue = true → s.boot ≠ .running → Answers .hostCommandReset s (fun t =>
      t.resetReq = some .hostCommand ∧ t.boot = .running ∧ t.pending = s.pending)) ∧
    (s.hc.resetDue = false → Answers .hostCommandReset s (fun t => t = s))

/-- Metering (12 R434-R437): a pulse of a counting channel adds 1 to its pulses and 1000000 to its remainder by KF; the edges of
a dual pair count, compare and report its errors; a gate end gives the rate; what does not count stands still. -/
def Obligations.SettMetering : Prop :=
  ∀ (s : State),
    let x := s.sett
    let still := fun (i : Instr) => Answers i s (fun t => t = s)
    let only := fun (m : Nat) (t : State) => (∀ k, k ≠ m → t.sett.chan k = x.chan k) ∧ t = { s with sett := { x with chans := t.sett.chans } }
    let runs := fun (q : Fin 2) => x.dual q.val = true ∧ x.counts (2 * q.val) = true
    (∀ m : Fin 4, x.counts m.val = true → x.dual (m.val / 2) = false → Answers (.singlePulse m) s (fun t =>
        let c := x.chan m.val
        let d := t.sett.chan m.val
        let n := (1000000 + c.remn) / x.kf m.val
        d.gtot = (if c.gtot < 2 ^ 64 - 1 then c.gtot + 1 else c.gtot) ∧ d.remn = (1000000 + c.remn) % x.kf m.val ∧
        d.qtot = min (c.qtot + n) (2 ^ 64 - 1) ∧ d.btot = min (if c.batch then c.btot + n else c.btot) (2 ^ 64 - 1) ∧
        d.atot = min (if c.fidalm then c.atot + n else c.atot) (2 ^ 64 - 1) ∧
        d.tmax = (c.tmax || decide (2 ^ 64 - 1 ≤ c.gtot) || decide (2 ^ 64 - 1 < c.qtot + n)) ∧
        d = { c with gtot := d.gtot, remn := d.remn, qtot := d.qtot, btot := d.btot, atot := d.atot, tmax := d.tmax
                     gateQ := d.gateQ, gateN := c.gateN + 1 } ∧ only m.val t)) ∧
    (∀ m : Fin 4, x.counts m.val = false ∨ x.dual (m.val / 2) = true → still (.singlePulse m)) ∧
    (∀ (q : Fin 2) (ta : Nat), runs q →
      ((x.chan (2 * q.val)).ca - (x.chan (2 * q.val)).cb : Int).natAbs ≤ x.param (0x51 + 0x10 * q.val) →
      Answers (.dualAEdge q true ta) s (fun t =>
        t.sett.chan (2 * q.val) = { x.chan (2 * q.val) with
          rtot := min ((x.chan (2 * q.val)).rtot + 1) (2 ^ 64 - 1), revf := true, revNow := true } ∧ only (2 * q.val) t)) ∧
    (∀ (q : Fin 2) (ta : Nat), runs q → Answers (.dualAEdge q false ta) s (fun t =>
        let c := x.chan (2 * q.val)
        let d := t.sett.chan (2 * q.val)
        let n := (c.ca + 1 - c.cb : Int).natAbs
        d.ca = c.ca + 1 ∧ d.taPrev = some ta ∧ d.gtot = (if c.gtot < 2 ^ 64 - 1 then c.gtot + 1 else c.gtot) ∧ d.rtot = c.rtot ∧
        (n ≤ x.param (0x51 + 0x10 * q.val) → d.cb = c.cb ∧ d.errp = c.errp ∧
          d.fidalm = (c.fidalm && (c.errSince || decide (c.good + 1 < x.param (0x54 + 0x10 * q.val))))) ∧
        (x.param (0x51 + 0x10 * q.val) < n → d.cb = c.ca + 1 ∧ d.errp = min (c.errp + n) 0xFFFFFFFF ∧ d.fidalm = true ∧
          d.cnterr = true ∧ d.pherr = false ∧ d.good = 0) ∧ only (2 * q.val) t)) ∧
    (∀ (q : Fin 2) (tb per ta : Nat), runs q → (x.chan (2 * q.val)).per = some per → (x.chan (2 * q.val)).taPrev = some ta →
      ((x.chan (2 * q.val)).ca - ((x.chan (2 * q.val)).cb + 1) : Int).natAbs ≤ x.param (0x51 + 0x10 * q.val) →
      Answers (.dualBEdge q true tb) s (fun t =>
        let c := x.chan (2 * q.val)
        let ph := (tb - ta) * 256 / per
        (t.sett.chan (2 * q.val)) =
          (if ph < x.param (0x52 + 0x10 * q.val) ∨ x.param (0x53 + 0x10 * q.val) < ph then
            { c with cb := c.cb + 1, errp := min (c.errp + 1) (2 ^ 32 - 1), fidalm := true, good := 0, errSince := true, pherr := true, cnterr := false }
           else { c with cb := c.cb + 1 }) ∧ only (2 * q.val) t)) ∧
    (∀ (q : Fin 2) (t : Nat) (b : Bool), ¬ runs q → still (.dualAEdge q b t) ∧ still (.dualBEdge q b t)) ∧
    (∀ (q : Fin 2) (t : Nat), still (.dualBEdge q false t)) ∧
    (∀ m : Fin 4, x.meters = true → Answers (.rateGateEnd m) s (fun t =>
      let c := x.chan m.val
      let g := x.param (0x13 + 0x10 * m.val)
      t.sett.chan m.val = { c with
        frate := min (c.gateQ * 1000 / g) 0xFFFFFFFF, revf := c.revNow, revNow := false, gateQ := 0, gateN := 0
        ovrate := decide (c.gateN * 1000 > x.param (0x12 + 0x10 * m.val) * g) } ∧ only m.val t)) ∧
    (∀ m : Fin 4, x.meters = false → still (.rateGateEnd m))

/-- The Sett link (12 R432, R447, R452-R454): at each Sett cycle at most four of the commands that wait cross in a frame, which
Sett takes or counts as an error, and Sett sends its totals and its replies; the accepted frame of Sett fills the mirror and
completes the commands that it answers. The commands of a master for Sett (12 R450, R452-R454): each master has at most one
pending; a good one is staged under a new tag, and leaves at once unless a logical processor sent it; a command that gets no
reply within its time ends with NOREPLY. The commands that have crossed to Sett (12 R438, R441, R450, R451): Sett carries
out the first of them, START, STOP, READ or VERIFY, and queues its reply with the result of its checks. Clauses that follow
the model's reading and no rule's words: notes/assumptions/1201.md. -/
def Obligations.SettCommands : Prop :=
  (∀ (s : State),
    let x := s.sett
    let fr0 := s.settHostFrame
    let takes := fun (intact : Bool) => s.stOut ≠ [] ∧ intact = true ∧ x.rx.accepts fr0.epoch fr0.seq = true
    let own := ∀ o, s.hc.op = some o → o.cmd ≠ 0x16
    (∀ intact, x.on = true → Answers (.settCycle intact) s (fun t =>
      t.stOut = s.stOut.drop 4 ∧ t.stSeq = (if s.stOut = [] then s.stSeq else s.stSeq + 1) ∧
      (takes intact → t.sett.cmds = x.cmds ++ (s.stOut.take 4).map (fun c => { c with htime := s.recTime }) ∧
        t.sett.rx = { x.rx with epoch := some s.mram.hostEpoch, seq := s.stSeq }) ∧
      (s.stOut = [] → t.sett.cmds = x.cmds ∧ t.sett.rx = x.rx) ∧
      (s.stOut ≠ [] → ¬ takes intact → t.sett.cmds = x.cmds ∧ t.sett.rx = { x.rx with errs := satInc x.rx.errs }) ∧
      t.sett.replies = [] ∧ t.sett.txSeq = x.txSeq + 1 ∧ t.sett.tseq = x.tseq + 1 ∧
      t.sett.ssec = (if x.ms + 1 ≥ 1000 then x.ssec + 1 else x.ssec) ∧ t.sett.chans = x.chans ∧
      (∃ fr, t.sett.frame = some fr ∧ fr.seq = x.txSeq ∧ fr.epoch = x.epoch ∧ fr.msgs.map (fun m => m.2) = [x.replies]) ∧
      t = { s with sett := t.sett, stOut := t.stOut, stSeq := t.stSeq })) ∧
    (∀ intact, x.on = false → Answers (.settCycle intact) s (fun t =>
      t.sett = x ∧ t.stOut = s.stOut.drop 4 ∧ t = { s with stOut := t.stOut, stSeq := t.stSeq })) ∧
    (∀ fr ws rs, x.frame = some fr → fr.msgs = [(ws, rs)] → s.srx.accepts fr.epoch fr.seq = true → own →
      Answers (.settFrameAccept true) s (fun t => t.mrSett = ws ∧ t.slost = false ∧ t.sett = { x with frame := none } ∧
        t.srx = { s.srx with epoch := some fr.epoch, seq := fr.seq } ∧
        (∀ m r, rs = [r] → (s.stCmd m).pend = true → (s.stCmd m).sent = true → (s.stCmd m).tag = r.tag →
          (s.stCmd m).cmd = r.cmd → t.stCmd m = { s.stCmd m with pend := false, result := r.result, nw := BitVec.ofNat 8 r.words.length, words := r.words }))) ∧
    (∀ fr intact, x.frame = some fr → intact = false ∨ s.srx.accepts fr.epoch fr.seq = false → own →
      Answers (.settFrameAccept intact) s (fun t =>
        t = { s with sett := { x with frame := none }, srx := { s.srx with errs := satInc s.srx.errs } })) ∧
    (∀ intact, x.frame = none → own → Answers (.settFrameAccept intact) s (fun t => t = s)) ∧
    Answers .slost s (fun t => t.slost = true ∧ t = { s with slost := true, srcs := t.srcs })) ∧
  (∀ (s : State) (m : Master) (v : Word),
    let k := v.toNat % 16
    let c := s.stCmd m.code
    let bad := k = 0 ∨ 4 < k ∨ (3 ≤ k ∧ m.world = .program)
    (s.lets m 0xB90 →
      (c.pend = true → Answers (.stCmd m v) s (fun t => t.stCmd m.code = { c with rej := 1 } ∧ t = { s with stCmds := t.stCmds })) ∧
      (c.pend = false → bad → Answers (.stCmd m v) s (fun t => t.stCmd m.code = { c with rej := 2 } ∧ t = { s with stCmds := t.stCmds })) ∧
      (c.pend = false → ¬ bad → Answers (.stCmd m v) s (fun t =>
        let d := t.stCmd m.code
        let arg : Word := if k = 4 then 0 else s.mport m 0xB88
        d.pend = true ∧ d.sent = (m.world != .program) ∧ d.cmd = BitVec.ofNat 4 k ∧ d.tag = s.stTag ∧ d.arg = arg ∧ t.stTag = s.stTag + 1 ∧
        t.stOut.map (fun c => (c.cmd, c.tag, c.arg)) = s.stOut.map (fun c => (c.cmd, c.tag, c.arg)) ++
          (if m.world = .program then [] else [(BitVec.ofNat 4 k, s.stTag, arg)]) ∧
        t = { s with stCmds := t.stCmds, stTag := t.stTag, stOut := t.stOut }))) ∧
    (s.lets m 0xB93 → Answers (.stRrd m v) s (fun t =>
      t.sport 0xB94 = wordAt c.words (s.mport m 0xB92).toNat ∧ t = { s with sports := t.sports })) ∧
    ((∀ o, s.hc.op = some o → o.cmd ≠ 0x16) →
      (c.pend = true → c.sent = true → Answers (.noreply m) s (fun t =>
        t.stCmd m.code = { c with pend := false, result := 7, nw := 0, words := [] } ∧ t = { s with stCmds := t.stCmds })) ∧
      (c.pend = false ∨ c.sent = false → Answers (.noreply m) s (fun t => t = s)))) ∧
  (∀ (s : State),
    let x := s.sett
    let head := fun (k : BitVec 4) => x.on && (x.cmds.head?).any (fun c => decide (c.cmd = k))
    let still := fun (i : Instr) => Answers i s (fun t => t = s)
    ((head 1 = false → still .settStart) ∧ (head 2 = false → still .settStop) ∧ (head 3 = false → still .settRead) ∧
      (head 4 = false → still .settVerify)) ∧
    (∀ c rest, x.cmds = c :: rest → x.on = true →
      let m := c.arg.toNat
      let answered := fun (i : Instr) (r : BitVec 8) (ws : List Word) =>
        Answers i s (fun t => t = { s with sett := { x with cmds := rest, replies := x.replies ++ [⟨c.cmd, c.tag, r, ws⟩] } })
      let works := fun (i : Instr) (r : List Word) (d : SettCh) => Answers i s (fun t =>
        t.sett.chan m = d ∧ (∀ k, k ≠ m → t.sett.chan k = x.chan k) ∧ t.sett.replies = x.replies ++ [⟨c.cmd, c.tag, 0, r⟩] ∧
        t = { s with sett := { x with cmds := rest, chans := t.sett.chans, replies := t.sett.replies } })
      (c.cmd = 1 →
        (x.idleState = true → answered .settStart 1 []) ∧
        (x.idleState = false → x.badChannel c.arg = true → answered .settStart 2 []) ∧
        (x.idleState = false → x.badChannel c.arg = false → (x.chan m).batch = true → answered .settStart 3 []) ∧
        (x.idleState = false → x.badChannel c.arg = false → (x.chan m).batch = false → works .settStart [((x.chan m).bnum + 1).setWidth 32]
          { x.chan m with bnum := (x.chan m).bnum + 1, btot := 0, batch := true })) ∧
      (c.cmd = 2 →
        (x.idleState = true → answered .settStop 1 []) ∧
        (x.idleState = false → x.badChannel c.arg = true → answered .settStop 2 []) ∧
        (x.idleState = false → x.badChannel c.arg = false → (x.chan m).batch = false → answered .settStop 4 []) ∧
        (x.idleState = false → x.badChannel c.arg = false → (x.chan m).batch = true →
          works .settStop ((x.chan m).bnum.setWidth 32 :: totalWords (x.chan m).btot)
            { x.chan m with blast := (x.chan m).btot, bcnt := min ((x.chan m).bcnt + 1) 0xFFFFFFFF, batch := false })) ∧
      (c.cmd = 3 →
        (x.idleState = true → answered .settRead 1 []) ∧
        (∀ e, x.idleState = false → x.audit[m]? = some e → answered .settRead 0 e) ∧
        (x.idleState = false → x.audit[m]? = none → answered .settRead 2 [])) ∧
      (c.cmd = 4 →
        (x.idleState = true → answered .settVerify 1 []) ∧
        (x.idleState = false → x.verify ≠ none → answered .settVerify 5 []) ∧
        (x.idleState = false → x.verify = none → Answers .settVerify s (fun t =>
          t = { s with sett := { x with cmds := rest, verify := some c } })))) ∧
    (∀ c, x.verify = some c → Answers .settVerifyDone s (fun t =>
      t.sett.verify = none ∧ t.sett.chk = checkCode ∧
      (∃ r, t.sett.replies = x.replies ++ [r] ∧ r.cmd = c.cmd ∧ r.tag = c.tag ∧ r.result = 0 ∧ r.words.length = 20 ∧
        r.words.take 4 = [hiWord checkCode, loWord checkCode, x.mec, x.ssec]) ∧
      t = { s with sett := { x with verify := none, chk := checkCode, replies := t.sett.replies }, free := t.free })) ∧
    (x.verify = none → Answers .settVerifyDone s (fun t => t = s)))

/-- Sett's storage, supply, seal and service port (12 R439-R446): a service request with its CRC is answered by a reply with its
own; one with a wrong CRC or length is not answered. Clauses that follow the model's reading and no rule's words:
notes/assumptions/1205.md. -/
def Obligations.SettService : Prop :=
  ∀ (s : State),
    let x := s.sett
    let request := fun (cmd p : BitVec 8) (v : Word) => (0xA5 : BitVec 8) :: withCrc ([cmd, p] ++ bytesOfWord v ++ [0])
    let reply := fun (cmd res p : BitVec 8) (v mec : Word) => (0x5A : BitVec 8) :: withCrc ([cmd, res, p] ++ bytesOfWord v ++ bytesOfWord mec)
    let answered := fun (i : Instr) (y : Sett) (cmd res p : BitVec 8) => Answers i s (fun t =>
      (∃ w, t.sett = { y with svc := reply cmd res p w y.mec }) ∧ t = { s with sett := t.sett, free := t.free })
    (x.on = true → x.savedAt + 100 ≤ x.clock → x.saved.head? ≠ some x.snapshot → Answers .nvSlotWrite s (fun t =>
      t = { s with sett := { x with saved := (x.snapshot :: x.saved).take 64, savedAt := x.clock } })) ∧
    (x.on = false ∨ x.clock < x.savedAt + 100 ∨ x.saved.head? = some x.snapshot → Answers .nvSlotWrite s (fun t => t = s)) ∧
    (x.on = true → Answers .settSupplyLoss s (fun t => t.sett.on = false ∧ t.sett.saved.head? = some x.snapshot ∧
      t.sett.chans = x.chans ∧ t = { s with sett := t.sett })) ∧
    (x.on = false → Answers .settSupplyLoss s (fun t => t = s)) ∧
    (∀ (slotOk fwOk : Bool), Answers (.settReset slotOk fwOk) s (fun t =>
      t.sett.st = (if fwOk then (if x.sealed then .service else .meter) else .fault) ∧ t.sett.on = true ∧
      t.sett.chans = (if slotOk then x.saved.head? else x.saved.tail.head?).getD [] ∧
      t.sett.params = x.params ∧ t.sett.mec = x.mec ∧ t.sett.nverr = (x.nverr || !slotOk) ∧ t.sett.fwerr = !fwOk ∧
      (slotOk = true → t.sett.audit = x.audit) ∧
      (slotOk = false → x.audit.length < 4096 → ∃ e, t.sett.audit = x.audit ++ [e] ∧ fld (wordAt e 0) 15 8 = 2) ∧
      t = { s with sett := t.sett })) ∧
    (∀ closed : Bool, Answers (.sealChange closed) s (fun t =>
      t = { s with sett := { x with sealed := closed
                                    st := if x.st = .meter ∨ x.st = .service then (if closed then .service else .meter) else x.st } })) ∧
    (∀ (p : BitVec 8) (v : Word), x.on = true → x.st ≠ .boot → paramRange (x.phminOf p.toNat) p.toNat ≠ none →
      Answers (.serviceRead (request 1 p v)) s (fun t =>
        t = { s with sett := { x with svc := reply 1 0 p (BitVec.ofNat 32 (x.param p.toNat)) x.mec } })) ∧
    (∀ (p : BitVec 8) (v : Word), x.on = true → x.st ≠ .boot → paramRange (x.phminOf p.toNat) p.toNat = none →
      answered (.serviceRead (request 1 p v)) x 1 4 p) ∧
    (∀ (p : BitVec 8) (v : Word), x.on = true → x.writeRes p.toNat v = 0 → x.param p.toNat ≠ v.toNat →
      Answers (.serviceWrite (request 2 p v) true) s (fun t => t.sett.param p.toNat = v.toNat ∧
        (∀ i, i ≠ p.toNat → t.sett.param i = x.param i) ∧ t.sett.mec = x.mec + 1 ∧
        (∃ e, t.sett.audit = x.audit ++ [e] ∧ (e.take 4).drop 1 = [x.mec + 1, BitVec.ofNat 32 (x.param p.toNat), v]) ∧
        (∃ w, t.sett.svc = reply 2 0 p w (x.mec + 1)) ∧ t = { s with sett := t.sett, free := t.free })) ∧
    (∀ (p : BitVec 8) (v : Word) (ok : Bool), x.on = true → x.writeRes p.toNat v ≠ 0 →
      answered (.serviceWrite (request 2 p v) ok) x 2 (x.writeRes p.toNat v) p) ∧
    (∀ (p : BitVec 8) (v : Word) (ok : Bool), x.on = true → x.writeRes p.toNat v = 0 → x.param p.toNat = v.toNat →
      answered (.serviceWrite (request 2 p v) ok) x 2 0 p) ∧
    (∀ (p : BitVec 8) (v : Word), x.on = true → x.st ≠ .boot → Answers (.serviceStatus (request 3 p v)) s (fun t =>
      (∃ i, t.sett = { x with svc := reply 3 0 i x.status0 x.mec }) ∧ t = { s with sett := t.sett, free := t.free })) ∧
    (∀ (fr : List Byte) (ok : Bool), x.on = false ∨ fr.length ≠ 10 ∨ fr ≠ 0xA5 :: withCrc ((fr.drop 1).take 7) →
      Answers (.serviceRead fr) s (fun t => t = s) ∧ Answers (.serviceWrite fr ok) s (fun t => t = s) ∧
      Answers (.serviceStatus fr) s (fun t => t = s))

/-- The Sett mirror (12 R447, 04 R151): what Sett sends with each cycle and the host domain shows in class 0xD. -/
def Obligations.SettMirror : Prop :=
  ∀ (s : State),
    (s.sett.mirror.length = 72 ∧ s.sett.mirror.take 8 = s.sett.statusWords ∧
      ∀ m, m < 4 → (s.sett.mirror.drop (8 + 16 * m)).take 16 = s.sett.chanWords m) ∧
    (∀ i, s.mirrorWord 0xD i = wordAt s.mrSett i) ∧
    (∀ intact, s.sett.on = true → Answers (.settCycle intact) s (fun t => ∃ fr y, t.sett.frame = some fr ∧ fr.msgs.map (fun m => m.1) = [Sett.mirror y] ∧
      y.chans = s.sett.chans ∧ y.params = s.sett.params))

/-- Key store operations (13 R463-R470, R475, R485, R488): a move of a code takes its place in the order, or stalls while the
master's operation is not done; an operation that passes its checks gives its output, RESULT and what it creates or
destroys; one that fails them is a violation with output zeros and changes no slot. The key store's buffers (13 R487) and
order (R468): a write and a read of a buffer word move the index on, a read waits for the master's operation, and an
operation that completes leaves the queue. Clauses that follow the model's reading and no rule's words:
notes/assumptions/1301.md. -/
def Obligations.KeyOperations : Prop :=
  (∀ (s : State) (m : Master), s.lets m 0xAC1 →
    let w := m.code
    let o := fun (c : KsCode) => s.ksOpOf m c.code
    let x := s.slot (o .info).slot
    let short := fun (c : KsCode) => c.limit.all (fun n => decide ((o c).len ≤ n)) = true
    let ok := fun (c : KsCode) => s.ks.queue = [] ∧ s.ksCheck (o c) c = none ∧ short c
    let made := fun (c : KsCode) (par : Option Slot) => s.attrsOk w (o c).attr0 (o c).attr1 par = true ∧ makesKey (o c).attr0 = true
    let starts := fun (i : Instr) (c : KsCode) =>
      (s.ksBusy m = true → Answers i s (fun t => t = s)) ∧
      (s.ksBusy m = false → Answers i s (fun t => t = { s with ks := { s.ks with queue := s.ks.queue ++ [o c] } })) ∧
      (s.ks.queue = [] → s.ksCheck (o c) c = none → ¬ short c → KsRuns i s (fun u => u = s.ksDone w 5 [])) ∧
      (∀ v, s.ks.queue = [] → s.ksCheck (o c) c = some v → KsRuns i s (fun u =>
        u.ks.slots = s.ks.slots ∧ u.ks.stat.get (fun _ => 0) w = BitVec.ofNat 32 ((o c).outLen c) ∧ u.mem = s.mem ∧
        (c ≠ .info → u.mports = s.mports)))
    let creates := fun (i : Instr) (c : KsCode) (par : Option (Nat × Slot)) (key : List Byte) => KsRuns i s (fun u =>
        u.slot (o c).slot2 = madeSlot (o c).attr0 (o c).attr1 par key ∧ u.ks.stat.get (fun _ => 0) w = BitVec.ofNat 32 ((o c).outLen c) ∧
        (∀ k, k ≠ (o c).slot2 → u.slot k = s.slot k) ∧ u = { s with ks := u.ks, free := u.free })
    (starts (.info m) .info ∧ starts (.sign m) .sign ∧ starts (.verify m) .verify ∧ starts (.readpub m) .readpub) ∧
    (starts (.generate m) .generate ∧ starts (.derive m) .derive ∧ starts (.agree m) .agree) ∧
    (starts (.encrypt m) .encrypt ∧ starts (.decrypt m) .decrypt ∧ starts (.ksMac m) .mac) ∧
    (starts (.destroy m) .destroy ∧ starts (.attest m) .attest ∧ starts (.hash m) .hash) ∧
    (ok .info → KsRuns (.info m) s (fun u => u = ((s.setMport m 0xACA x.attr0).setMport m 0xACB x.attr1).ksDone w 0 [])) ∧
    (ok .sign → KsRuns (.sign m) s (fun u => u = s.draw.ksDone w 0 (Config.sm2Sign x.key ((o .sign).field 0 32) s.free))) ∧
    (ok .verify → KsRuns (.verify m) s (fun u =>
      u = s.ksDone w 0 (bytesOfWord (bit (Config.sm2Verify x.pub ((o .verify).field 0 32) ((o .verify).field 32 64)))))) ∧
    (ok .readpub → KsRuns (.readpub m) s (fun u => u = s.ksDone w 0 x.pub)) ∧
    (ok .encrypt → KsRuns (.encrypt m) s (fun u =>
      u = s.ksDone w 0 (Config.sm4Enc x.key ((o .encrypt).field 0 12) ((o .encrypt).bytes.drop 12)))) ∧
    (ok .decrypt → KsRuns (.decrypt m) s (fun u =>
      u = match Config.sm4Dec x.key ((o .decrypt).field 0 12) ((o .decrypt).bytes.drop 12) with
        | some p => s.ksDone w 0 p
        | none => s.ksDone w 2 (List.replicate ((o .decrypt).len - 28) 0))) ∧
    (ok .mac → KsRuns (.ksMac m) s (fun u => u = s.ksDone w 0 (Config.hmac x.key (o .mac).bytes))) ∧
    (ok .attest → KsRuns (.attest m) s (fun u =>
      let body := s.attestBody ((o .attest).field 0 32)
      u = s.draw.ksDone w 0 (body ++ Config.sm2Sign (s.slot 0).key (sm3Z (s.slot 0).pub body) s.free))) ∧
    (ok .hash → KsRuns (.hash m) s (fun u => u = s.ksDone w 0 (Config.sm3 (o .hash).bytes))) ∧
    (ok .destroy → KsRuns (.destroy m) s (fun u =>
      u.slot (o .destroy).slot = {} ∧ (∀ k, k < 64 → u.slot k = {} ∨ u.slot k = s.slot k) ∧
      u.ks.stat.get (fun _ => 0) w = 0 ∧ u = { s with ks := { s.ks with slots := u.ks.slots, outs := u.ks.outs, stat := u.ks.stat } })) ∧
    (ok .destroy → Answers (.destroy m) s (fun t => Answers (.ksOpComplete false) t (fun u => u.ks.fail = true ∧ u.halted = true))) ∧
    (ok .generate → made .generate none →
      creates (.generate m) .generate none ((Config.random s.free).take (keyLen (fld (o .generate).attr0 30 28)))) ∧
    (ok .generate → ¬ made .generate none → KsRuns (.generate m) s (fun u => u = s.ksDone w 3 [])) ∧
    (ok .derive → made .derive (some x) → creates (.derive m) .derive (some ((o .derive).slot, x))
      (Config.kdf x.key (o .derive).bytes (keyLen (fld (o .derive).attr0 30 28)))) ∧
    (ok .derive → ¬ made .derive (some x) → KsRuns (.derive m) s (fun u => u = s.ksDone w 3 [])) ∧
    (ok .agree → made .agree (some x) → Config.sm2Point ((o .agree).field 0 64) = true → creates (.agree m) .agree (some ((o .agree).slot, x))
      (Config.kdf (Config.sm2Agree x.key ((o .agree).field 0 64) []) ((o .agree).bytes.drop 64) (keyLen (fld (o .agree).attr0 30 28)))) ∧
    (ok .agree → made .agree (some x) → Config.sm2Point ((o .agree).field 0 64) = false → KsRuns (.agree m) s (fun u => u = s.ksDone w 4 [])) ∧
    (ok .agree → ¬ made .agree (some x) → KsRuns (.agree m) s (fun u => u = s.ksDone w 3 []))) ∧
  (∀ (s : State) (m : Master) (v : Word),
    let w := m.code
    let i := (s.mport m 0xAC4).toNat
    let next := BitVec.ofNat 32 ((i + 1) % 64)
    (s.lets m 0xAC5 → Answers (.ksBw m v) s (fun t =>
      t.ks.ins.get (fun _ => 0) (64 * w + i % 64) = v ∧ (∀ k, k ≠ 64 * w + i % 64 → t.ks.ins.get (fun _ => 0) k = s.ks.ins.get (fun _ => 0) k) ∧
      t.mport m 0xAC4 = next ∧ t = { s with ks := { s.ks with ins := t.ks.ins }, mports := t.mports })) ∧
    (s.lets m 0xAC6 → s.ksBusy m = false → Answers (.ksBr m v) s (fun t =>
      t.mport m 0xAC7 = s.ks.outs.get (fun _ => 0) (64 * w + i % 64) ∧
      t.mport m 0xAC4 = next ∧ t = { s with mports := t.mports })) ∧
    (s.lets m 0xAC6 → s.ksBusy m = true → Answers (.ksBr m v) s (fun t => t = s)) ∧
    (∀ o q rb, s.ks.queue = o :: q → ksCodeOf o.code = some .hash → o.gone = false → o.len ≤ 256 → Answers (.ksOpComplete rb) s (fun t =>
      t.ks.queue = q ∧ t.ks.slots = s.ks.slots ∧ t = { s with ks := t.ks })) ∧
    (∀ o q rb c, s.ks.queue = o :: q → ksCodeOf o.code = some c → o.gone = true → Answers (.ksOpComplete rb) s (fun t =>
      t.ks.queue = q ∧ t.ks.slots = s.ks.slots ∧ t.ks.stat.get (fun _ => 0) o.who = 0x10000 ||| BitVec.ofNat 32 (o.outLen c) ∧
      t = { s with ks := t.ks })) ∧
    (∀ rb, s.ks.queue = [] → Answers (.ksOpComplete rb) s (fun t => t = s)))

/-- The lifecycle (13 R456-R459, R463, R470-R472, R476, R478): an accepted KEYGEN sub-operation makes, imports or destroys its
slot or sets the policy when it completes; an accepted transition leaves a pending record, and LC_TRANSITION then enters the
state, destroys the slots whose LCMASK excludes it and counts. Clauses that follow the model's reading and no rule's words:
notes/assumptions/1303.md, notes/assumptions/1305.md, notes/assumptions/1306.md. -/
def Obligations.Lifecycle : Prop :=
  ∀ (s : State) (i : Fin 4) (tag : BitVec 16), s.serves i.val →
    (∀ slot a0 a1, s.kgRefusal (.generate slot a0 a1) = none → (s.slot slot.val).occ = false → s.ks.fail = false →
      Answers (.keygenGenerate i tag slot a0 a1) s (fun t => t.hc.outbox = s.hc.outbox ∧ Answers (.longOpComplete 0) t (fun u =>
        (u.slot slot.val).occ = true ∧ (u.slot slot.val).key = (Config.random s.free).take (keyLen (if slot.val = 4 then 1 else fld a0 30 28)) ∧
        (∀ k, k ≠ slot.val → u.slot k = s.slot k) ∧ u.hc.op = none ∧ u.ks.lc = s.ks.lc))) ∧
    (∀ ws, s.kgRefusal (.policy ws) = none → Answers (.policy i tag ws) s (fun t => Answers (.longOpComplete 0) t (fun u =>
      u.ks = { s.ks with policy := ws } ∧ s.replied u i.val 0x13 tag .ok 0 (wordsOfBytes (s.slot 0).pub)))) ∧
    (∀ slot a0 a1 key, s.kgRefusal (.keyImport slot a0 a1 key) = none → (s.slot slot.val).occ = false → s.ks.fail = false →
      Answers (.keyImport i tag slot a0 a1 key) s (fun t => Answers (.longOpComplete 0) t (fun u =>
        (u.slot slot.val).key = key ∧ (u.slot slot.val).occ = true ∧ (∀ k, k ≠ slot.val → u.slot k = s.slot k) ∧
        s.replied u i.val 0x13 tag .ok 0 (wordsOfBytes key)))) ∧
    (∀ slot, s.kgRefusal (.destroy slot) = none → s.ks.fail = false → (s.slot slot.val).occ = true →
      Answers (.keygenDestroy i tag slot) s (fun t => Answers (.longOpComplete 0) t (fun u =>
        u.slot slot.val = {} ∧ (∀ k, k < 64 → u.slot k = {} ∨ u.slot k = s.slot k) ∧ s.replied u i.val 0x13 tag .ok 0 []))) ∧
    (∀ code root policy, s.kgRefusal (.claim code root policy) = none → Answers (.claim i tag code root policy) s (fun t =>
      t.ks.pendTo = some 3 ∧ Answers (.lcTransition true) t (fun u => u.ks.lc = 3 ∧ u.ks.tcnt = s.ks.tcnt + 1 ∧ u.ks.pendTo = none ∧
        u.ks.policy = policy ∧ (u.slot 3).key = root ∧
        (∀ k, k < 64 → k ≠ 3 → (s.slot k).occ = true → (s.slot k).inLc 3 = false → u.slot k = {})))) ∧
    (∀ conf, s.kgRefusal (.release conf) = none → Answers (.release i tag conf) s (fun t =>
      t.ks.pendTo = some 2 ∧ Answers (.lcTransition true) t (fun u => u.ks.lc = 2 ∧ u.ks.tcnt = s.ks.tcnt + 1 ∧ u.ks.policy = [] ∧
        (∀ k, k < 64 → (s.slot k).occ = true → (s.slot k).inLc 2 = false → u.slot k = {})))) ∧
    (∀ conf, s.kgRefusal (.decommission conf) = none → Answers (.decommission i tag conf) s (fun t =>
      t.ks.pendTo = some 4 ∧ Answers (.lcTransition true) t (fun u => u.ks.lc = 4 ∧ u.ks.tcnt = s.ks.tcnt + 1 ∧ u.prog = {} ∧
        u.mram.bankA = [] ∧ u.mram.bankB = [] ∧ u.mram.log = [] ∧ (∀ k, k < 64 → (s.slot k).occ = true → (s.slot k).inLc 4 = false → u.slot k = {})))) ∧
    (∀ auth, s.kgRefusal (.lcReturn auth) = none → Answers (.lcReturn i tag auth) s (fun t =>
      t.ks.pendTo = some 5 ∧ Answers (.lcTransition true) t (fun u => u.ks.lc = 5 ∧ u.ks.tcnt = s.ks.tcnt + 1 ∧ u.prog = {} ∧
        u.mram.bankA = [] ∧ u.mram.bankB = [] ∧ (∀ k, k < 64 → (s.slot k).occ = true → (s.slot k).inLc 5 = false → u.slot k = {})))) ∧
    (∀ auth, s.kgRefusal (.restore auth) = none → Answers (.restore i tag auth) s (fun t =>
      t.ks.pendTo = some 2 ∧ Answers (.lcTransition true) t (fun u => u.ks.lc = 2 ∧ u.ks.tcnt = s.ks.tcnt + 1 ∧
        (∀ k, k < 64 → (s.slot k).occ = true → (s.slot k).inLc 2 = false → u.slot k = {})))) ∧
    (∀ slot st, s.kgRefusal (.destroy slot) = some st → st.2 ≠ 0x201 → Answers (.keygenDestroy i tag slot) s (fun t =>
      s.replied t i.val 0x13 tag st.1 st.2 [] ∧ t = { s with hc := t.hc })) ∧
    (s.ks.pendTo = none → ∀ b, Answers (.lcTransition b) s (fun t => t = s)) ∧
    (∀ dest, s.ks.pendTo = some dest → s.doomed (s.excluded dest.toNat) ≠ [] → Answers (.lcTransition false) s (fun t =>
      t.ks.fail = true ∧ t.ks.lc = s.ks.lc ∧ t.ks.tcnt = s.ks.tcnt ∧ t.halted = true))

/-- The Badger (14 R489-R500): start, check-in, a correct service, a failing one, configuration, the opening of the window,
expiry, and the failure action. Clauses that follow the model's reading and no rule's words: notes/assumptions/1401.md. -/
def Obligations.Badger : Prop :=
  ∀ (s : State) (v : Word),
    (s.bd.st = .stopped → Answers (.bdStart .house v) s (fun t => t.bd.st = .closed ∧ t.bd.since = s.time ∧ t.bd.q = s.bd.q ∧
      t.bd.ownEff = s.bd.own ∧ t = { s with bd := t.bd })) ∧
    (s.bd.st = .closed ∨ s.bd.st = .opened → ownerOf s.bd.ownEff (v.toNat % 32) = 8 → Answers (.bdChk .house v) s (fun t =>
      t.bd = (if s.bd.chk.getLsbD (v.toNat % 32) then { s.bd with dup := s.bd.dup ||| at_ (v.toNat % 32) 1 }
              else { s.bd with chk := s.bd.chk ||| at_ (v.toNat % 32) 1 }) ∧ t = { s with bd := t.bd })) ∧
    (s.bd.st = .closed ∨ s.bd.st = .opened → s.bd.mode = 0 → s.bdCount < s.bd.per → s.bd.opensAt ≤ s.bdCount →
      v.extractLsb' 0 16 = bdToken s.bd.q → s.bd.erq &&& ~~~s.bd.chk = 0 → s.bd.erq &&& s.bd.dup = 0 →
      Answers (.bdAns .house v) s (fun t => t.bd.st = .closed ∧ t.bd.q = bdNext s.bd.q ∧ t.bd.chk = 0 ∧ t.bd.dup = 0 ∧
        t.bd.scnt = s.bd.scnt + 1 ∧ t.bd.since = s.time ∧ t = { s with bd := t.bd })) ∧
    (s.bd.st = .closed ∨ s.bd.st = .opened → s.bd.mode = 0 → s.bdCount < s.bd.per →
      (s.bdCount < s.bd.opensAt ∨ v.extractLsb' 0 16 ≠ bdToken s.bd.q) → Answers (.bdAns .house v) s (fun t =>
        t.bd.st = .failed ∧ t.bd.actionDue = true ∧ t.bd.lastf = s.bdCauses v ∧ t.bd.q = s.bd.q ∧ t.bd.scnt = s.bd.scnt ∧
        t.mram.bdFcnt = satInc s.mram.bdFcnt)) ∧
    (s.bd.st = .stopped → 1000 ≤ v.toNat → v.toNat ≤ 10000000 → Answers (.bdConfigWrite .house 0x810 v) s (fun t =>
      t.bd.cfgrej.get (fun _ => false) 1 = false ∧ t = { s with bd := { s.bd with per := v.toNat, cfgrej := t.bd.cfgrej } })) ∧
    (s.bd.st = .closed ∨ s.bd.st = .failed → ∀ a : Addr, 0x810 ≤ a.toNat → a.toNat ≤ 0x819 → a.toNat ≠ 0x813 →
      Answers (.bdConfigWrite .house a v) s (fun t =>
        t.bd.cfgrej.get (fun _ => false) 1 = true ∧ t = { s with bd := { s.bd with cfgrej := t.bd.cfgrej } })) ∧
    (s.bd.st = .closed → s.bd.applyDue = false → Answers .badgerOpen s (fun t => t.bd = { s.bd with st := .opened } ∧
      (s.boot = .done → (s.src 0x14).cnt < 255 → (t.src 0x14).cnt = (s.src 0x14).cnt + 1) ∧
      t = { s with bd := t.bd, srcs := t.srcs, time := max s.time (s.bd.since + s.bd.opensAt * 12000) })) ∧
    (s.bd.st = .closed ∨ s.bd.st = .opened → Answers .badgerExpiry s (fun t => t.bd.st = .failed ∧ t.bd.lastf = 2 ∧
      t.bd.actionDue = true ∧ t.mram = { s.mram with bdFcnt := satInc s.mram.bdFcnt } ∧ t.pl = { s.pl with badgok := false } ∧
      t = { s with bd := t.bd, mram := t.mram, pl := t.pl, srcs := t.srcs, er := t.er, time := t.time })) ∧
    (s.bd.actionDue = true → s.bdResets = true → s.boot ≠ .running → Answers .badgerAction s (fun t =>
      t.resetReq = some .badger ∧ t.boot = .running ∧ t.mram.bdFcnt = s.mram.bdFcnt)) ∧
    (s.bd.actionDue = true → s.bdResets = false → Answers .badgerAction s (fun t => t.bd.actionDue = false))

/-- The clock (15 R505-R518): a snapshot takes one instant; a set is checked whole; an alarm is taken or rejected; a second
counts and compares the alarms; the backup supply; the clock domain's reset. The recorder (15 R519-R528): an event joins the
queue with its time or is dropped; the recorder writes the head entry as a new record, a repeat, or a suppression of a full
rate window, and drops it where every slot holds a higher severity; a rate window ends; and the ports read, find and log
records. -/
def Obligations.ClockAndRecorder : Prop :=
  (∀ (s : State) (m : Master) (v : Word),
    let c := s.rtc
    let set := calFields c.wtim c.wdat
    let rejected := fun (i : Instr) => Answers i s (fun t => t = { s with rtc := { c with stat := c.stat ||| 0x40000000 } })
    (s.lets m 0xB00 → Answers (.rtSnap m v) s (fun t => t.mport m 0xB01 = (calOf c.secs).timeWord ∧
      t.mport m 0xB02 = (calOf c.secs).dateWord ∧ t.mport m 0xB03 = loWord s.recTime ∧
      t.mport m 0xB04 = hiWord s.recTime ∧ t = { s with mports := t.mports })) ∧
    (s.lets m 0xB0A → set.ok = true → Answers (.rtSet m v) s (fun t =>
      t.rtc = { c with secs := set.secs, ticks := 0, stat := c.stat &&& 0x7FFFFFFF, window := t.rtc.window, trimEff := t.rtc.trimEff } ∧
      (s.er.queue.length < 64 → ∃ q, t.er.queue = s.er.queue ++ [q] ∧ q.ev.code = 4 ∧ q.ev.p0 = BitVec.ofNat 32 c.secs ∧
        q.ev.p1 = BitVec.ofNat 32 set.secs) ∧
      t = { s with rtc := t.rtc, er := t.er, free := t.free })) ∧
    (s.lets m 0xB0A → set.ok = false → rejected (.rtSet m v)) ∧
    (∀ k, k < 2 → s.lets m (0xB10 + 2 * k) → alarmOk false v = true → Answers (.alarmWrite m (BitVec.ofNat 22 (0xB10 + 2 * k)) v) s (fun t =>
      t = { s with rtc := { c with atim := c.atim.set k (v &&& 0x071F3F3F) } })) ∧
    (∀ k, k < 2 → s.lets m (0xB11 + 2 * k) → alarmOk true v = true → Answers (.alarmWrite m (BitVec.ofNat 22 (0xB11 + 2 * k)) v) s (fun t =>
      t = { s with rtc := { c with adat := c.adat.set k (v &&& 0xFE000F1F) } })) ∧
    (∀ k, k < 4 → s.lets m (0xB10 + k) → alarmOk (k % 2 == 1) v = false → rejected (.alarmWrite m (BitVec.ofNat 22 (0xB10 + k)) v)) ∧
    Answers .secondIncrement s (fun t =>
      let now := if c.secs + 1 < secondsIn400 then c.secs + 1 else 0
      let hit := fun k => c.alarmMatch k (calOf now)
      t.rtc = { c with secs := now, incAt := s.ns, ticks := t.rtc.ticks, window := t.rtc.window, trimEff := t.rtc.trimEff
                       stat := c.stat ||| (if c.secs + 1 < secondsIn400 then 0 else 0x80000000) ||| (if hit 0 then 0x10000000 else 0) |||
                         (if hit 1 then 0x20000000 else 0) } ∧
      (c.trim = 0 → c.trimEff = 0 → c.ticks ≤ 32768 → c.window < 4194304 →
        t.rtc.ticks = 0 ∧ t.rtc.window = (c.window + 32768 - c.ticks) % 4194304) ∧
      (hit 0 = false → hit 1 = false → t.srcs = s.srcs) ∧ t = { s with rtc := t.rtc, srcs := t.srcs }) ∧
    (∀ vmain vcell vbak, Answers (.switchToBackup vmain vcell vbak) s (fun t =>
      let stat := (c.stat &&& 0xFCFFFFFF) ||| flagAt 25 (decide (vcell < vbak)) ||| flagAt 24 (decide (vcell < 2500))
      t = { s with rtc := if c.stat.getLsbD 27 = false ∧ (vmain + 50 < max vcell vbak ∨ vmain < 2700)
        then { c with stat := stat ||| 0x0C000000, bkin := BitVec.ofNat 32 c.secs } else { c with stat := stat } })) ∧
    (∀ vmain vcell vbak, Answers (.returnToMain vmain vcell vbak) s (fun t =>
      let stat := (c.stat &&& 0xFCFFFFFF) ||| flagAt 25 (decide (vcell < vbak)) ||| flagAt 24 (decide (vcell < 2500))
      t = { s with rtc := if c.stat.getLsbD 27 = true ∧ max vcell vbak + 100 < vmain ∧ 2900 < vmain
        then { c with stat := stat &&& 0xF7FFFFFF, bkout := BitVec.ofNat 32 c.secs } else { c with stat := stat } })) ∧
    Answers .clockDomainReset s (fun t => t.rtc.secs = 0 ∧ t.rtc.stat.getLsbD 31 = true ∧ t.rtc.clkReset = true ∧
      t = { s with rtc := t.rtc })) ∧
  (∀ (s : State) (m : Master) (v : Word),
    let n := s.er
    let still := fun (i : Instr) => Answers i s (fun t => t = s)
    let idle := n.scan = false ∧ n.clr = false
    let fresh := fun (q : QEvent) => n.newest.all (fun x => decide (x.ev ≠ q.ev)) = true
    let win := fun (q : QEvent) => n.winNew.get (fun _ => 0) q.ev.code.toNat
    let limited := fun (q : QEvent) => rateCodes.contains q.ev.code.toNat = true
    let written := fun (q : QEvent) (rest : List QEvent) (i : Nat) => Answers .recordWrite s (fun t =>
      t.recordAt i = recordWords n.nseq q.ev q.forced q.tinv q.time 0 ∧ (∀ k, k ≠ i → t.recordAt k = s.recordAt k) ∧
      t.er.queue = rest ∧ t.er.nseq = n.nseq + 1 ∧ t.er.cnt = (if n.cnt < 65536 then n.cnt + 1 else n.cnt) ∧ t.er.newestSlot = BitVec.ofNat 16 i ∧
      (limited q → t.er.winNew.get (fun _ => 0) q.ev.code.toNat = win q + 1) ∧
      t = { s with er := t.er, mram := { s.mram with records := t.mram.records } })
    (∀ e, n.queue.length < 64 → Answers (.eventOccurrence e) s (fun t => t = { s with er := { n with
      queue := n.queue ++ [{ ev := e, time := s.recTime, forced := s.forced, tinv := s.rtc.invalid, occurred := s.ns }] } })) ∧
    (∀ e, 64 ≤ n.queue.length → Answers (.eventOccurrence e) s (fun t => t = { s with er := { n with qdrop := satInc n.qdrop } })) ∧
    (n.scan = true ∨ n.clr = true ∨ n.queue = [] → still .recordWrite) ∧
    (∀ q rest, idle → n.queue = q :: rest → n.cnt < 65536 → fresh q → ¬ limited q ∨ n.newest = none ∨ win q < 8 →
      written q rest (if n.cnt = 0 then 0 else (n.newestSlot.toNat + 1) % 65536)) ∧
    (∀ q rest i, idle → n.queue = q :: rest → 65536 ≤ n.cnt ∧ fresh q ∧ (¬ limited q ∨ n.newest = none ∨ win q < 8) →
      victim q.ev.sev.toNat s.mram.records = some i → written q rest i) ∧
    (∀ q rest, idle → n.queue = q :: rest → 65536 ≤ n.cnt → fresh q → ¬ limited q → victim q.ev.sev.toNat s.mram.records = none →
      Answers .recordWrite s (fun t => t = { s with er := { n with queue := rest, fdrop := satInc n.fdrop } })) ∧
    (∀ q rest, idle → n.queue = q :: rest → fresh q → limited q → n.newest ≠ none → 8 ≤ win q → Answers .recordWrite s (fun t =>
      t.er.supp.get (fun _ => 0) q.ev.code.toNat = satInc (n.supp.get (fun _ => 0) q.ev.code.toNat) ∧
      t = { s with er := { n with queue := rest, supp := t.er.supp } })) ∧
    (∀ q rest x, idle → n.queue = q :: rest → n.newest = some x → x.ev = q.ev →
      Answers .recordWrite s (fun t =>
        fld (wordAt (t.recordAt x.slot) 7) 31 16 = min (fld (wordAt (s.recordAt x.slot) 7) 31 16 + 1) 65535 ∧
        wordAt (t.recordAt x.slot) 0 = wordAt (s.recordAt x.slot) 0 ∧ (∀ k, k ≠ x.slot → t.recordAt k = s.recordAt k) ∧
        t.er = { n with queue := rest } ∧ t = { s with er := t.er, mram := { s.mram with records := t.mram.records } })) ∧
    Answers .rateWindowEnd s (fun t => t.er.winNew = [] ∧ (∀ c ∈ rateCodes, t.er.supp.get (fun _ => 0) c = 0) ∧
      t = { s with er := t.er }) ∧
    (s.lets m 0xB42 → Answers (.erRd m v) s (fun t =>
      t.mport m 0xB43 = wordAt (s.recordAt (s.mport m 0xB40).toNat) (s.mport m 0xB41).toNat ∧
      t = { s with mports := t.mports })) ∧
    (s.lets m 0xB44 → Answers (.erFind m v) s (fun t =>
      t.mport m 0xB45 = (match findRecord s.mram.records v n.nseq with
        | some i => BitVec.ofNat 32 i
        | none => 0xFFFFFFFF) ∧ t = { s with mports := t.mports })) ∧
    (s.lets m 0xB53 →
      let good := 0xF000 ≤ fld v 31 16 ∧ fld v 31 16 ≤ 0xFFFE ∧ fld v 15 3 = 0
      (good → n.queue.length < 64 → Answers (.erLog m v) s (fun t =>
        ∃ q, t.er.queue = n.queue ++ [q] ∧ q.ev.code.toNat = fld v 31 16 ∧ q.ev.sev = v.extractLsb' 0 3 ∧
          q.ev.p0 = s.mport m 0xB50 ∧ q.ev.p1 = s.mport m 0xB51 ∧ q.ev.p2 = s.mport m 0xB52 ∧ q.ev.source = m.source ∧
          q.time = s.recTime ∧ t = { s with er := t.er })) ∧
      (good → 64 ≤ n.queue.length → Answers (.erLog m v) s (fun t => t = { s with er := { n with qdrop := satInc n.qdrop } })) ∧
      (¬ good → still (.erLog m v))))

/-- The clock at its limit (15 R512). -/
def Obligations.ClockRollover : Prop :=
  ∀ (s : State), calOf s.rtc.secs = { y := 399, mon := 12, day := 31, wday := (calOf s.rtc.secs).wday, hour := 23, min := 59, sec := 59 } →
    s.rtc.secs < secondsIn400 → Answers .secondIncrement s (fun t =>
      calOf t.rtc.secs = { y := 0, mon := 1, day := 1, wday := 6, hour := 0, min := 0, sec := 0 } ∧ t.rtc.invalid = true)

/-- Reset and boot (16 R531-R551; 17 R553): a source stops the die and waits for the module reset, its EPOCH counts, and what
survives stays; with a bank that qualifies the boot runs to its end and records BOOT, and with none the module stays in
BOOT; a brown-out also takes Sett's supply; PRESET resets a standby that is not in step, and the active sends it once to a
halted partner. Clauses that follow the model's reading and no rule's words: notes/assumptions/1601.md,
notes/assumptions/1602.md, notes/assumptions/1604.md, notes/assumptions/1605.md. -/
def Obligations.ResetAndBoot : Prop :=
  ∀ (s : State),
    let still := fun (i : Instr) => Answers i s (fun t => t = s)
    let down := fun (t : State) => t.boot = .running ∧ t.lanes = [] ∧ t.mem = [] ∧ t.mram.records = s.mram.records ∧ t.ks.slots = s.ks.slots ∧
      t.rtc.secs = s.rtc.secs ∧ t.field.outs = s.field.outs ∧ t.pl = { sensed := s.pl.sensed } ∧ t.pending = s.pending
    let first := fun (src : ResetSource) (t : State) => ∀ q, s.boot = .running → s.resetReq = some q →
      t.resetReq = some (if resetCode q ≤ resetCode src then q else src) ∧ t.mram.hostEpoch = s.mram.hostEpoch
    (∀ src ms wrong, s.boot ≠ .running → s.mram.bstate = 0 → s.ks.pendTo = none → (s.slot 2).persist = true →
      s.fwQualifies s.fwBank1 = true → Answers (.moduleReset src ms wrong) s (fun t =>
        t.boot = .done ∧ t.resetReq = none ∧ t.mram.hostEpoch = s.mram.hostEpoch + 1 ∧ t.mram.bankptr = s.mram.bankptr ∧
        t.mram.fw0 = s.mram.fw0 ∧ t.mram.fw1 = s.mram.fw1 ∧
        (∃ q ∈ t.er.queue, q.ev.code = 0x0A01 ∧ q.ev.p0 = BitVec.ofNat 32 (resetCode src) ∧ q.ev.p2 = BitVec.ofNat 32 ms) ∧
        (∀ p : Fin 8, regionPresent (p.val / 2) = true → (t.lp p.val).st ≠ .boot) ∧ t.pending = s.pending)) ∧
    (∀ src ms wrong, s.boot ≠ .running → s.mram.bstate = 0 → s.ks.pendTo = none → (s.slot 2).persist = true →
      s.fwQualifies s.fwBank1 = false → s.fwQualifies (!s.fwBank1) = false → Answers (.moduleReset src ms wrong) s (fun t =>
        t.boot = .dead ∧ t.resetReq = none ∧ t.lps = [] ∧ t.mem = [] ∧ t.mram.hostEpoch = s.mram.hostEpoch + 1)) ∧
    Answers .powerOn s (fun t => down t ∧ t.time = 0 ∧ t.sett.chans = s.sett.chans ∧ t.sett.on = s.sett.on ∧
      (s.boot ≠ .running → t.resetReq = some .powerOn ∧ t.mram.hostEpoch = s.mram.hostEpoch + 1) ∧
      first .powerOn t) ∧
    Answers .brownOut s (fun t => down t ∧ t.time = s.time ∧ t.rtc = s.rtc ∧ t.sett.chans = s.sett.chans ∧ t.sett.on = false ∧
      (s.sett.on = true → t.sett.saved.head? = some s.sett.snapshot) ∧
      (s.boot ≠ .running → t.resetReq = some .brownOut ∧ t.mram.hostEpoch = s.mram.hostEpoch + 1) ∧ first .brownOut t) ∧
    (s.pl.role = 2 → s.pl.ps = .unsync → Answers .preset s (fun t => down t ∧
      (s.boot ≠ .running → t.resetReq = some .pairCommand ∧ t.mram.hostEpoch = s.mram.hostEpoch + 1) ∧ first .pairCommand t)) ∧
    (s.pl.role ≠ 2 ∨ s.pl.ps ≠ .unsync → still .preset) ∧
    (∀ h, s.pl.role = 1 → s.pl.presetSent = false → s.pl.partner = some h → h.mstate = 3 → s.pl.link = true →
      Answers .partnerHaltTimeout s (fun t => t = { s with pl := { s.pl with
        presetSent := true, txSeq := s.pl.txSeq + 1
        outbox := s.pl.outbox ++ [LinkOut.mk (s.pl.txSeq + 1) s.pairTime (.cmd .preset (List.replicate 8 0))] } })) ∧
    (s.pl.role ≠ 1 ∨ s.pl.presetSent = true ∨ (∀ h, s.pl.partner = some h → h.mstate ≠ 3) → still .partnerHaltTimeout)

/-- The control token (07 R271-R274, R290-R294; 04 R166): a released line makes a fit standby take over and an active module
relinquish, an acquired line runs, a cause makes the active module relinquish or halt, and RELINQUISH is answered by a
takeover or a wait. The pair commands (07 R284, R298-R302): each is accepted in its role and refused in another, which CREJ
shows. Clauses that follow the model's reading and no rule's words: notes/assumptions/704.md, notes/assumptions/709.md. -/
def Obligations.ControlToken : Prop :=
  (∀ (s : State),
    let x := s.pl
    let still := fun (i : Instr) => Answers i s (fun t => t = s)
    let good := fun (hd : LinkHead) => x.link = true ∧ hd.tag = true ∧ newerSeq hd.seq x.rxSeq = true
    let master := fun (t : State) => t.pl.role = 1 ∧ t.pl.own = true ∧ t.psrc = false
    let gone := fun (rc : BitVec 8) (t : State) => t.pl.role = 2 ∧ t.pl.own = false ∧ t.pl.rc = rc ∧ t.pl.relPend = true ∧ t.pl.ps = .unsync
    (x.role = 2 → Answers (.tokenLineSensed true) s (fun t => t = { s with pl := { x with
      sensed := true, relPend := false, pdrive := true, waitRun := if x.own then x.waitRun else none } })) ∧
    (x.role ≠ 2 → Answers (.tokenLineSensed true) s (fun t => t = { s with pl := { x with
      sensed := true, waitRun := if x.own then x.waitRun else none } })) ∧
    (x.own = true → x.role = 1 → s.partnerFit = true → Answers (.tokenLineSensed false) s (fun t => gone 6 t ∧ t.halted = true ∧
      t.pl.sensed = false)) ∧
    (x.own = true → x.role ≠ 1 ∨ s.partnerFit = false → Answers (.tokenLineSensed false) s (fun t => t.halted = true ∧ t.pl.own = false ∧
      t.pl.sensed = false)) ∧
    (x.own = false → x.role ≠ 2 ∨ x.sensed = false ∨ x.relPend = true → Answers (.tokenLineSensed false) s (fun t =>
      t = { s with pl := { x with sensed := false } })) ∧
    (x.role = 2 → x.own = false → x.sensed = true → x.relPend = false → x.lastRel ≠ none ∨ s.mayTake 0 = true →
      Answers (.tokenLineSensed false) s (fun t => master t ∧ t.pl.sensed = false ∧ t.pl.lastRel = none)) ∧
    (x.role = 2 → x.own = false → x.sensed = true → x.relPend = false → x.lastRel = none → s.mayTake 0 = false →
      Answers (.tokenLineSensed false) s (fun t => t.pl.sensed = false ∧ t.pl.coldNext = true ∧ t.pl.role = 2 ∧ t.pl.own = false ∧
        (x.ps ≠ .sync → t = { s with pl := { x with sensed := false, coldNext := true }, er := t.er }) ∧
        (x.ps = .sync → t.pl.ps = .unsync ∧ ∀ p, p < 8 → (t.lp p).st ≠ .run))) ∧
    (∀ mask cold, x.waitRun = some (mask, cold) → x.sensed = false → s.halted = false →
      x.waitAt + (if x.psel then 510 else 10) * 12000000 ≤ s.time → Answers .tokenAcquire s (fun t =>
        t.pl.own = true ∧ t.pl.role = 1 ∧ t.pl.waitRun = none ∧ t.pl.coldNext = false)) ∧
    (x.waitRun = none ∨ x.sensed = true ∨ s.halted = true ∨ s.time < x.waitAt + (if x.psel then 510 else 10) * 12000000 →
      still .tokenAcquire) ∧
    (∀ rc, x.lastRel = some rc → x.sensed = true → Answers .tokenStuck s (fun t => master t ∧ t.pl.lastRel = none)) ∧
    (x.lastRel = none ∨ x.sensed = false → still .tokenStuck) ∧
    (∀ rc : BitVec 4, 1 ≤ rc.toNat → rc.toNat ≤ 6 → rc ≠ 1 → rc ≠ 5 → x.role ≠ 1 ∨ s.partnerFit = false → Answers (.relinquishCause rc) s (fun t =>
      t.halted = true ∧ t.pl.own = false ∧ t.pl.supok = (x.supok && rc != 3) ∧ t.pl.mramok = (x.mramok && rc != 4))) ∧
    (∀ rc : BitVec 4, 1 ≤ rc.toNat → rc.toNat ≤ 6 → x.role = 1 → s.partnerFit = true → Answers (.relinquishCause rc) s (fun t =>
      t.halted = true ∧ gone (rc.setWidth 8) t)) ∧
    (∀ rc : BitVec 4, rc = 0 ∨ 7 ≤ rc.toNat ∨ ((rc = 1 ∨ rc = 5) ∧ (x.role ≠ 1 ∨ s.partnerFit = false)) → still (.relinquishCause rc)) ∧
    (x.relPend = true → Answers .partnerDriveTimeout s (fun t => t = { s with pl := { x with relPend := false, pdrive := false } })) ∧
    (x.relPend = false → still .partnerDriveTimeout) ∧
    (∀ rc ls hd, good hd → x.role = 2 → x.relPend = false → s.mayTake rc = true → x.sensed = true →
      Answers (.relinquish rc ls hd) s (fun t => t = { s with pl := { x with
        rxSeq := some hd.seq, rc := rc, rcIn := true, relN := satInc x.relN, lastRel := some rc, takeT := s.pairTime } })) ∧
    (∀ rc ls hd, good hd → x.role = 2 → x.relPend = false → s.mayTake rc = true → x.sensed = false →
      Answers (.relinquish rc ls hd) s (fun t => master t ∧ t.pl.rc = rc ∧ t.pl.rcIn = true)) ∧
    (∀ rc ls hd, good hd → x.role = 2 → x.relPend = false → s.mayTake rc = false →
      Answers (.relinquish rc ls hd) s (fun t => t.pl.role = 2 ∧ t.pl.own = x.own ∧ t.pl.rc = rc ∧ t.pl.coldNext = true)) ∧
    (∀ rc ls hd, good hd → x.role ≠ 2 ∨ x.relPend = true → Answers (.relinquish rc ls hd) s (fun t =>
      t = { s with pl := { x with rxSeq := some hd.seq } }))) ∧
  (∀ (s : State) (m : Master), s.lets m 0xA88 →
    let x := s.pl
    let refused := fun (i : Instr) => Answers i s (fun t => t.mport m 0xA80 = 1 ∧ t = { s with mports := t.mports })
    let joins := x.link = true ∧ (x.lane0 = true ∨ x.lane1 = true) ∧ s.halted = false ∧ s.owlsOk = true ∧ s.sameProtocol = true ∧
      x.joining = false ∧ x.osigN < 3
    (x.role = 1 → s.partnerFit = true → Answers (.switchover m) s (fun t => t.pl.role = 2 ∧ t.pl.own = false ∧ t.pl.rc = 7 ∧
      t.pl.relPend = true ∧ (∀ p, p < 8 → (t.lp p).st ≠ .run) ∧ t.mport m 0xA80 = 0)) ∧
    (x.role = 1 → s.partnerFit = false → s.partnerReady = true → Answers (.switchover m) s (fun t =>
      t.pl = { x with switching := true, joining := true, hold := true } ∧ t.mport m 0xA80 = 0 ∧
      t = { s with pl := t.pl, mports := t.mports })) ∧
    (x.role ≠ 1 ∨ (s.partnerFit = false ∧ s.partnerReady = false) → refused (.switchover m)) ∧
    (x.role = 2 → Answers (.desync m) s (fun t => t.pl.ps = .unsync ∧ t.pl.role = 2 ∧ t.psrc = false ∧ t.mport m 0xA80 = 0 ∧
      (∀ p, p < 8 → (t.lp p).st ≠ .run))) ∧
    (x.role ≠ 2 → refused (.desync m)) ∧
    (x.role = 2 → joins → Answers (.join m) s (fun t =>
        t.pl = { x with joining := true, joinReady := !s.sameProgram, osigmm := false, rounds := 0, txSeq := x.txSeq + 1
                        outbox := x.outbox ++ [⟨x.txSeq + 1, s.pairTime, .joinreq s.prog.sm3 s.fwVersion s.fwProto (!s.sameProgram)⟩] } ∧
        t.mport m 0xA80 = 0 ∧ t = { s with pl := t.pl, mports := t.mports })) ∧
    (x.role = 2 → ¬ joins → Answers (.join m) s (fun t => t.mport m 0xA80 = 0 ∧ t = { s with mports := t.mports })) ∧
    (x.role ≠ 2 → refused (.join m)))

/-- The pair link (07 R275-R278, R280, R283): its start with the partner's signature under K5, its loss and its lanes, the
heartbeats with the slew of the pair time towards the PTIME of the header (10 ns at each of the 10 heartbeats of a ms is the
model's reading of 100 ns per ms, notes/assumptions/711.md), a lagging standby, and the frames that are discarded. Health
and background tests (07 R287-R290, R300; 04 R180, R181; 06 R244): reports, the health word, scrub, lane BIST and Owl
windows of a standby, the latched high words, and compaction. Clauses that follow the model's reading and no rule's words:
notes/assumptions/701.md, notes/assumptions/703.md, notes/assumptions/711.md. -/
def Obligations.PairLink : Prop :=
  (∀ (s : State),
    let x := s.pl
    let good := fun (hd : LinkHead) => x.link = true ∧ hd.tag = true ∧ newerSeq hd.seq x.rxSeq = true
    let bad := fun (hd : LinkHead) => x.link = true ∧ (hd.tag = false ∨ newerSeq hd.seq x.rxSeq = false)
    let beat : LinkOut := ⟨x.txSeq + 1, s.pairTime, .heartbeat s.ownHeartbeat⟩
    let out := fun (t : State) => t.pl.ps = .unsync ∧ t.pl.role = 2 ∧ t.psrc = false ∧ (∀ p, p < 8 → (t.lp p).st ≠ .run)
    let starts := s.provisioned = true ∧ (x.lane0 = true ∨ x.lane1 = true) ∧ x.link = false
    let holds := fun (eph nonce sig : List Byte) => Config.sm2Verify (s.slot 5).key (sm3Z (s.slot 5).key (eph ++ nonce)) sig = true
    (∀ eph nonce sig, starts → holds eph nonce sig → Answers (.pairLinkStart eph nonce sig) s (fun t =>
      t.pl = { x with link := true, keys := t.pl.keys, rxSeq := none, partner := none, autoDue := true } ∧
      t = { s with pl := t.pl, srcs := t.srcs, free := t.free })) ∧
    (∀ eph nonce sig, starts → ¬ holds eph nonce sig → Answers (.pairLinkStart eph nonce sig) s (fun t => t = { s with free := t.free })) ∧
    (∀ eph nonce sig, ¬ starts → Answers (.pairLinkStart eph nonce sig) s (fun t => t = s)) ∧
    (x.link = true → x.role = 2 → Answers .pairLinkLoss s (fun t => t.pl.link = false ∧ t.pl.keys = [] ∧ t.pl.joining = false ∧ out t)) ∧
    (x.link = true → x.role ≠ 2 → Answers .pairLinkLoss s (fun t =>
      t.pl = { x with link := false, keys := [], joining := false, hold := false, switching := false } ∧ t = { s with pl := t.pl, srcs := t.srcs })) ∧
    (x.link = false → Answers .pairLinkLoss s (fun t => t = s)) ∧
    (∀ up : Bool, Answers (.pairLinkLaneChange 0 up) s (fun t => t = { s with pl := { x with lane0 := up } }) ∧
      Answers (.pairLinkLaneChange 1 up) s (fun t => t = { s with pl := { x with lane1 := up } })) ∧
    (∀ h hd, good hd → x.autoDue = false ∨ x.ps ≠ .unsync → Answers (.pairLinkHeartbeat h hd) s (fun t =>
      let d : Int := if x.role = 2 ∧ (x.ps = .sync ∨ x.ps = .ready) then max (-10) (min 10 (hd.ptime - s.pairTime).toInt) else 0
      t = { s with pl := { x with
        pofs := x.pofs + BitVec.ofInt 64 d, rxSeq := some hd.seq, txSeq := x.txSeq + 1
        partner := some h, presetSent := x.presetSent && h.mstate == 3, outbox := x.outbox ++ [beat] } })) ∧
    (∀ h hd, bad hd → Answers (.pairLinkHeartbeat h hd) s (fun t => t = { s with pl := { x with
      err := satInc x.err, txSeq := x.txSeq + 1, outbox := x.outbox ++ [beat] } })) ∧
    (∀ h hd, x.link = false → Answers (.pairLinkHeartbeat h hd) s (fun t => t = s)) ∧
    (s.inStep = true → Answers .standbyLagTimeout s out) ∧
    (s.inStep = false → Answers .standbyLagTimeout s (fun t => t = s)) ∧
    (∀ (w : Fwd) (p : Fin 8) (lseq : Word) (b : Option Word) (q : Fin 256) (c : PairCmd) (ls : List Word) (k : StateBlock) (hd : LinkHead),
      bad hd → x.role = 2 →
      let lost := fun (i : Instr) => Answers i s (fun t => t.pl.err = satInc x.err ∧ out t)
      lost (.fwd w hd) ∧ lost (.iarr p lseq b q hd) ∧ lost (.cmdfwd c ls hd) ∧ lost (.pairState k hd)) ∧
    (∀ (p : Fin 8) (lseq : Word) (sig : BitVec 64) (rc : BitVec 8) (ls : List Word) (sm3 : List Byte) (fw : Word) (proto : BitVec 16)
      (ready : Bool) (hd : LinkHead), bad hd →
      let counted := fun (i : Instr) => Answers i s (fun t => t = { s with pl := { x with err := satInc x.err } })
      counted (.osig p lseq sig hd) ∧ counted (.relinquish rc ls hd) ∧ counted (.joinreq sm3 fw proto ready hd) ∧
      counted (.joinack rc hd))) ∧
  (∀ (s : State),
    let x := s.pl
    let good := fun (hd : LinkHead) => x.link = true ∧ hd.tag = true ∧ newerSeq hd.seq x.rxSeq = true
    let still := fun (i : Instr) => Answers i s (fun t => t = s)
    let idle := fun (r : Fin 4) => x.role = 2 ∧ regionPresent r.val = true ∧ s.regionIdle r.val = true
    Answers .healthUpdate s (fun t => t.pl.disc = 0 ∧
      t.pl.health.getLsbD 63 = (decide (x.ps = .sync) && s.sameProtocol && !s.flost && x.supok && decide (s.fdLs.extractLsb' 0 2 = 0) && !s.slost &&
        x.badgok && x.mramok && s.testOk && s.sameProgram && (x.lane0 || x.lane1) && !x.osigmm) ∧
      t = { s with pl := { x with health := t.pl.health, disc := 0 } }) ∧
    (∀ h hd, x.role = 2 → x.link = true → Answers (.health h hd) s (fun t =>
      t = { s with pl := { x with hseq := x.hseq + 1, txSeq := x.txSeq + 1, outbox := x.outbox ++ [⟨x.txSeq + 1, s.pairTime, .health s.healthReport⟩] } })) ∧
    (∀ h hd, x.role = 1 → good hd → Answers (.health h hd) s (fun t =>
      t.pl = { x with rxSeq := some hd.seq, phealth := long (wordAt h 0) (wordAt h 1), phealthAt := some s.time } ∧ t = { s with pl := t.pl, er := t.er })) ∧
    (∀ h hd, x.role = 1 → x.link = true → hd.tag = false ∨ newerSeq hd.seq x.rxSeq = false → Answers (.health h hd) s (fun t =>
      t = { s with pl := { x with err := satInc x.err } })) ∧
    (∀ h hd, x.role ≠ 1 → x.role ≠ 2 → still (.health h hd)) ∧
    (∀ n bad, x.role = 2 → Answers (.memoryScrub n bad) s (fun t =>
      let lost := bad || decide (s.regionErrors true ≠ 0)
      t.pl = { x with scrubs := satInc x.scrubs, scerr := satAdd x.scerr (n + s.regionErrors false), mramok := x.mramok && !lost
                      scrubBad := if lost then some s.time else x.scrubBad } ∧
      t.regionErrors true = s.regionErrors true ∧ (s.regionErrors false = 0 → t = { s with pl := t.pl }) ∧
      t = { s with pl := t.pl, regions := t.regions, er := t.er })) ∧
    (∀ n bad, x.role ≠ 2 → still (.memoryScrub n bad)) ∧
    (∀ r (pass : Bool), idle r → Answers (.laneBist r pass) s (fun t => t = { s with pl := { x with
      bists := satInc x.bists, bistf := if pass then x.bistf else satInc x.bistf, bistBad := if pass then x.bistBad else some s.time } })) ∧
    (∀ r (pass : Bool), ¬ idle r → still (.laneBist r pass) ∧ still (.owlTestIdleSlot r pass)) ∧
    (∀ r (pass : Bool), idle r → Answers (.owlTestIdleSlot r pass) s (fun t => t = if dualOwl then s else { s with pl := { x with
        owlWins := satInc x.owlWins, owlf := if pass then x.owlf else satInc x.owlf, owlBad := if pass then x.owlBad else some s.time } })) ∧
    (∀ m : Master, mayRead m.world 0xA81 = true → Answers (.plHlRead m) s (fun t => t.mport m 0xA82 = hiWord x.health ∧ t = { s with mports := t.mports })) ∧
    (∀ m : Master, mayRead m.world 0xA83 = true → Answers (.plPhlRead m) s (fun t => t.mport m 0xA84 = hiWord x.phealth ∧ t = { s with mports := t.mports })) ∧
    (∀ words, Answers (.compaction words) s (fun t =>
      t.wlog = s.wlog.filter (fun e => decide (s.time < e.1 + dayUnits)) ++ [(s.time, words)] ∧ t.mram.rwl = s.mram.rwl + BitVec.ofNat 64 words ∧
      (s.mram.log = [] → t.mram.log = []) ∧ (s.mram.log ≠ [] → t.mram.log.length = 1) ∧
      (t.rwear = true → s.rwear = false → s.er.queue.length < 64 → ∃ q, t.er.queue = s.er.queue ++ [q] ∧ q.ev.code = 0x0105 ∧ q.ev.p0 = t.rrate) ∧
      (t.rwear = false ∨ s.rwear = true → t.er = s.er) ∧
      t = { s with wlog := t.wlog, er := t.er, mram := { s.mram with rwl := t.mram.rwl, log := t.mram.log } })))

/-- What a standby in step takes (07 R280, R282): forwarded latches and interrupts, output signatures, and commands, each of
which waits for the LSEQ of the logical processors it acts on; in another state it takes none. -/
def Obligations.ForwardedMessages : Prop :=
  ∀ (s : State) (hd : LinkHead), s.pl.link = true → hd.tag = true → newerSeq hd.seq s.pl.rxSeq = true →
    let x := { s.pl with rxSeq := some hd.seq }
    let nothing := fun (i : Instr) => Answers i s (fun t => t = { s with pl := x })
    (∀ w, s.takesForwarded = true → Answers (.fwd w hd) s (fun t => t = { s with psrc := true, pl := { x with fwds := x.fwds ++ [w] } })) ∧
    (∀ (p : Fin 8) lseq b (q : Fin 256), s.takesForwarded = true → s.entryPoint p.val = false → Answers (.iarr p lseq b q hd) s (fun t =>
      t = { s with pl := { x with iarrs := x.iarrs ++ [(p.val, lseq, b, q.val)] } })) ∧
    (∀ (p : Fin 8) lseq sig, s.inStep = true → x.ownSigs = [] → Answers (.osig p lseq sig hd) s (fun t =>
      t = { s with pl := { x with osigs := x.osigs ++ [(p.val, lseq, sig)] } })) ∧
    (∀ (p : Fin 8) lseq sig own, s.inStep = true → x.ownSigs = [(p.val, lseq, own)] → x.osigs = [] → sig ≠ own →
      Answers (.osig p lseq sig hd) s (fun t => t.pl.ps = .unsync ∧ t.pl.osigmm = true ∧ t.pl.osigN = x.osigN + 1 ∧
        (∀ q, q < 8 → (t.lp q).st ≠ .run))) ∧
    (∀ (p : Fin 8) lseq sig, s.inStep = true → x.ownSigs = [(p.val, lseq, sig)] → x.osigs = [] →
      Answers (.osig p lseq sig hd) s (fun t => t = { s with pl := { x with ownSigs := [] } })) ∧
    (∀ (i : Fin 1024) ls, s.takesForwarded = true → x.cmds = [] → (∀ p, p < 8 → s.lseqReached p ls = true) → Answers (.cmdfwd (.ftClr i) ls hd) s (fun t =>
      (t.forceAt i.val).en = false ∧ (∀ k, k ≠ i.val → t.forceAt k = s.forceAt k) ∧ t = { s with pl := x, force := t.force })) ∧
    (∀ c ls, c ≠ .preset → cmdParts c = [c] → s.takesForwarded = true → x.cmds = [] → (∃ p ∈ cmdLps c, s.lseqReached p ls = false) →
      Answers (.cmdfwd c ls hd) s (fun t => t = { s with pl := { x with cmds := [(c, ls)] } })) ∧
    (s.takesForwarded = false →
      (∀ w, nothing (.fwd w hd)) ∧ (∀ (p : Fin 8) lseq b q, nothing (.iarr p lseq b q hd)) ∧ (∀ c ls, c ≠ .preset → nothing (.cmdfwd c ls hd))) ∧
    (s.inStep = false → ∀ (p : Fin 8) lseq sig, nothing (.osig p lseq sig hd))

/-- Joining (07 R283-R286, R297, R299): the active answers a request, both go through the rounds, the standby takes the blocks
and enters SYNC with its own pair time. Clauses that follow the model's reading and no rule's words:
notes/assumptions/707.md, notes/assumptions/715.md. -/
def Obligations.PairJoin : Prop :=
  ∀ (s : State) (hd : LinkHead), s.pl.link = true → hd.tag = true → newerSeq hd.seq s.pl.rxSeq = true →
    let x := { s.pl with rxSeq := some hd.seq }
    let send := fun (y : Pair) (m : PairMsg) => { y with txSeq := y.txSeq + 1, outbox := y.outbox ++ [LinkOut.mk (y.txSeq + 1) s.pairTime m] }
    let sent := fun (y : Pair) (t : State) (ms : List PairMsg) =>
      t.pl.outbox.map (fun o => o.msg) = x.outbox.map (fun o => o.msg) ++ ms ∧ t.pl.txSeq = x.txSeq + BitVec.ofNat 32 ms.length ∧
      t = { s with pl := { y with txSeq := t.pl.txSeq, outbox := t.pl.outbox } }
    let runs := x.joining = true ∧ (s.pl.partner.map (fun h => h.pstate != 0)).getD false = true
    let bulk := s.bulkBlocks.map PairMsg.state
    let still := fun (i : Instr) => Answers i s (fun t => t = s)
    (∀ sm3 fw proto ready, x.role = 1 →
      let answered := fun (c : BitVec 8) => Answers (.joinreq sm3 fw proto ready hd) s (fun t => t = { s with pl := send x (.joinack c) })
      (runs → answered 1) ∧
      (¬ runs → proto ≠ s.fwProto → answered 2) ∧
      (¬ runs → proto = s.fwProto → sm3 ≠ s.prog.sm3 → ready = false → answered 3) ∧
      (¬ runs → proto = s.fwProto → (sm3 = s.prog.sm3 ∨ ready = true) → Answers (.joinreq sm3 fw proto ready hd) s (fun t =>
        sent { x with joining := true, joinReady := ready, rounds := 0 } t (.joinack 0 :: bulk)))) ∧
    (∀ sm3 fw proto ready, x.role ≠ 1 → Answers (.joinreq sm3 fw proto ready hd) s (fun t => t = { s with pl := x })) ∧
    (x.role = 2 → x.joining = true → Answers (.joinack 0 hd) s (fun t => t.pl.ps = .syncing ∧ t.pl.rounds = 0 ∧ t.force = [] ∧ t.ptHost = [] ∧
      t.sinks = [] ∧ (∀ p, p < 8 → (t.lp p).st ≠ .run))) ∧
    (∀ c, c ≠ 0 → x.role = 2 → x.joining = true → Answers (.joinack c hd) s (fun t => t.pl.ps = .unsync ∧ t.pl.joining = false)) ∧
    (∀ c, x.role ≠ 2 ∨ x.joining = false → Answers (.joinack c hd) s (fun t => t = { s with pl := x })) ∧
    (∀ (i : Nat) w, i < 1024 → s.takesState = true → w.length = 2 → Answers (.pairState { space := .force, base := i, words := w } hd) s (fun t =>
      t.forceAt i = { addr := fld (wordAt w 0) 21 0, val := wordAt w 1, en := (wordAt w 0).getLsbD 31 } ∧
      (∀ k, k ≠ i → t.forceAt k = s.forceAt k) ∧ t = { s with pl := x, force := t.force })) ∧
    (∀ (a : Nat) v, 0x200000 ≤ a → a < 0x3FFFFF → s.takesState = true → Answers (.pairState { space := .word, base := a, words := [v] } hd) s (fun t =>
      t.memGet a = v ∧ (∀ b, b ≠ a → t.memGet b = s.memGet b) ∧ t = { s with pl := x, mem := t.mem })) ∧
    (∀ b, s.takesState = false → Answers (.pairState b hd) s (fun t => t = { s with pl := x })) ∧
    (x.joining = true → x.role = 2 →
      let comes := fun (d : Nat) (y : Pair) => Answers (.catchupRound d) s (fun t => t = { s with pl := { y with rxSeq := s.pl.rxSeq } })
      (∀ d, x.ps = .syncing ∨ x.ps = .catchup → d ≤ 65536 → x.joinReady = false → comes d { x with ps := .catchup, rounds := x.rounds + 1 }) ∧
      (∀ d, x.ps = .syncing ∨ x.ps = .catchup → d ≤ 65536 → x.joinReady = true → comes d { x with ps := .ready }) ∧
      (∀ d, x.ps = .syncing ∨ x.ps = .catchup → 65536 < d → x.rounds < 16 → comes d { x with ps := .catchup, rounds := x.rounds + 1 }) ∧
      (∀ d, x.ps = .syncing ∨ x.ps = .catchup → 65536 < d → 16 ≤ x.rounds → Answers (.catchupRound d) s (fun t =>
        t.pl.ps = .unsync ∧ t.pl.joining = false))) ∧
    (x.joining = true → x.role = 1 →
      (∀ d, d ≤ 65536 → x.joinReady = false ∨ x.switching = true → Answers (.catchupRound d) s (fun t => t = { s with pl := { s.pl with hold := true } })) ∧
      (∀ d, d ≤ 65536 → x.joinReady = true → x.switching = false → Answers (.catchupRound d) s (fun t => sent s.pl t bulk)) ∧
      (∀ d, 65536 < d → x.rounds < 16 ∨ x.joinReady = true → Answers (.catchupRound d) s (fun t =>
        sent { s.pl with rounds := x.rounds + 1 } t bulk)) ∧
      (∀ d, 65536 < d → 16 ≤ x.rounds → x.joinReady = false → Answers (.catchupRound d) s (fun t =>
        t = { s with pl := { s.pl with joining := false, rounds := 0 } }))) ∧
    (∀ d, x.joining = false → still (.catchupRound d) ∧ still .joinComplete) ∧
    (x.joining = true → x.role = 2 → x.ps = .catchup → Answers .joinComplete s (fun t =>
      t.pl.ps = .sync ∧ t.pl.joining = false ∧ t.psrc = true ∧ (∃ r, t.schedOut = s.schedOut ++ r) ∧
      (∃ e : Int, -50 ≤ e ∧ e ≤ 50 ∧ t.pl.pofs = long (wordAt x.joinAxes 0) (wordAt x.joinAxes 1) - s.ax0 + BitVec.ofInt 64 e) ∧
      (∀ p, p < 8 → s.lpExists p = true → (t.lp p).st =
        let w := x.joinSt.get (fun _ => 1) p
        if fld w 2 0 = 2 then .run else if fld w 2 0 = 3 then .halt else .stop) ∧
      t = { s with pl := t.pl, psrc := t.psrc, schedOut := t.schedOut, lps := t.lps, tasks := t.tasks, regions := t.regions, free := t.free })) ∧
    (x.joining = true → x.role = 2 → x.ps = .ready → Answers .joinComplete s (fun t => t.pl.gotFinal = true ∧ t.pl.ps = .ready ∧ t.pl.role = 2)) ∧
    (x.joining = true → x.role = 1 → x.hold = true → s.tasksDone = true → x.switching = false → Answers .joinComplete s (fun t =>
      t.pl.joining = false ∧ t.pl.hold = false ∧ t.pl.role = 1 ∧ t = { s with pl := t.pl, tasks := t.tasks })) ∧
    (x.joining = true → x.role = 1 → x.hold = true → s.tasksDone = true → x.switching = true → Answers .joinComplete s (fun t =>
      t.pl.role = 2 ∧ t.pl.own = false ∧ t.pl.rc = 7 ∧ t.pl.relPend = true)) ∧
    (x.joining = true → x.role = 1 → x.hold = false ∨ s.tasksDone = false → still .joinComplete) ∧
    (let joins := x.ps = .unsync ∧ s.sameProgram = true ∧ x.role = 2 ∧ (x.lane0 = true ∨ x.lane1 = true) ∧ s.halted = false ∧ s.owlsOk = true ∧
       s.sameProtocol = true ∧ x.osigN < 3
     let asked := send { s.pl with joining := true, joinReady := false, osigmm := false, rounds := 0, autoDue := false }
       (.joinreq s.prog.sm3 s.fwVersion s.fwProto false)
     (joins → Answers .joinRetry s (fun t => t = { s with pl := asked })) ∧
     (x.ps = .unsync → x.role = 2 → ¬ joins → Answers .joinRetry s (fun t => t = { s with pl := { s.pl with joining := false, autoDue := true } })))

end Slice0Obligations
end

