-- ==== Sys2Proof/Laws/SMap.lean ====
section
/-! SUPPORT. The laws of sparse tables: a read after a write, and that every operation keeps the canonical form. -/

namespace Sys2Proof

variable {α : Type}

@[simp] theorem SMap.get_nil (d : Nat → α) (a : Nat) : SMap.get d [] a = d a := rfl

theorem SMap.get_put_same (d : Nat → α) (m : SMap α) (a : Nat) (v : α) : SMap.get d (m.put a v) a = v := by
  induction m with
  | nil => simp [SMap.put, SMap.get]
  | cons e t ih =>
    obtain ⟨b, w⟩ := e
    simp only [SMap.put]
    split
    · simp [SMap.get]
    · split
      · simp [SMap.get]
      · rename_i h _
        simp [SMap.get, h, ih]

theorem SMap.get_put_other (d : Nat → α) (m : SMap α) {a b : Nat} (v : α) (h : b ≠ a) :
    SMap.get d (m.put a v) b = SMap.get d m b := by
  induction m with
  | nil => simp [SMap.put, SMap.get, Ne.symm h]
  | cons e t ih =>
    obtain ⟨c, w⟩ := e
    simp only [SMap.put]
    split
    · rename_i hc
      subst hc
      simp [SMap.get, Ne.symm h]
    · split
      · simp [SMap.get, Ne.symm h]
      · simp only [SMap.get, ih]

theorem SMap.get_erase_same (d : Nat → α) (m : SMap α) (a : Nat) : SMap.get d (m.erase a) a = d a := by
  induction m with
  | nil => rfl
  | cons e t ih =>
    obtain ⟨b, w⟩ := e
    by_cases h : b = a <;> simp_all [SMap.erase, SMap.get]

theorem SMap.get_erase_other (d : Nat → α) (m : SMap α) {a b : Nat} (h : b ≠ a) :
    SMap.get d (m.erase a) b = SMap.get d m b := by
  induction m with
  | nil => rfl
  | cons e t ih =>
    obtain ⟨c, w⟩ := e
    by_cases hc : c = a
    · subst hc
      simp_all [SMap.erase, SMap.get, Ne.symm h]
    · simp_all [SMap.erase, SMap.get]

/-- A read of the index just written gives the value written. -/
@[simp] theorem SMap.get_set_same [DecidableEq α] (d : Nat → α) (m : SMap α) (a : Nat) (v : α) :
    SMap.get d (SMap.set d m a v) a = v := by
  unfold SMap.set
  split
  · rename_i h
    rw [SMap.get_erase_same, h]
  · exact SMap.get_put_same d m a v

/-- A write leaves every other index alone. -/
@[simp] theorem SMap.get_set_other [DecidableEq α] (d : Nat → α) (m : SMap α) {a b : Nat} (v : α) (h : b ≠ a) :
    SMap.get d (SMap.set d m a v) b = SMap.get d m b := by
  unfold SMap.set
  split
  · exact SMap.get_erase_other d m h
  · exact SMap.get_put_other d m v h

/-- A read after a write. -/
theorem SMap.get_set [DecidableEq α] (d : Nat → α) (m : SMap α) (a b : Nat) (v : α) :
    SMap.get d (SMap.set d m a v) b = if b = a then v else SMap.get d m b := by
  by_cases h : b = a
  · subst h
    simp
  · simp [h]

/-! ### The canonical form -/

/-- Every index of a table lies above `a`. -/
def SMap.above (a : Nat) (m : SMap α) : Prop := ∀ e ∈ m, a < e.1

variable [DecidableEq α]

theorem SMap.wf_cons (d : Nat → α) (a : Nat) (v : α) (m : SMap α) :
    SMap.wf d ((a, v) :: m) = true ↔ v ≠ d a ∧ SMap.above a m ∧ SMap.wf d m = true := by
  induction m generalizing a v with
  | nil => simp [SMap.wf, SMap.above]
  | cons e t ih =>
    obtain ⟨b, w⟩ := e
    constructor
    · intro h
      simp only [SMap.wf, Bool.and_eq_true, decide_eq_true_eq] at h
      obtain ⟨⟨hv, hab⟩, ht⟩ := h
      refine ⟨hv, ?_, ht⟩
      intro e he
      rcases List.mem_cons.mp he with rfl | he
      · exact hab
      · exact Nat.lt_trans hab (((ih b w).mp ht).2.1 e he)
    · rintro ⟨hv, hab, ht⟩
      simp only [SMap.wf, Bool.and_eq_true, decide_eq_true_eq]
      exact ⟨⟨hv, hab (b, w) (List.mem_cons_self ..)⟩, ht⟩

/-- Dropping entries keeps the form. -/
theorem SMap.wf_filter (d : Nat → α) (m : SMap α) (p : Nat × α → Bool) (h : SMap.wf d m = true) :
    SMap.wf d (m.filter p) = true := by
  induction m with
  | nil => exact h
  | cons e t ih =>
    obtain ⟨b, w⟩ := e
    obtain ⟨hv, hab, ht⟩ := (SMap.wf_cons d b w t).mp h
    simp only [List.filter_cons]
    split
    · exact (SMap.wf_cons d b w _).mpr ⟨hv, fun e he => hab e ((List.mem_filter.mp he).1), ih ht⟩
    · exact ih ht

omit [DecidableEq α] in
theorem SMap.above_put {a b : Nat} {v : α} {m : SMap α} (h : SMap.above b m) (hb : b < a) : SMap.above b (m.put a v) := by
  induction m with
  | nil =>
    intro e he
    simp only [SMap.put, List.mem_singleton] at he
    subst he
    exact hb
  | cons e t ih =>
    obtain ⟨c, w⟩ := e
    have hc : b < c := h (c, w) (List.mem_cons_self ..)
    have ht : SMap.above b t := fun e he => h e (List.mem_cons_of_mem _ he)
    intro e he
    simp only [SMap.put] at he
    split at he
    · rcases List.mem_cons.mp he with rfl | he
      · exact hb
      · exact ht e he
    · split at he
      · rcases List.mem_cons.mp he with rfl | he
        · exact hb
        · exact h e he
      · rcases List.mem_cons.mp he with rfl | he
        · exact hc
        · exact ih ht e he

theorem SMap.wf_put (d : Nat → α) (m : SMap α) (a : Nat) (v : α) (hv : v ≠ d a) (h : SMap.wf d m = true) :
    SMap.wf d (m.put a v) = true := by
  induction m with
  | nil => simpa [SMap.put, SMap.wf] using hv
  | cons e t ih =>
    obtain ⟨b, w⟩ := e
    obtain ⟨hw, hab, ht⟩ := (SMap.wf_cons d b w t).mp h
    simp only [SMap.put]
    split
    · rename_i hb
      subst hb
      exact (SMap.wf_cons d b v t).mpr ⟨hv, hab, ht⟩
    · split
      · rename_i hlt
        refine (SMap.wf_cons d a v _).mpr ⟨hv, ?_, h⟩
        intro e he
        rcases List.mem_cons.mp he with rfl | he
        · exact hlt
        · exact Nat.lt_trans hlt (hab e he)
      · refine (SMap.wf_cons d b w _).mpr ⟨hw, SMap.above_put hab ?_, ih ht⟩
        omega

/-- A write keeps the canonical form. -/
theorem SMap.wf_set (d : Nat → α) (m : SMap α) (a : Nat) (v : α) (h : SMap.wf d m = true) :
    SMap.wf d (SMap.set d m a v) = true := by
  unfold SMap.set
  split
  · exact SMap.wf_filter d m _ h
  · rename_i hv
    exact SMap.wf_put d m a v hv h

omit [DecidableEq α] in
theorem SMap.get_above (d : Nat → α) (m : SMap α) (a : Nat) (h : SMap.above a m) : SMap.get d m a = d a := by
  induction m with
  | nil => rfl
  | cons e t ih =>
    obtain ⟨b, w⟩ := e
    have hb : a < b := h (b, w) (List.mem_cons_self ..)
    simp only [SMap.get]
    rw [if_neg (by omega)]
    exact ih (fun e he => h e (List.mem_cons_of_mem _ he))

end Sys2Proof
end

