-- ==== Sys2Proof/Laws/Keeps.lean ====
section
/-! SUPPORT. What no operation of the block does: it leaves the waiting commands alone, draws free values only forwards,
and keeps the invariant. One lemma for each operation says so. -/

namespace Sys2Proof.Machine

/-- From b to s the queue is the same, free values are drawn only forwards, and the invariant is kept. -/
structure Keeps (b s : State) : Prop where
  pending : s.pending = b.pending
  free : b.free ≤ s.free
  mem : b.memWf → s.memWf
  bits : b.bitsWf → s.bitsWf
  queue : b.queueWf → s.queueWf
  fixed : b.fixedSources → s.fixedSources

theorem Keeps.refl (s : State) : Keeps s s := ⟨rfl, Nat.le_refl _, id, id, id, id⟩

theorem Keeps.trans {a b c : State} (h : Keeps a b) (k : Keeps b c) : Keeps a c :=
  ⟨k.pending.trans h.pending, Nat.le_trans h.free k.free, fun x => k.mem (h.mem x), fun x => k.bits (h.bits x),
   fun x => k.queue (h.queue x), fun x => k.fixed (h.fixed x)⟩

/-- A state that differs in none of the fields concerned. -/
theorem Keeps.same {b s t : State} (h : Keeps b s) (hp : t.pending = s.pending) (hf : t.free = s.free) (hm : t.mem = s.mem)
    (hq : t.er.queue = s.er.queue) (hs : t.srcs = s.srcs) : Keeps b t := by
  refine ⟨hp.trans h.pending, hf ▸ h.free, fun x => ?_, fun x a ha => ?_, fun x => ?_, fun x => ?_⟩
  · unfold State.memWf
    rw [hm]
    exact h.mem x
  · have := h.bits x a ha
    unfold State.memGet at *
    rw [hm]
    exact this
  · unfold State.queueWf
    rw [hq]
    exact h.queue x
  · have := h.fixed x
    unfold State.fixedSources State.src at *
    rw [hs]
    exact this

/-- A state that differs in none of the fields concerned, as a record. -/
theorem Keeps.upd {b s : State} (h : Keeps b s) {time : Nat} {warm : Bool} {econ : Bool} {econNext : Bool} {boot :
    BootSt} {halted : Bool} {resetReq : Option ResetSource} {lanes : SMap Lane} {lps : SMap Lp} {tasks : SMap TaskSt}
    {regions : SMap Region} {code : SMap (BitVec 192)} {prog : Prog} {sinks : SMap Word} {mram : Mram} {mports : SMap
    Word} {sports : SMap Word} {force : SMap Force} {wlog : List (Nat × Nat)} {hold : Bool} {hcLevels : List Level}
    {hcThr : BitVec 4} {hcErr : BitVec 16} {hcEcnt : BitVec 8} {mrDi : Word} {mrTs : BitVec 64} {mrFseq : Word}
    {mrDiSeq : Word} {mrStat : BitVec 224} {mrCtr : List Word} {mrAx : List Word} {mrObj : SMap (List Word)} {mrSts :
    SMap Nat} {mrFb : SMap Word} {mrSett : List Word} {outForced : BitVec 16} {flost : Bool} {slost : Bool} {psrc :
    Bool} {txSeq : Word} {hframe : Option (Frame HostMsg)} {hrx : RxEnd} {hrxMsgs : List FieldMsg} {lbp : Word}
    {lbpPrev : Word} {fdIn : Option (Word × BitVec 8 × BitVec 8 × BitVec 16 × Bool × Bool)} {fdLs : BitVec 3} {fdLplus
    : Word} {fdDovf : BitVec 8} {fdDiag : SMap Word} {ssackn : BitVec 8} {safeAt : BitVec 64} {reqn : BitVec 8}
    {reqNow : Option Masks} {reqNext : Masks} {fdStage : SMap Masks} {cfgDue : Bool} {cfgQ : List CfgRec} {schedOut :
    List (Nat × Rec)} {busOut : List BusTx} {ptStage : SMap (List Rec)} {ptHost : SMap HostEntry} {ptGen : BitVec 16}
    {ptLost : BitVec 16} {fbStage : SMap (List FbStage)} {fbSent : SMap (List Word)} {fbLast : SMap Nat} {fbSout :
    SMap (List Word)} {fbTxs : SMap Word} {fbRun : SMap Bool} {stCmds : SMap StCmd} {stOut : List SettCmd} {stTag :
    BitVec 8} {stSeq : Word} {srx : RxEnd} {bd : Badger} {rtc : Rtc} {er : Recorder} {rk : Rack} {hc : HostCh} {pl :
    Pair} {ks : Ks} {field : Field} {sett : Sett} (hq : er.queue = s.er.queue) :
        Keeps b (State.mk time warm econ econNext boot halted resetReq lanes lps tasks regions code s.mem prog sinks
      mram mports sports force wlog s.srcs hold hcLevels hcThr hcErr hcEcnt mrDi mrTs mrFseq mrDiSeq mrStat mrCtr mrAx
      mrObj mrSts mrFb mrSett outForced flost slost psrc txSeq hframe hrx hrxMsgs lbp lbpPrev fdIn fdLs fdLplus fdDovf
      fdDiag ssackn safeAt reqn reqNow reqNext fdStage cfgDue cfgQ schedOut busOut ptStage ptHost ptGen ptLost fbStage
      fbSent fbLast fbSout fbTxs fbRun stCmds stOut stTag stSeq srx bd rtc er rk hc pl ks field sett s.free s.pending)
      :=
  Keeps.same h rfl rfl rfl hq rfl

/-- The recorder's queue gets no longer. -/
theorem Keeps.shrink {b s : State} (h : Keeps b s) {er : Recorder} (hq : er.queue.length ≤ s.er.queue.length) :
    Keeps b { s with er := er } :=
  ⟨h.pending, h.free, h.mem, h.bits, fun x => Nat.le_trans hq (h.queue x), h.fixed⟩

theorem Keeps.foldl {α : Type} {b s : State} {f : State → α → State} {l : List α}
    (hf : ∀ t x, Keeps b t → Keeps b (f t x)) (h : Keeps b s) : Keeps b (l.foldl f s) := by
  induction l generalizing s with
  | nil => exact h
  | cons x t ih => exact ih (hf s x h)

theorem Keeps.ite {b x y : State} {c : Prop} [Decidable c] (hx : Keeps b x) (hy : Keeps b y) : Keeps b (if c then x else y) := by
  split <;> assumption

/-! ### Results that hold a state -/

/-- The state that an option holds keeps what b had. -/
def KeepsO (b : State) (x : Option State) : Prop := ∀ t, x = some t → Keeps b t

/-- The state of a result that is no error keeps what b had. -/
def KeepsE {α : Type} (b : State) (x : Except Nat (State × α)) : Prop := ∀ r, x = .ok r → Keeps b r.1

/-- The state of a result that is no error keeps what b had. -/
def KeepsR (b : State) (x : Except Nat State) : Prop := ∀ t, x = .ok t → Keeps b t

theorem KeepsO.none {b : State} : KeepsO b none := fun _ h => nomatch h
theorem KeepsO.some {b s : State} (h : Keeps b s) : KeepsO b (some s) := fun _ e => Option.some.inj e ▸ h
theorem KeepsO.ite {b : State} {c : Prop} [Decidable c] {x y : Option State} (hx : KeepsO b x) (hy : KeepsO b y) :
    KeepsO b (if c then x else y) := by split <;> assumption
theorem KeepsO.fst {α : Type} {b : State} {r : State × α} (h : Keeps b r.1) : KeepsO b ((Option.some r).map Prod.fst) := KeepsO.some h
theorem KeepsO.map {b : State} {x : Option State} {f : State → State} (hf : ∀ t, Keeps b t → Keeps b (f t)) (h : KeepsO b x) :
    KeepsO b (x.map f) := by
  intro t e
  cases x with
  | none => cases e
  | some s => exact Option.some.inj e ▸ hf s (h s rfl)
theorem KeepsE.error {α : Type} {b : State} {k : Nat} : KeepsE b (.error k : Except Nat (State × α)) := fun _ h => nomatch h
theorem KeepsE.ok {α : Type} {b : State} {r : State × α} (h : Keeps b r.1) : KeepsE b (.ok r) := fun _ e => Except.ok.inj e ▸ h
theorem KeepsE.get {α : Type} {b t : State} {x : α} {e : Except Nat (State × α)} (h : KeepsE b e) (q : e = .ok (t, x)) :
    Keeps b t := h _ q
theorem KeepsE.map {α β : Type} {b : State} {x : Except Nat (State × α)} {f : State × α → State × β}
    (hf : ∀ r, Keeps b r.1 → Keeps b (f r).1) (h : KeepsE b x) : KeepsE b (x.map f) := by
  intro t e
  cases x with
  | error => cases e
  | ok r => exact Except.ok.inj e ▸ hf r (h r rfl)
theorem KeepsR.error {b : State} {k : Nat} : KeepsR b (.error k) := fun _ h => nomatch h
theorem KeepsR.ok {b s : State} (h : Keeps b s) : KeepsR b (.ok s) := fun _ e => Except.ok.inj e ▸ h

/-! ### The operations that touch the fields concerned -/

theorem State.draw_keeps {b s : State} (h : Keeps b s) : Keeps b s.draw :=
  ⟨h.pending, Nat.le_succ_of_le h.free, h.mem, h.bits, h.queue, h.fixed⟩

theorem State.memSet_keeps {b s : State} (h : Keeps b s) {a : Nat} {v : Word} : Keeps b (s.memSet a v) := by
  refine ⟨h.pending, h.free, fun x => SMap.wf_set _ _ _ _ (h.mem x), fun x c hc => ?_, h.queue, h.fixed⟩
  have := h.bits x c hc
  simp only [State.memGet, State.memSet, SMap.get_set] at *
  split
  · rename_i e
    subst e
    simp [storedValue, hc, BitVec.and_assoc]
  · exact this

theorem Keeps.filterMem {b s : State} (h : Keeps b s) {p : Nat → Bool} : Keeps b { s with mem := s.mem.filter (fun e => p e.1) } := by
  refine ⟨h.pending, h.free, fun x => SMap.wf_filter _ _ _ (h.mem x), fun x c hc => ?_, h.queue, h.fixed⟩
  have := h.bits x c hc
  simp only [State.memGet] at *
  have key : ∀ m : SMap Word, SMap.get (fun _ => (0 : Word)) (m.filter (fun e => p e.1)) c = SMap.get (fun _ => 0) m c ∨
      SMap.get (fun _ => (0 : Word)) (m.filter (fun e => p e.1)) c = 0 := by
    intro m
    induction m with
    | nil => exact .inl rfl
    | cons e t ih =>
      obtain ⟨k, w⟩ := e
      by_cases hk : k = c
      · subst hk
        by_cases hp : p k = true
        · exact .inl (by simp [hp, SMap.get])
        · refine .inr ?_
          have : ∀ m : SMap Word, SMap.get (fun _ => (0 : Word)) (m.filter (fun e => p e.1)) k = 0 := by
            intro m
            induction m with
            | nil => rfl
            | cons e t ih =>
              obtain ⟨j, w⟩ := e
              by_cases hj : p j = true
              · have : j ≠ k := fun e => hp (e ▸ hj)
                simpa [List.filter_cons, hj, SMap.get, this] using ih
              · simpa [hj] using ih
          exact this _
      · by_cases hp : p k = true
        · simpa [List.filter_cons, hp, SMap.get, hk] using ih
        · simpa [List.filter_cons, hp, SMap.get, hk] using ih
  rcases key s.mem with e | e <;> rw [e]
  · exact this
  · rfl

theorem State.enqueue_keeps {b s : State} (h : Keeps b s) {q : QEvent} : Keeps b (s.enqueue q) := by
  unfold State.enqueue
  split
  · rename_i hl
    refine ⟨h.pending, h.free, h.mem, h.bits, fun _ => ?_, h.fixed⟩
    simp only [State.queueWf, List.length_append, List.length_singleton]
    omega
  · exact Keeps.same h rfl rfl rfl rfl rfl

theorem State.modSrc_keeps {b s : State} (h : Keeps b s) {q : Nat} {f : Source → Source}
    (hf : q = 0x2E ∨ q = 0x2F → (s.src q).target = 8 → (f (s.src q)).target = 8) : Keeps b (s.modSrc q f) := by
  refine ⟨h.pending, h.free, h.mem, h.bits, h.queue, fun x => ?_⟩
  obtain ⟨h1, h2⟩ := h.fixed x
  simp only [State.fixedSources, State.modSrc, State.src, SMap.get_set] at *
  constructor <;> split
  · rename_i e
    exact hf (.inl e.symm) (e ▸ h1) |> fun y => by simpa [State.src] using y
  · exact h1
  · rename_i e
    exact hf (.inr e.symm) (e ▸ h2) |> fun y => by simpa [State.src] using y
  · exact h2

/-- The configuration of a source of the house core keeps its TARGET (08 R307). -/
theorem cfgWord_target {q : Nat} {v : Word} (h : q = 0x2E ∨ q = 0x2F) : fld (cfgWord q v) 27 24 = 8 := by
  have e : cfgWord q v = ((v &&& 0xFF83FFFF) &&& 0xF0FFFFFF) ||| 0x08000000 := by simp [cfgWord, h]
  have k : fld (cfgWord q v) 27 24 = ((cfgWord q v).extractLsb' 24 4).toNat := by
    simp [fld, BitVec.extractLsb', Nat.shiftRight_eq_div_pow]
  have x : (cfgWord q v).extractLsb' 24 4 = 8 := by
    rw [e]
    ext i hi
    have : i = 0 ∨ i = 1 ∨ i = 2 ∨ i = 3 := by omega
    rcases this with rfl | rfl | rfl | rfl <;> simp
  rw [k, x]
  rfl

end Sys2Proof.Machine
end

