-- ==== Sys2Proof/Laws/KeepsBase.lean ====
section
/-! SUPPORT. The operations of the operations shared by every unit, the recorder, the clock, the interrupt controller and the logical processors keep what Laws/Keeps.lean names. -/

namespace Sys2Proof.Machine

/-! ### Ops -/

theorem State.setLane_keeps {b s : State} (h : Keeps b s) {a0 a1} : Keeps b (State.setLane s a0 a1) :=
  Keeps.upd h rfl

theorem State.modLane_keeps {b s : State} (h : Keeps b s) {a0 a1} : Keeps b (State.modLane s a0 a1) := by
  unfold State.modLane
  repeat' first
    | with_reducible assumption
    | with_reducible apply State.setLane_keeps
    | with_reducible rfl

theorem State.setLp_keeps {b s : State} (h : Keeps b s) {a0 a1} : Keeps b (State.setLp s a0 a1) :=
  Keeps.upd h rfl

theorem State.modLp_keeps {b s : State} (h : Keeps b s) {a0 a1} : Keeps b (State.modLp s a0 a1) := by
  unfold State.modLp
  repeat' first
    | with_reducible assumption
    | with_reducible apply State.setLp_keeps
    | with_reducible rfl

theorem State.modTask_keeps {b s : State} (h : Keeps b s) {a0 a1 a2} : Keeps b (State.modTask s a0 a1 a2) :=
  Keeps.upd h rfl

theorem State.setRegion_keeps {b s : State} (h : Keeps b s) {a0 a1} : Keeps b (State.setRegion s a0 a1) :=
  Keeps.upd h rfl

theorem State.modRegion_keeps {b s : State} (h : Keeps b s) {a0 a1} : Keeps b (State.modRegion s a0 a1) := by
  unfold State.modRegion
  repeat' first
    | with_reducible assumption
    | with_reducible apply State.setRegion_keeps
    | with_reducible rfl

theorem State.setMport_keeps {b s : State} (h : Keeps b s) {a0 a1 a2} : Keeps b (State.setMport s a0 a1 a2) :=
  Keeps.upd h rfl

theorem State.setSport_keeps {b s : State} (h : Keeps b s) {a0 a1} : Keeps b (State.setSport s a0 a1) :=
  Keeps.upd h rfl

theorem State.idle_keeps {b s : State} (h : Keeps b s) : Keeps b (State.idle s) :=
  Keeps.upd h rfl

theorem State.memSetList_keeps {b s : State} (h : Keeps b s) {a0 a1} : Keeps b (State.memSetList s a0 a1) := by
  induction a1 generalizing s a0 with
  | nil => exact h
  | cons v t ih => exact ih (State.memSet_keeps h)

theorem State.record_keeps {b s : State} (h : Keeps b s) {a0} : Keeps b (State.record s a0) := by
  unfold State.record
  repeat' first
    | with_reducible assumption
    | with_reducible apply State.enqueue_keeps
    | with_reducible rfl

theorem State.event_keeps {b s : State} (h : Keeps b s) {a0 a1 a2 a3} : Keeps b (State.event s a0 a1 a2 a3) := by
  unfold State.event
  repeat' first
    | with_reducible assumption
    | with_reducible apply State.record_keeps
    | with_reducible rfl
    | dsimp only

theorem State.arrive_keeps {b s : State} (h : Keeps b s) {a0} : Keeps b (State.arrive s a0) := by
  unfold State.arrive
  repeat' first
    | with_reducible assumption
    | with_reducible apply State.modSrc_keeps
    | with_reducible rfl
    | split
    | intro _
    | (rename_i hx; first | exact hx | (split <;> exact hx))
    | dsimp only

theorem State.arriveN_keeps {b s : State} (h : Keeps b s) {a0 a1} : Keeps b (State.arriveN s a0 a1) := by
  induction a1 generalizing s with
  | zero => exact h
  | succ n ih => exact ih (State.arrive_keeps h)

theorem State.violation_keeps {b s : State} (h : Keeps b s) {a0 a1 a2} : Keeps b (State.violation s a0 a1 a2) := by
  unfold State.violation
  repeat' first
    | with_reducible assumption
    | with_reducible apply State.record_keeps
    | with_reducible rfl
    | with_reducible refine Keeps.upd ?_ ?_

theorem State.guarded_keeps {b s : State} (h : Keeps b s) {a0 a1} {f : State → State} (hf : ∀ t, Keeps b t → Keeps b (f t)) :
    Keeps b (State.guarded s a0 a1 f) := by
  unfold State.guarded
  split
  · exact h
  · split
    · exact hf s h
    · exact State.violation_keeps h

/-! ### Recorder -/

theorem State.newRecord_keeps {b s : State} (h : Keeps b s) {a0} : Keeps b (State.newRecord s a0) := by
  unfold State.newRecord
  repeat' first
    | with_reducible assumption
    | with_reducible rfl
    | split
    | with_reducible refine Keeps.upd ?_ ?_
    | dsimp only

theorem State.repeatRecord_keeps {b s : State} (h : Keeps b s) {a0 a1} : Keeps b (State.repeatRecord s a0 a1) := by
  unfold State.repeatRecord
  repeat' first
    | with_reducible assumption
    | with_reducible rfl
    | split
    | with_reducible refine Keeps.upd ?_ ?_
    | dsimp only

theorem State.writeEntry_keeps {b s : State} (h : Keeps b s) {a0} : Keeps b (State.writeEntry s a0) := by
  unfold State.writeEntry
  repeat' first
    | with_reducible assumption
    | with_reducible apply State.repeatRecord_keeps
    | with_reducible apply State.newRecord_keeps
    | with_reducible rfl
    | split
    | with_reducible refine Keeps.upd ?_ ?_
    | dsimp only

theorem recordWrite_keeps {b s : State} (h : Keeps b s) : Keeps b (recordWrite s) := by
  unfold recordWrite
  split
  · exact h
  · split
    · exact h
    · rename_i q t e
      exact State.writeEntry_keeps (Keeps.shrink h (by rw [e]; exact Nat.le_succ _))

theorem State.rateSummary_keeps {b s : State} (h : Keeps b s) {a0 a1} : Keeps b (State.rateSummary s a0 a1) := by
  unfold State.rateSummary
  repeat' first
    | with_reducible assumption
    | with_reducible apply State.record_keeps
    | with_reducible rfl
    | split
    | with_reducible refine Keeps.upd ?_ ?_
    | dsimp only

theorem rateWindowEnd_keeps {b s : State} (h : Keeps b s) : Keeps b (rateWindowEnd s) := by
  unfold rateWindowEnd
  repeat' first
    | with_reducible assumption
    | with_reducible apply State.rateSummary_keeps
    | with_reducible refine Keeps.foldl (fun _ _ _ => ?_) ?_
    | with_reducible rfl
    | with_reducible refine Keeps.upd ?_ ?_
    | dsimp only

theorem erRead_keeps {b s : State} (h : Keeps b s) {a0} : Keeps b (erRead a0 s) := by
  unfold erRead
  repeat' first
    | with_reducible assumption
    | with_reducible apply State.setMport_keeps
    | with_reducible rfl

theorem erFindOp_keeps {b s : State} (h : Keeps b s) {a0 a1} : Keeps b (erFindOp a0 a1 s) := by
  unfold erFindOp
  repeat' first
    | with_reducible assumption
    | with_reducible apply State.setMport_keeps
    | with_reducible rfl
    | split

theorem erLogOp_keeps {b s : State} (h : Keeps b s) {a0 a1} : Keeps b (erLogOp a0 a1 s) := by
  unfold erLogOp
  repeat' first
    | with_reducible assumption
    | with_reducible apply State.record_keeps
    | with_reducible rfl
    | split
    | dsimp only

theorem State.bootScan_keeps {b s : State} (h : Keeps b s) : Keeps b (State.bootScan s) := by
  unfold State.bootScan
  dsimp only
  split
  · exact Keeps.same h rfl rfl rfl rfl rfl
  · exact Keeps.same (State.draw_keeps h) rfl rfl rfl rfl rfl

/-! ### Clock -/

theorem State.dateRej_keeps {b s : State} (h : Keeps b s) : Keeps b (State.dateRej s) := by
  unfold State.dateRej
  repeat' first
    | with_reducible assumption
    | with_reducible rfl
    | split
    | with_reducible refine Keeps.upd ?_ ?_

theorem rtSnapOp_keeps {b s : State} (h : Keeps b s) {a0} : Keeps b (rtSnapOp a0 s) := by
  unfold rtSnapOp
  repeat' first
    | with_reducible assumption
    | with_reducible apply State.setMport_keeps
    | with_reducible rfl
    | dsimp only

theorem rtSetOp_keeps {b s : State} (h : Keeps b s) {a0} : Keeps b (rtSetOp a0 s) := by
  unfold rtSetOp
  repeat' first
    | with_reducible assumption
    | with_reducible apply State.dateRej_keeps
    | with_reducible apply State.record_keeps
    | with_reducible apply State.draw_keeps
    | with_reducible rfl
    | split
    | with_reducible refine Keeps.upd ?_ ?_
    | dsimp only

theorem alarmOp_keeps {b s : State} (h : Keeps b s) {a0 a1} : Keeps b (alarmOp a0 a1 s) := by
  unfold alarmOp
  repeat' first
    | with_reducible assumption
    | with_reducible apply State.dateRej_keeps
    | with_reducible rfl
    | split
    | with_reducible refine Keeps.upd ?_ ?_
    | dsimp only

theorem State.alarm_keeps {b s : State} (h : Keeps b s) {a0} : Keeps b (State.alarm s a0) := by
  unfold State.alarm
  repeat' first
    | with_reducible assumption
    | with_reducible apply State.arrive_keeps
    | with_reducible rfl
    | split
    | with_reducible refine Keeps.upd ?_ ?_

theorem secondIncrementOp_keeps {b s : State} (h : Keeps b s) : Keeps b (secondIncrementOp s) := by
  unfold secondIncrementOp
  repeat' first
    | with_reducible assumption
    | with_reducible apply State.alarm_keeps
    | with_reducible rfl
    | split
    | with_reducible refine Keeps.upd ?_ ?_
    | dsimp only

theorem switchToBackupOp_keeps {b s : State} (h : Keeps b s) {a0 a1 a2} : Keeps b (switchToBackupOp a0 a1 a2 s) := by
  unfold switchToBackupOp
  repeat' first
    | with_reducible assumption
    | with_reducible rfl
    | split
    | with_reducible refine Keeps.upd ?_ ?_
    | dsimp only

theorem returnToMainOp_keeps {b s : State} (h : Keeps b s) {a0 a1 a2} : Keeps b (returnToMainOp a0 a1 a2 s) := by
  unfold returnToMainOp
  repeat' first
    | with_reducible assumption
    | with_reducible rfl
    | split
    | with_reducible refine Keeps.upd ?_ ?_
    | dsimp only

theorem clockDomainResetOp_keeps {b s : State} (h : Keeps b s) : Keeps b (clockDomainResetOp s) :=
  Keeps.upd h rfl

theorem rtStatWrite_keeps {b s : State} (h : Keeps b s) {a0} : Keeps b (rtStatWrite a0 s) :=
  Keeps.upd h rfl

theorem rtWrite_keeps {b s : State} (h : Keeps b s) {a0 a1} : Keeps b (rtWrite a0 a1 s) := by
  unfold rtWrite
  repeat' first
    | with_reducible assumption
    | with_reducible apply rtStatWrite_keeps
    | with_reducible apply alarmOp_keeps
    | with_reducible rfl
    | split
    | with_reducible refine Keeps.upd ?_ ?_

/-! ### Intc -/

theorem State.setLevels_keeps {b s : State} (h : Keeps b s) {a0 a1} : Keeps b (State.setLevels s a0 a1) := by
  unfold State.setLevels
  repeat' first
    | with_reducible assumption
    | with_reducible apply State.modLp_keeps
    | with_reducible rfl
    | split
    | with_reducible refine Keeps.upd ?_ ?_
    | dsimp only

theorem State.deliver_keeps {b s : State} (h : Keeps b s) {a0 a1} : Keeps b (State.deliver s a0 a1) := by
  unfold State.deliver
  repeat' first
    | with_reducible assumption
    | with_reducible apply State.setLevels_keeps
    | with_reducible apply State.modSrc_keeps
    | with_reducible rfl
    | intro _
    | (rename_i hx; first | exact hx | (split <;> exact hx))
    | dsimp only

theorem State.popLevel_keeps {b s : State} (h : Keeps b s) {a0} : Keeps b (State.popLevel s a0) := by
  unfold State.popLevel
  repeat' first
    | with_reducible assumption
    | with_reducible apply State.setLevels_keeps
    | with_reducible rfl

theorem State.dropActive_keeps {b s : State} (h : Keeps b s) {a0} : Keeps b (State.dropActive s a0) := by
  unfold State.dropActive
  repeat' first
    | with_reducible assumption
    | with_reducible apply State.setLevels_keeps
    | with_reducible apply State.modSrc_keeps
    | with_reducible refine Keeps.foldl (fun _ _ _ => ?_) ?_
    | with_reducible rfl
    | split
    | intro _
    | (rename_i hx; first | exact hx | (split <;> exact hx))
    | dsimp only

theorem icCfgOp_keeps {b s : State} (h : Keeps b s) {a0 a1} : Keeps b (icCfgOp a0 a1 s) := by
  unfold icCfgOp
  dsimp only
  split
  · exact State.violation_keeps h
  · split
    · exact h
    · split
      · exact h
      · exact State.modSrc_keeps h (fun e _ => by
          have := cfgWord_target e (v := a1)
          simpa [Source.target] using this)

theorem State.doneError_keeps {b s : State} (h : Keeps b s) {a0} : Keeps b (State.doneError s a0) := by
  unfold State.doneError
  repeat' first
    | with_reducible assumption
    | with_reducible apply State.modLp_keeps
    | with_reducible rfl
    | split
    | with_reducible refine Keeps.upd ?_ ?_
    | dsimp only

theorem icDoneOp_keeps {b s : State} (h : Keeps b s) {a0 a1} : Keeps b (icDoneOp a0 a1 s) := by
  unfold icDoneOp
  repeat' first
    | with_reducible assumption
    | with_reducible apply State.doneError_keeps
    | with_reducible apply State.modSrc_keeps
    | with_reducible rfl
    | split
    | intro _
    | with_reducible refine Keeps.upd ?_ ?_
    | (rename_i hx; first | exact hx | (split <;> exact hx))
    | dsimp only

theorem icRaiseOp_keeps {b s : State} (h : Keeps b s) {a0} : Keeps b (icRaiseOp a0 s) := by
  unfold icRaiseOp
  repeat' first
    | with_reducible assumption
    | with_reducible apply State.arrive_keeps
    | with_reducible rfl
    | split

theorem icClrOp_keeps {b s : State} (h : Keeps b s) {a0} : Keeps b (icClrOp a0 s) := by
  unfold icClrOp
  repeat' first
    | with_reducible assumption
    | with_reducible apply State.modSrc_keeps
    | with_reducible rfl
    | split
    | intro _
    | (rename_i hx; first | exact hx | (split <;> exact hx))
    | dsimp only

theorem icHoldOp_keeps {b s : State} (h : Keeps b s) {a0} : Keeps b (icHoldOp a0 s) :=
  Keeps.upd h rfl

theorem icThrOp_keeps {b s : State} (h : Keeps b s) {a0 a1} : Keeps b (icThrOp a0 a1 s) := by
  unfold icThrOp
  repeat' first
    | with_reducible assumption
    | with_reducible apply State.modLp_keeps
    | with_reducible rfl
    | split
    | with_reducible refine Keeps.upd ?_ ?_
    | dsimp only

/-! ### RackBase -/

theorem State.refreshRlost_keeps {b s : State} (h : Keeps b s) : Keeps b (State.refreshRlost s) := by
  unfold State.refreshRlost
  repeat' first
    | with_reducible assumption
    | with_reducible apply State.arrive_keeps
    | with_reducible rfl
    | split
    | with_reducible refine Keeps.upd ?_ ?_
    | dsimp only

theorem State.refreshRole_keeps {b s : State} (h : Keeps b s) : Keeps b (State.refreshRole s) := by
  unfold State.refreshRole
  repeat' first
    | with_reducible assumption
    | with_reducible rfl
    | split
    | with_reducible refine Keeps.upd ?_ ?_

theorem State.dropToken_keeps {b s : State} (h : Keeps b s) : Keeps b (State.dropToken s) := by
  unfold State.dropToken
  repeat' first
    | with_reducible assumption
    | with_reducible apply State.refreshRole_keeps
    | with_reducible apply State.refreshRlost_keeps
    | with_reducible rfl
    | with_reducible refine Keeps.upd ?_ ?_

/-! ### Logical -/

theorem State.setSession_keeps {b s : State} (h : Keeps b s) {a0 a1} : Keeps b (State.setSession s a0 a1) :=
  Keeps.upd h rfl

theorem State.send_keeps {b s : State} (h : Keeps b s) {a0 a1} : Keeps b (State.send s a0 a1) := by
  unfold State.send
  repeat' first
    | with_reducible assumption
    | with_reducible rfl
    | split
    | with_reducible refine Keeps.upd ?_ ?_

theorem State.reply_keeps {b s : State} (h : Keeps b s) {a0 a1 a2 a3 a4 a5} : Keeps b (State.reply s a0 a1 a2 a3 a4 a5) := by
  unfold State.reply
  repeat' first
    | with_reducible assumption
    | with_reducible apply State.send_keeps
    | with_reducible apply State.setSession_keeps
    | with_reducible rfl
    | split
    | with_reducible refine Keeps.upd ?_ ?_
    | dsimp only

theorem State.finishOp_keeps {b s : State} (h : Keeps b s) {a0 a1 a2} : Keeps b (State.finishOp s a0 a1 a2) := by
  unfold State.finishOp
  repeat' first
    | with_reducible assumption
    | with_reducible apply State.reply_keeps
    | with_reducible apply State.record_keeps
    | with_reducible rfl
    | split
    | with_reducible refine Keeps.upd ?_ ?_
    | dsimp only

theorem State.emptyFreeBank_keeps {b s : State} (h : Keeps b s) : Keeps b (State.emptyFreeBank s) := by
  unfold State.emptyFreeBank
  repeat' first
    | with_reducible assumption
    | with_reducible rfl
    | split
    | with_reducible refine Keeps.upd ?_ ?_

theorem State.emptyLoadBank_keeps {b s : State} (h : Keeps b s) {a0} : Keeps b (State.emptyLoadBank s a0) := by
  unfold State.emptyLoadBank
  repeat' first
    | with_reducible assumption
    | with_reducible rfl
    | split
    | with_reducible refine Keeps.upd ?_ ?_
    | dsimp only

theorem State.abortExchange_keeps {b s : State} (h : Keeps b s) {a0} : Keeps b (State.abortExchange s a0) := by
  unfold State.abortExchange
  repeat' first
    | with_reducible assumption
    | with_reducible apply State.emptyLoadBank_keeps
    | with_reducible apply State.emptyFreeBank_keeps
    | with_reducible apply State.finishOp_keeps
    | with_reducible apply State.modRegion_keeps
    | with_reducible rfl
    | split
    | dsimp only

theorem State.discardStaged_keeps {b s : State} (h : Keeps b s) {a0} : Keeps b (State.discardStaged s a0) := by
  unfold State.discardStaged
  repeat' first
    | with_reducible assumption
    | with_reducible rfl
    | split
    | with_reducible refine Keeps.upd ?_ ?_
    | dsimp only

theorem State.trigger_keeps {b s : State} (h : Keeps b s) {a0 a1 a2} : Keeps b (State.trigger s a0 a1 a2) := by
  unfold State.trigger
  repeat' first
    | with_reducible assumption
    | with_reducible apply State.record_keeps
    | with_reducible apply State.modRegion_keeps
    | with_reducible apply State.modTask_keeps
    | with_reducible rfl
    | split
    | dsimp only

theorem State.triggerArg_keeps {b s : State} (h : Keeps b s) {a0 a1 a2 a3} : Keeps b (State.triggerArg s a0 a1 a2 a3) := by
  unfold State.triggerArg
  repeat' first
    | with_reducible assumption
    | with_reducible apply State.trigger_keeps
    | with_reducible refine Keeps.foldl (fun _ _ _ => ?_) ?_
    | with_reducible rfl
    | split
    | dsimp only

theorem State.triggerFree_keeps {b s : State} (h : Keeps b s) {a0} : Keeps b (State.triggerFree s a0) := by
  unfold State.triggerFree
  repeat' first
    | with_reducible assumption
    | with_reducible apply State.trigger_keeps
    | with_reducible refine Keeps.foldl (fun _ _ _ => ?_) ?_
    | with_reducible rfl
    | split
    | dsimp only

theorem taskTriggerOp_keeps {b s : State} (h : Keeps b s) {a0 a1} : Keeps b (taskTriggerOp a0 a1 s) := by
  unfold taskTriggerOp
  repeat' first
    | with_reducible assumption
    | with_reducible apply State.trigger_keeps
    | with_reducible rfl
    | split

theorem gapExpiryOp_keeps {b s : State} (h : Keeps b s) {a0 a1} : Keeps b (gapExpiryOp a0 a1 s) := by
  unfold gapExpiryOp
  repeat' first
    | with_reducible assumption
    | with_reducible apply State.trigger_keeps
    | with_reducible apply State.modTask_keeps
    | with_reducible rfl
    | split
    | dsimp only

theorem State.erqDrop_keeps {b s : State} (h : Keeps b s) {a0} : Keeps b (State.erqDrop s a0) :=
  Keeps.upd h rfl

theorem State.leaveRun_keeps {b s : State} (h : Keeps b s) {a0} : Keeps b (State.leaveRun s a0) := by
  unfold State.leaveRun
  repeat' first
    | with_reducible assumption
    | with_reducible apply State.erqDrop_keeps
    | with_reducible apply State.abortExchange_keeps
    | with_reducible apply State.dropActive_keeps
    | with_reducible apply State.idle_keeps
    | with_reducible apply State.modTask_keeps
    | with_reducible apply State.modLp_keeps
    | with_reducible apply State.modLane_keeps
    | with_reducible refine Keeps.foldl (fun _ _ _ => ?_) ?_
    | with_reducible rfl
    | split
    | dsimp only

theorem State.freshOwl_keeps {b s : State} (h : Keeps b s) {a0} : Keeps b (State.freshOwl s a0) := by
  unfold State.freshOwl
  repeat' first
    | with_reducible assumption
    | with_reducible apply State.modRegion_keeps
    | with_reducible apply State.modLane_keeps
    | with_reducible rfl
    | dsimp only

theorem State.stopTrail_keeps {b s : State} (h : Keeps b s) {a0} : Keeps b (State.stopTrail s a0) := by
  unfold State.stopTrail
  repeat' first
    | with_reducible assumption
    | with_reducible apply State.modRegion_keeps
    | with_reducible rfl
    | split
    | dsimp only

theorem State.haltLp_keeps {b s : State} (h : Keeps b s) {a0 a1} : Keeps b (State.haltLp s a0 a1) := by
  unfold State.haltLp
  repeat' first
    | with_reducible assumption
    | with_reducible apply State.stopTrail_keeps
    | with_reducible apply State.leaveRun_keeps
    | with_reducible apply State.discardStaged_keeps
    | with_reducible apply State.modLp_keeps
    | with_reducible rfl
    | split
    | dsimp only

theorem State.moduleHalt_keeps {b s : State} (h : Keeps b s) : Keeps b (State.moduleHalt s) := by
  unfold State.moduleHalt
  repeat' first
    | with_reducible assumption
    | with_reducible apply State.haltLp_keeps
    | with_reducible apply State.dropToken_keeps
    | with_reducible refine Keeps.foldl (fun _ _ _ => ?_) ?_
    | with_reducible rfl
    | split
    | with_reducible refine Keeps.upd ?_ ?_
    | dsimp only

theorem State.stopLp_keeps {b s : State} (h : Keeps b s) {a0} : Keeps b (State.stopLp s a0) := by
  unfold State.stopLp
  repeat' first
    | with_reducible assumption
    | with_reducible apply State.leaveRun_keeps
    | with_reducible apply State.modLp_keeps
    | with_reducible rfl
    | split
    | dsimp only

theorem State.programFault_keeps {b s : State} (h : Keeps b s) {a0 a1} : Keeps b (State.programFault s a0 a1) := by
  unfold State.programFault
  repeat' first
    | with_reducible assumption
    | with_reducible apply State.arrive_keeps
    | with_reducible apply State.record_keeps
    | with_reducible rfl

theorem taskDeliveryOp_keeps {b s : State} (h : Keeps b s) {a0} : Keeps b (taskDeliveryOp a0 s) := by
  unfold taskDeliveryOp
  repeat' first
    | with_reducible assumption
    | with_reducible apply State.triggerArg_keeps
    | with_reducible apply State.modLp_keeps
    | with_reducible apply State.modSrc_keeps
    | with_reducible rfl
    | split
    | intro _
    | with_reducible refine Keeps.upd ?_ ?_
    | (rename_i hx; first | exact hx | (split <;> exact hx))
    | dsimp only

theorem State.resetOp_keeps {b s : State} (h : Keeps b s) : Keeps b (State.resetOp s) := by
  unfold State.resetOp
  repeat' first
    | with_reducible assumption
    | with_reducible apply State.emptyFreeBank_keeps
    | with_reducible rfl
    | split
    | with_reducible refine Keeps.upd ?_ ?_

theorem State.dieReset_keeps {b s : State} (h : Keeps b s) {a0} : Keeps b (State.dieReset s a0) := by
  refine ⟨h.pending, h.free, fun _ => rfl, fun _ a _ => ?_, fun _ => ?_, fun _ => ?_⟩
  · simp [State.memGet, State.dieReset]
  · exact Nat.zero_le 64
  · constructor <;> simp [State.dieReset, State.src, SMap.get, Source.target, fld]

theorem State.assertReset_keeps {b s : State} (h : Keeps b s) {a0} : Keeps b (State.assertReset s a0) := by
  unfold State.assertReset
  repeat' first
    | with_reducible assumption
    | with_reducible apply State.dieReset_keeps
    | with_reducible apply State.resetOp_keeps
    | with_reducible rfl
    | split
    | with_reducible refine Keeps.upd ?_ ?_
    | dsimp only

end Sys2Proof.Machine
end

