-- ==== Sys2Proof/Laws/KeepsField.lean ====
section
/-! SUPPORT. The operations of the field die keep what Laws/Keeps.lean names. -/

namespace Sys2Proof.Machine

/-! ### FieldBase -/

theorem State.modField_keeps {b s : State} (h : Keeps b s) {a0} : Keeps b (State.modField s a0) :=
  Keeps.upd h rfl

theorem State.onField_keeps {b s : State} (h : Keeps b s) {f : State → State} (hf : ∀ t, Keeps b t → Keeps b (f t)) :
    Keeps b (State.onField s f) := by
  unfold State.onField
  split
  · exact hf s h
  · exact h

theorem State.fieldEvent_keeps {b s : State} (h : Keeps b s) {a0 a1 a2 a3} : Keeps b (State.fieldEvent s a0 a1 a2 a3) := by
  unfold State.fieldEvent
  repeat' first
    | with_reducible assumption
    | with_reducible apply State.modField_keeps
    | with_reducible rfl
    | dsimp only

/-! ### Axis -/

theorem State.axisRecord_keeps {b s : State} (h : Keeps b s) {a0 a1 a2 a3} : Keeps b (State.axisRecord s a0 a1 a2 a3) := by
  unfold State.axisRecord
  repeat' first
    | with_reducible assumption
    | with_reducible apply State.fieldEvent_keeps
    | with_reducible rfl

theorem State.setAxis_keeps {b s : State} (h : Keeps b s) {a0 a1} : Keeps b (State.setAxis s a0 a1) := by
  unfold State.setAxis
  repeat' first
    | with_reducible assumption
    | with_reducible apply State.modField_keeps
    | with_reducible rfl
    | dsimp only

theorem State.axisLost_keeps {b s : State} (h : Keeps b s) {a0} : Keeps b (State.axisLost s a0) := by
  unfold State.axisLost
  repeat' first
    | with_reducible assumption
    | with_reducible apply State.setAxis_keeps
    | with_reducible apply State.axisRecord_keeps
    | with_reducible rfl
    | split
    | dsimp only

theorem State.axisFreeze_keeps {b s : State} (h : Keeps b s) {a0} : Keeps b (State.axisFreeze s a0) := by
  unfold State.axisFreeze
  repeat' first
    | with_reducible assumption
    | with_reducible apply State.setAxis_keeps
    | with_reducible apply State.axisRecord_keeps
    | with_reducible rfl
    | split
    | dsimp only

theorem State.axisRecovered_keeps {b s : State} (h : Keeps b s) {a0 a1} : Keeps b (State.axisRecovered s a0 a1) := by
  unfold State.axisRecovered
  repeat' first
    | with_reducible assumption
    | with_reducible apply State.setAxis_keeps
    | with_reducible apply State.axisRecord_keeps
    | with_reducible rfl

theorem State.axisOverspeed_keeps {b s : State} (h : Keeps b s) {a0} : Keeps b (State.axisOverspeed s a0) := by
  unfold State.axisOverspeed
  repeat' first
    | with_reducible assumption
    | with_reducible apply State.setAxis_keeps
    | with_reducible apply State.axisRecord_keeps
    | with_reducible rfl
    | dsimp only

theorem encoderEdgeOp_keeps {b s : State} (h : Keeps b s) {a0 a1 a2} : Keeps b (encoderEdgeOp a0 a1 a2 s) := by
  unfold encoderEdgeOp
  repeat' first
    | with_reducible assumption
    | with_reducible apply State.axisRecovered_keeps
    | with_reducible apply State.axisLost_keeps
    | with_reducible apply State.setAxis_keeps
    | with_reducible apply State.modField_keeps
    | with_reducible rfl
    | split
    | dsimp only

theorem homeOp_keeps {b s : State} (h : Keeps b s) {a0} : Keeps b (homeOp a0 s) := by
  unfold homeOp
  repeat' first
    | with_reducible assumption
    | with_reducible apply State.setAxis_keeps
    | with_reducible rfl
    | split
    | dsimp only

theorem syncCrossingOp_keeps {b s : State} (h : Keeps b s) {a0} : Keeps b (syncCrossingOp a0 s) := by
  unfold syncCrossingOp
  repeat' first
    | with_reducible assumption
    | with_reducible apply State.axisRecovered_keeps
    | with_reducible apply State.axisLost_keeps
    | with_reducible apply State.setAxis_keeps
    | with_reducible apply State.modField_keeps
    | with_reducible rfl
    | split
    | dsimp only

theorem State.virtualFrame_keeps {b s : State} (h : Keeps b s) {a0 a1} : Keeps b (State.virtualFrame s a0 a1) := by
  unfold State.virtualFrame
  repeat' first
    | with_reducible assumption
    | with_reducible apply State.axisRecovered_keeps
    | with_reducible apply State.setAxis_keeps
    | with_reducible apply State.fieldEvent_keeps
    | with_reducible apply State.draw_keeps
    | with_reducible rfl
    | split
    | dsimp only

theorem State.virtualAxes_keeps {b s : State} (h : Keeps b s) {a0 a1} : Keeps b (State.virtualAxes s a0 a1) := by
  unfold State.virtualAxes
  repeat' first
    | with_reducible assumption
    | with_reducible apply State.virtualFrame_keeps
    | with_reducible refine Keeps.foldl (fun _ _ _ => ?_) ?_
    | with_reducible rfl
    | split
    | dsimp only

/-! ### FieldDie -/

theorem State.refreshOut_keeps {b s : State} (h : Keeps b s) {a0} : Keeps b (State.refreshOut s a0) := by
  unfold State.refreshOut
  repeat' first
    | with_reducible assumption
    | with_reducible rfl
    | split
    | with_reducible refine Keeps.upd ?_ ?_
    | dsimp only

theorem State.refreshOuts_keeps {b s : State} (h : Keeps b s) : Keeps b (State.refreshOuts s) := by
  unfold State.refreshOuts
  repeat' first
    | with_reducible assumption
    | with_reducible apply State.refreshOut_keeps
    | with_reducible refine Keeps.foldl (fun _ _ _ => ?_) ?_
    | with_reducible rfl
    | dsimp only

theorem latchOffOp_keeps {b s : State} (h : Keeps b s) {a0 a1} : Keeps b (latchOffOp a0 a1 s) := by
  unfold latchOffOp
  repeat' first
    | with_reducible assumption
    | with_reducible apply State.refreshOuts_keeps
    | with_reducible refine Keeps.foldl (fun _ _ _ => ?_) ?_
    | with_reducible rfl
    | split
    | with_reducible refine Keeps.upd ?_ ?_
    | dsimp only

theorem extdrvOp_keeps {b s : State} (h : Keeps b s) {a0} : Keeps b (extdrvOp a0 s) := by
  unfold extdrvOp
  repeat' first
    | with_reducible assumption
    | with_reducible rfl
    | split
    | with_reducible refine Keeps.upd ?_ ?_
    | dsimp only

theorem extdrvClearOp_keeps {b s : State} (h : Keeps b s) {a0} : Keeps b (extdrvClearOp a0 s) := by
  unfold extdrvClearOp
  repeat' first
    | with_reducible assumption
    | with_reducible rfl
    | split
    | with_reducible refine Keeps.upd ?_ ?_
    | dsimp only

theorem State.openWire_keeps {b s : State} (h : Keeps b s) {a0 a1} : Keeps b (State.openWire s a0 a1) := by
  unfold State.openWire
  repeat' first
    | with_reducible assumption
    | with_reducible apply State.axisLost_keeps
    | with_reducible rfl
    | split
    | with_reducible refine Keeps.upd ?_ ?_
    | dsimp only

theorem State.openLoad_keeps {b s : State} (h : Keeps b s) {a0 a1 a2} : Keeps b (State.openLoad s a0 a1 a2) := by
  unfold State.openLoad
  repeat' first
    | with_reducible assumption
    | with_reducible rfl
    | split
    | with_reducible refine Keeps.upd ?_ ?_
    | dsimp only

theorem diagnosticSlotOp_keeps {b s : State} (h : Keeps b s) {a0 a1 a2} : Keeps b (diagnosticSlotOp a0 a1 a2 s) := by
  unfold diagnosticSlotOp
  repeat' first
    | with_reducible assumption
    | with_reducible apply State.openLoad_keeps
    | with_reducible apply State.openWire_keeps
    | with_reducible refine Keeps.foldl (fun _ _ _ => ?_) ?_
    | with_reducible rfl
    | dsimp only

theorem filterChangeOp_keeps {b s : State} (h : Keeps b s) {a0 a1} : Keeps b (filterChangeOp a0 a1 s) := by
  unfold filterChangeOp
  repeat' first
    | with_reducible assumption
    | with_reducible apply State.modField_keeps
    | with_reducible rfl
    | split
    | dsimp only

theorem fastCounterEdgeOp_keeps {b s : State} (h : Keeps b s) {a0 a1} : Keeps b (fastCounterEdgeOp a0 a1 s) := by
  unfold fastCounterEdgeOp
  repeat' first
    | with_reducible assumption
    | with_reducible apply State.modField_keeps
    | with_reducible rfl
    | split
    | dsimp only

theorem supplyTransitionOp_keeps {b s : State} (h : Keeps b s) {a0} : Keeps b (supplyTransitionOp a0 s) := by
  unfold supplyTransitionOp
  repeat' first
    | with_reducible assumption
    | with_reducible apply State.refreshOuts_keeps
    | with_reducible rfl
    | split
    | with_reducible refine Keeps.upd ?_ ?_
    | dsimp only

/-! ### BusDie -/

theorem State.channel_keeps {b s : State} (h : Keeps b s) {a0 a1} : Keeps b (State.channel s a0 a1) := by
  unfold State.channel
  repeat' first
    | with_reducible assumption
    | with_reducible apply State.modField_keeps
    | with_reducible rfl
    | dsimp only

theorem State.busEvent_keeps {b s : State} (h : Keeps b s) {a0 a1 a2 a3} : Keeps b (State.busEvent s a0 a1 a2 a3) := by
  unfold State.busEvent
  repeat' first
    | with_reducible assumption
    | with_reducible apply State.fieldEvent_keeps
    | with_reducible rfl

theorem State.busOff_keeps {b s : State} (h : Keeps b s) {a0} : Keeps b (State.busOff s a0) := by
  unfold State.busOff
  repeat' first
    | with_reducible assumption
    | with_reducible apply State.busEvent_keeps
    | with_reducible apply State.channel_keeps
    | with_reducible apply State.modField_keeps
    | with_reducible apply State.idle_keeps
    | with_reducible refine Keeps.foldl (fun _ _ _ => ?_) ?_
    | with_reducible rfl
    | split
    | dsimp only

theorem State.errorSeen_keeps {b s : State} (h : Keeps b s) {a0 a1 a2} : Keeps b (State.errorSeen s a0 a1 a2) := by
  unfold State.errorSeen
  exact Keeps.ite (State.busOff_keeps (State.busEvent_keeps (State.channel_keeps h))) (State.busEvent_keeps (State.channel_keeps h))

theorem errorFrameOp_keeps {b s : State} (h : Keeps b s) {a0 a1 a2} : Keeps b (errorFrameOp a0 a1 a2 s) := by
  unfold errorFrameOp
  repeat' first
    | with_reducible assumption
    | with_reducible apply State.errorSeen_keeps
    | with_reducible rfl
    | split

theorem canFrameReceiveOp_keeps {b s : State} (h : Keeps b s) {a0 a1} : Keeps b (canFrameReceiveOp a0 a1 s) := by
  unfold canFrameReceiveOp
  repeat' first
    | with_reducible assumption
    | with_reducible apply State.errorSeen_keeps
    | with_reducible apply State.channel_keeps
    | with_reducible apply State.virtualAxes_keeps
    | with_reducible apply State.modField_keeps
    | with_reducible apply State.draw_keeps
    | with_reducible rfl
    | split
    | dsimp only

theorem arbitrationStartOp_keeps {b s : State} (h : Keeps b s) {a0} : Keeps b (arbitrationStartOp a0 s) := by
  unfold arbitrationStartOp
  repeat' first
    | with_reducible assumption
    | with_reducible apply State.channel_keeps
    | with_reducible rfl
    | split
    | dsimp only

theorem State.noteLec_keeps {b s : State} (h : Keeps b s) {a0 a1} : Keeps b (State.noteLec s a0 a1) := by
  unfold State.noteLec
  repeat' first
    | with_reducible assumption
    | with_reducible apply State.channel_keeps
    | with_reducible rfl
    | split
    | dsimp only

theorem State.ackError_keeps {b s : State} (h : Keeps b s) {a0} : Keeps b (State.ackError s a0) := by
  unfold State.ackError
  repeat' first
    | with_reducible assumption
    | with_reducible apply State.busEvent_keeps
    | with_reducible apply State.channel_keeps
    | with_reducible rfl
    | split
    | dsimp only

theorem State.attemptAck_keeps {b s : State} (h : Keeps b s) {a0 a1} : Keeps b (State.attemptAck s a0 a1) := by
  unfold State.attemptAck
  repeat' first
    | with_reducible assumption
    | with_reducible apply State.ackError_keeps
    | with_reducible apply State.noteLec_keeps
    | with_reducible apply State.channel_keeps
    | with_reducible rfl
    | split
    | dsimp only

theorem State.clash_keeps {b s : State} (h : Keeps b s) {a0 a1 a2 a3} : Keeps b (State.clash s a0 a1 a2 a3) := by
  unfold State.clash
  repeat' first
    | with_reducible assumption
    | with_reducible apply State.busEvent_keeps
    | with_reducible apply State.channel_keeps
    | with_reducible rfl
    | split
    | dsimp only

theorem attemptEndOp_keeps {b s : State} (h : Keeps b s) {a0 a1} : Keeps b (attemptEndOp a0 a1 s) := by
  unfold attemptEndOp
  repeat' first
    | with_reducible assumption
    | with_reducible apply State.clash_keeps
    | with_reducible apply State.attemptAck_keeps
    | with_reducible apply State.modField_keeps
    | with_reducible rfl
    | split
    | dsimp only

theorem recoverOp_keeps {b s : State} (h : Keeps b s) {a0} : Keeps b (recoverOp a0 s) := by
  unfold recoverOp
  repeat' first
    | with_reducible assumption
    | with_reducible apply State.channel_keeps
    | with_reducible rfl
    | split
    | dsimp only

theorem busOffRecoveryEndOp_keeps {b s : State} (h : Keeps b s) {a0} : Keeps b (busOffRecoveryEndOp a0 s) := by
  unfold busOffRecoveryEndOp
  repeat' first
    | with_reducible assumption
    | with_reducible apply State.busEvent_keeps
    | with_reducible apply State.channel_keeps
    | with_reducible rfl
    | split
    | dsimp only

theorem stuckOp_keeps {b s : State} (h : Keeps b s) {a0} : Keeps b (stuckOp a0 s) := by
  unfold stuckOp
  repeat' first
    | with_reducible assumption
    | with_reducible apply State.channel_keeps
    | with_reducible rfl
    | split
    | dsimp only

theorem recessiveIdleOp_keeps {b s : State} (h : Keeps b s) {a0} : Keeps b (recessiveIdleOp a0 s) := by
  unfold recessiveIdleOp
  repeat' first
    | with_reducible assumption
    | with_reducible apply State.channel_keeps
    | with_reducible rfl
    | dsimp only

theorem statusRecordOp_keeps {b s : State} (h : Keeps b s) {a0} : Keeps b (statusRecordOp a0 s) := by
  unfold statusRecordOp
  repeat' first
    | with_reducible assumption
    | with_reducible apply State.modField_keeps
    | with_reducible rfl
    | dsimp only

theorem clrstOp_keeps {b s : State} (h : Keeps b s) {a0} : Keeps b (clrstOp a0 s) := by
  unfold clrstOp
  repeat' first
    | with_reducible assumption
    | with_reducible apply State.channel_keeps
    | with_reducible rfl
    | dsimp only

theorem clrcntOp_keeps {b s : State} (h : Keeps b s) {a0} : Keeps b (clrcntOp a0 s) := by
  unfold clrcntOp
  repeat' first
    | with_reducible assumption
    | with_reducible apply State.modField_keeps
    | with_reducible rfl
    | dsimp only

theorem stationRequestOp_keeps {b s : State} (h : Keeps b s) {a0 a1} : Keeps b (stationRequestOp a0 a1 s) := by
  unfold stationRequestOp
  repeat' first
    | with_reducible assumption
    | with_reducible apply State.idle_keeps
    | with_reducible rfl
    | split
    | with_reducible refine Keeps.upd ?_ ?_
    | dsimp only

theorem State.busRecord_keeps {b s : State} (h : Keeps b s) {a0} : Keeps b (State.busRecord s a0) := by
  unfold State.busRecord
  repeat' first
    | with_reducible assumption
    | with_reducible apply clrcntOp_keeps
    | with_reducible apply clrstOp_keeps
    | with_reducible apply recoverOp_keeps
    | with_reducible apply State.modField_keeps
    | with_reducible apply State.send_keeps
    | with_reducible rfl
    | split
    | dsimp only

/-! ### Table -/

theorem State.note_keeps {b s : State} (h : Keeps b s) {a0} : Keeps b (State.note s a0) := by
  unfold State.note
  repeat' first
    | with_reducible assumption
    | with_reducible apply State.modField_keeps
    | with_reducible rfl
    | split
    | dsimp only

theorem State.act_keeps {b s : State} (h : Keeps b s) {a0} : Keeps b (State.act s a0).1 := by
  unfold State.act
  dsimp only
  split
  all_goals first
    | with_reducible exact h
    | with_reducible exact State.refreshOuts_keeps (State.modField_keeps h)
    | (split <;> first | with_reducible exact h | with_reducible exact State.modField_keeps h)

theorem State.report_keeps {b s : State} (h : Keeps b s) {a0 a1 a2 a3 a4 a5 a6 a7} : Keeps b (State.report s a0 a1 a2 a3 a4 a5 a6 a7) := by
  unfold State.report
  repeat' first
    | with_reducible assumption
    | with_reducible apply State.note_keeps
    | with_reducible rfl

theorem State.fire_keeps {b s : State} (h : Keeps b s) {a0 a1 a2 a3} : Keeps b (State.fire s a0 a1 a2 a3) := by
  unfold State.fire
  repeat' first
    | with_reducible assumption
    | with_reducible apply State.report_keeps
    | with_reducible apply State.act_keeps
    | with_reducible apply State.modField_keeps
    | with_reducible rfl
    | dsimp only

theorem rearmOp_keeps {b s : State} (h : Keeps b s) {a0} : Keeps b (rearmOp a0 s) := by
  unfold rearmOp
  repeat' first
    | with_reducible assumption
    | with_reducible apply State.axisOverspeed_keeps
    | with_reducible apply State.modField_keeps
    | with_reducible refine Keeps.foldl (fun _ _ _ => ?_) ?_
    | with_reducible rfl
    | split
    | dsimp only

theorem actionOp_keeps {b s : State} (h : Keeps b s) {a0 a1} : Keeps b (actionOp a0 a1 s) := by
  unfold actionOp
  split
  · refine Keeps.ite ?_ h
    exact State.report_keeps (State.act_keeps (State.modField_keeps h))
  · exact h

theorem State.applied_keeps {b s : State} (h : Keeps b s) {a0 a1} : Keeps b (State.applied s a0 a1) :=
  Keeps.upd h rfl

theorem State.applyWrite_keeps {b s : State} (h : Keeps b s) {a0} : Keeps b (State.applyWrite s a0) := by
  unfold State.applyWrite
  repeat' first
    | with_reducible assumption
    | with_reducible apply State.applied_keeps
    | with_reducible apply rearmOp_keeps
    | with_reducible apply State.fire_keeps
    | with_reducible apply State.fieldEvent_keeps
    | with_reducible apply State.modField_keeps
    | with_reducible apply State.draw_keeps
    | with_reducible rfl
    | split
    | dsimp only

theorem State.headRec_keeps {b s : State} (h : Keeps b s) {a0} {f : Rec → State → State} (hf : ∀ m u, Keeps b u → Keeps b (f m u)) :
    Keeps b (State.headRec s a0 f) := by
  unfold State.headRec
  split
  · split
    · exact hf _ _ (State.modField_keeps h)
    · exact h
  · exact h

theorem schedEntryWriteOp_keeps {b s : State} (h : Keeps b s) : Keeps b (schedEntryWriteOp s) := by
  unfold schedEntryWriteOp
  repeat' first
    | with_reducible assumption
    | with_reducible apply State.headRec_keeps
    | with_reducible apply State.applyWrite_keeps
    | with_reducible rfl
    | intro _
    | dsimp only

theorem schedEntryDisableOp_keeps {b s : State} (h : Keeps b s) : Keeps b (schedEntryDisableOp s) := by
  unfold schedEntryDisableOp
  repeat' first
    | with_reducible assumption
    | with_reducible apply State.headRec_keeps
    | with_reducible apply State.applied_keeps
    | with_reducible apply State.modField_keeps
    | with_reducible rfl
    | intro _
    | dsimp only

theorem schedPresetOp_keeps {b s : State} (h : Keeps b s) : Keeps b (schedPresetOp s) := by
  unfold schedPresetOp
  repeat' first
    | with_reducible assumption
    | with_reducible apply State.headRec_keeps
    | with_reducible apply State.setAxis_keeps
    | with_reducible rfl
    | split
    | intro _
    | dsimp only

theorem schedHomeOp_keeps {b s : State} (h : Keeps b s) : Keeps b (schedHomeOp s) := by
  unfold schedHomeOp
  repeat' first
    | with_reducible assumption
    | with_reducible apply State.headRec_keeps
    | with_reducible apply State.setAxis_keeps
    | with_reducible rfl
    | split
    | intro _
    | dsimp only

/-! ### FieldLink -/

theorem State.applyConfig_keeps {b s : State} (h : Keeps b s) {a0 a1 a2 a3} : Keeps b (State.applyConfig s a0 a1 a2 a3) := by
  unfold State.applyConfig
  repeat' first
    | with_reducible assumption
    | with_reducible apply State.openWire_keeps
    | with_reducible apply State.refreshOuts_keeps
    | with_reducible apply State.axisLost_keeps
    | with_reducible refine Keeps.foldl (fun _ _ _ => ?_) ?_
    | with_reducible rfl
    | split
    | with_reducible refine Keeps.upd ?_ ?_
    | dsimp only

theorem State.cfgRecord_keeps {b s : State} (h : Keeps b s) {a0} : Keeps b (State.cfgRecord s a0) := by
  unfold State.cfgRecord
  repeat' first
    | with_reducible assumption
    | with_reducible apply State.applyConfig_keeps
    | with_reducible apply State.modField_keeps
    | with_reducible rfl
    | split
    | dsimp only

theorem State.hostAccepted_keeps {b s : State} (h : Keeps b s) {a0} : Keeps b (State.hostAccepted s a0) := by
  unfold State.hostAccepted
  repeat' first
    | with_reducible assumption
    | with_reducible apply State.refreshOuts_keeps
    | with_reducible rfl
    | split
    | with_reducible refine Keeps.upd ?_ ?_
    | dsimp only

theorem hostFrameAcceptOp_keeps {b s : State} (h : Keeps b s) {a0} : Keeps b (hostFrameAcceptOp a0 s) := by
  unfold hostFrameAcceptOp
  repeat' first
    | with_reducible assumption
    | with_reducible apply State.hostAccepted_keeps
    | with_reducible apply State.modField_keeps
    | with_reducible rfl
    | split
    | with_reducible refine Keeps.upd ?_ ?_
    | dsimp only

theorem State.hostMsg_keeps {b s : State} (h : Keeps b s) {t} {k : HostMsg → State → State} (hk : ∀ m u, Keeps b u → Keeps b (k m u)) :
    Keeps b (State.hostMsg s t k) := by
  unfold State.hostMsg
  split
  · exact hk _ _ (State.modField_keeps h)
  · exact h

theorem heartbeatOp_keeps {b s : State} (h : Keeps b s) : Keeps b (heartbeatOp s) := by
  unfold heartbeatOp
  repeat' first
    | with_reducible assumption
    | with_reducible apply State.hostMsg_keeps
    | with_reducible apply State.refreshOuts_keeps
    | with_reducible apply State.modField_keeps
    | with_reducible apply State.draw_keeps
    | with_reducible rfl
    | split
    | intro _
    | dsimp only

theorem State.restart_keeps {b s : State} (h : Keeps b s) {a0} : Keeps b (State.restart s a0) := by
  unfold State.restart
  repeat' first
    | with_reducible assumption
    | with_reducible refine Keeps.foldl (fun _ _ _ => ?_) ?_
    | with_reducible rfl
    | split
    | with_reducible refine Keeps.upd ?_ ?_
    | dsimp only

theorem State.fieldRequest_keeps {b s : State} (h : Keeps b s) {a0 a1 a2 a3} :
    Keeps b (State.fieldRequest s a0 a1 a2 a3) := by
  unfold State.fieldRequest
  repeat' first
    | with_reducible assumption
    | with_reducible apply State.modField_keeps
    | with_reducible apply State.restart_keeps
    | with_reducible refine Keeps.foldl (fun _ _ _ => ?_) ?_
    | split

theorem State.fieldOutputs_keeps {b s : State} (h : Keeps b s) {a0 a1} : Keeps b (State.fieldOutputs s a0 a1) := by
  unfold State.fieldOutputs
  repeat' first
    | with_reducible assumption
    | with_reducible apply State.modField_keeps
    | with_reducible refine Keeps.foldl (fun _ _ _ => ?_) ?_
    | with_reducible rfl
    | split
    | dsimp only

theorem outImageOp_keeps {b s : State} (h : Keeps b s) : Keeps b (outImageOp s) := by
  unfold outImageOp
  repeat' first
    | with_reducible assumption
    | with_reducible apply State.fieldOutputs_keeps
    | with_reducible apply State.fieldRequest_keeps
    | with_reducible apply State.hostMsg_keeps
    | with_reducible apply State.refreshOuts_keeps
    | with_reducible rfl
    | split
    | intro _
    | dsimp only

theorem cfgWriteOp_keeps {b s : State} (h : Keeps b s) : Keeps b (cfgWriteOp s) := by
  unfold cfgWriteOp
  repeat' first
    | with_reducible assumption
    | with_reducible apply State.hostMsg_keeps
    | with_reducible apply State.cfgRecord_keeps
    | with_reducible refine Keeps.foldl (fun _ _ _ => ?_) ?_
    | with_reducible rfl
    | split
    | intro _
    | dsimp only

theorem schedWriteOp_keeps {b s : State} (h : Keeps b s) : Keeps b (schedWriteOp s) := by
  unfold schedWriteOp
  repeat' first
    | with_reducible assumption
    | with_reducible apply State.hostMsg_keeps
    | with_reducible apply State.modField_keeps
    | with_reducible rfl
    | split
    | intro _
    | dsimp only

theorem busTxOp_keeps {b s : State} (h : Keeps b s) : Keeps b (busTxOp s) := by
  unfold busTxOp
  repeat' first
    | with_reducible assumption
    | with_reducible apply State.hostMsg_keeps
    | with_reducible apply State.busRecord_keeps
    | with_reducible refine Keeps.foldl (fun _ _ _ => ?_) ?_
    | with_reducible rfl
    | split
    | intro _
    | dsimp only

theorem safeStateTimeoutOp_keeps {b s : State} (h : Keeps b s) : Keeps b (safeStateTimeoutOp s) := by
  unfold safeStateTimeoutOp
  repeat' first
    | with_reducible assumption
    | with_reducible apply State.refreshOuts_keeps
    | with_reducible rfl
    | split
    | with_reducible refine Keeps.upd ?_ ?_
    | dsimp only

theorem fieldDieResetOp_keeps {b s : State} (h : Keeps b s) {a0} : Keeps b (fieldDieResetOp a0 s) := by
  unfold fieldDieResetOp
  repeat' first
    | with_reducible assumption
    | with_reducible rfl
    | split
    | with_reducible refine Keeps.upd ?_ ?_
    | dsimp only

theorem fieldCycleStartOp_keeps {b s : State} (h : Keeps b s) {a0 a1 a2} : Keeps b (fieldCycleStartOp a0 a1 a2 s) := by
  unfold fieldCycleStartOp
  repeat' first
    | with_reducible assumption
    | with_reducible rfl
    | split
    | with_reducible refine Keeps.upd ?_ ?_
    | dsimp only

end Sys2Proof.Machine
end

