-- ==== Sys2Proof/Laws/KeepsHost.lean ====
section
/-! SUPPORT. The operations of the host side of the field die, the rack bus, the key store, the Badger and Sett keep what Laws/Keeps.lean names. -/

namespace Sys2Proof.Machine

/-! ### Sets -/

theorem State.setMirrorObj_keeps {b s : State} (h : Keeps b s) {a0 a1 a2} : Keeps b (State.setMirrorObj s a0 a1 a2) :=
  Keeps.upd h rfl

theorem State.consume_keeps {b s : State} (h : Keeps b s) {a0} : Keeps b (State.consume s a0) := by
  unfold State.consume
  repeat' first
    | with_reducible assumption
    | with_reducible apply State.setMirrorObj_keeps
    | with_reducible refine Keeps.foldl (fun _ _ _ => ?_) ?_
    | with_reducible rfl
    | split
    | dsimp only

theorem ftSetOp_keeps {b s : State} (h : Keeps b s) {a0} : Keeps b (ftSetOp a0 s) := by
  unfold ftSetOp
  repeat' first
    | with_reducible assumption
    | with_reducible apply State.setMport_keeps
    | with_reducible rfl
    | split
    | with_reducible refine Keeps.upd ?_ ?_
    | dsimp only

theorem ftClrOp_keeps {b s : State} (h : Keeps b s) {a0} : Keeps b (ftClrOp a0 s) :=
  Keeps.upd h rfl

theorem ftClrallOp_keeps {b s : State} (h : Keeps b s) : Keeps b (ftClrallOp s) :=
  Keeps.upd h rfl

theorem ftRdOp_keeps {b s : State} (h : Keeps b s) {a0} : Keeps b (ftRdOp a0 s) := by
  unfold ftRdOp
  repeat' first
    | with_reducible assumption
    | with_reducible apply State.setMport_keeps
    | with_reducible rfl
    | split
    | dsimp only

theorem mrRdOp_keeps {b s : State} (h : Keeps b s) {a0} : Keeps b (mrRdOp a0 s) := by
  unfold mrRdOp
  repeat' first
    | with_reducible assumption
    | with_reducible apply State.setSport_keeps
    | with_reducible rfl
    | dsimp only

theorem mrDiReadOp_keeps {b s : State} (h : Keeps b s) {a0} : Keeps b (mrDiReadOp a0 s) := by
  unfold mrDiReadOp
  repeat' first
    | with_reducible assumption
    | with_reducible apply State.setMport_keeps
    | with_reducible rfl

/-! ### HostField -/

theorem State.formRequest_keeps {b s : State} (h : Keeps b s) : Keeps b (State.formRequest s) := by
  unfold State.formRequest
  repeat' first
    | with_reducible assumption
    | with_reducible rfl
    | split
    | with_reducible refine Keeps.upd ?_ ?_

theorem State.houseRecords_keeps {b s : State} (h : Keeps b s) : Keeps b (State.houseRecords s) := by
  unfold State.houseRecords
  repeat' first
    | with_reducible assumption
    | with_reducible refine Keeps.foldl (fun _ _ _ => ?_) ?_
    | with_reducible rfl
    | with_reducible refine Keeps.upd ?_ ?_
    | dsimp only

theorem State.sentRecord_keeps {b s : State} (h : Keeps b s) {a0} : Keeps b (State.sentRecord s a0) := by
  unfold State.sentRecord
  repeat' first
    | with_reducible assumption
    | with_reducible rfl
    | split
    | with_reducible refine Keeps.upd ?_ ?_
    | dsimp only

theorem State.stationRuns_keeps {b s : State} (h : Keeps b s) : Keeps b (State.stationRuns s) := by
  unfold State.stationRuns
  repeat' first
    | with_reducible assumption
    | with_reducible refine Keeps.foldl (fun _ _ _ => ?_) ?_
    | with_reducible rfl
    | split
    | with_reducible refine Keeps.upd ?_ ?_
    | dsimp only

theorem barrierCycleStartOp_keeps {b s : State} (h : Keeps b s) : Keeps b (barrierCycleStartOp s) := by
  unfold barrierCycleStartOp
  repeat' first
    | with_reducible assumption
    | with_reducible apply State.stationRuns_keeps
    | with_reducible apply State.sentRecord_keeps
    | with_reducible apply State.houseRecords_keeps
    | with_reducible apply State.formRequest_keeps
    | with_reducible apply State.draw_keeps
    | with_reducible refine Keeps.foldl (fun _ _ _ => ?_) ?_
    | with_reducible rfl
    | split
    | with_reducible refine Keeps.upd ?_ ?_
    | dsimp only

theorem State.setFlost_keeps {b s : State} (h : Keeps b s) {a0} : Keeps b (State.setFlost s a0) := by
  unfold State.setFlost
  repeat' first
    | with_reducible assumption
    | with_reducible apply State.arrive_keeps
    | with_reducible rfl
    | split
    | with_reducible refine Keeps.upd ?_ ?_

theorem flostOp_keeps {b s : State} (h : Keeps b s) : Keeps b (flostOp s) := by
  unfold flostOp
  repeat' first
    | with_reducible assumption
    | with_reducible apply State.setFlost_keeps
    | with_reducible rfl

theorem fieldFrameAcceptOp_keeps {b s : State} (h : Keeps b s) {a0} : Keeps b (fieldFrameAcceptOp a0 s) := by
  unfold fieldFrameAcceptOp
  repeat' first
    | with_reducible assumption
    | with_reducible apply State.setFlost_keeps
    | with_reducible apply State.modField_keeps
    | with_reducible apply State.arrive_keeps
    | with_reducible rfl
    | split
    | with_reducible refine Keeps.upd ?_ ?_
    | dsimp only

theorem State.fieldMsg_keeps {b s : State} (h : Keeps b s) {t} {k : FieldMsg → State → State} (hk : ∀ m u, Keeps b u → Keeps b (k m u)) :
    Keeps b (State.fieldMsg s t k) := by
  unfold State.fieldMsg
  split
  · exact hk _ _ (Keeps.upd h rfl)
  · exact h

theorem State.fieldCameBack_keeps {b s : State} (h : Keeps b s) : Keeps b (State.fieldCameBack s) :=
  Keeps.upd h rfl

theorem State.busWaits_keeps {b s : State} (h : Keeps b s) {a0 a1} : Keeps b (State.busWaits s a0 a1) := by
  unfold State.busWaits
  repeat' first
    | with_reducible assumption
    | with_reducible rfl
    | split
    | with_reducible refine Keeps.upd ?_ ?_
    | dsimp only

theorem State.discrepancy_keeps {b s : State} (h : Keeps b s) {a0} : Keeps b (State.discrepancy s a0) := by
  unfold State.discrepancy
  repeat' first
    | with_reducible assumption
    | with_reducible apply State.event_keeps
    | with_reducible rfl
    | split
    | with_reducible refine Keeps.upd ?_ ?_
    | dsimp only

theorem State.compareInputs_keeps {b s : State} (h : Keeps b s) : Keeps b (State.compareInputs s) := by
  unfold State.compareInputs
  repeat' first
    | with_reducible assumption
    | with_reducible apply State.discrepancy_keeps
    | with_reducible refine Keeps.foldl (fun _ _ _ => ?_) ?_
    | with_reducible rfl
    | split
    | dsimp only

theorem inImageOp_keeps {b s : State} (h : Keeps b s) : Keeps b (inImageOp s) := by
  unfold inImageOp
  repeat' first
    | with_reducible assumption
    | with_reducible apply State.compareInputs_keeps
    | with_reducible apply State.fieldCameBack_keeps
    | with_reducible apply State.fieldMsg_keeps
    | with_reducible apply State.arrive_keeps
    | with_reducible refine Keeps.foldl (fun _ _ _ => ?_) ?_
    | with_reducible rfl
    | split
    | intro _
    | with_reducible refine Keeps.upd ?_ ?_
    | dsimp only

theorem supplyOp_keeps {b s : State} (h : Keeps b s) : Keeps b (supplyOp s) := by
  unfold supplyOp
  repeat' first
    | with_reducible assumption
    | with_reducible apply State.fieldMsg_keeps
    | with_reducible apply State.arrive_keeps
    | with_reducible apply State.event_keeps
    | with_reducible rfl
    | split
    | intro _
    | with_reducible refine Keeps.upd ?_ ?_
    | dsimp only

theorem State.fieldEvents_keeps {b s : State} (h : Keeps b s) {a0} : Keeps b (State.fieldEvents s a0) := by
  unfold State.fieldEvents
  repeat' first
    | with_reducible assumption
    | with_reducible apply State.event_keeps
    | with_reducible refine Keeps.foldl (fun _ _ _ => ?_) ?_
    | with_reducible rfl
    | dsimp only

theorem axisStateOp_keeps {b s : State} (h : Keeps b s) : Keeps b (axisStateOp s) := by
  unfold axisStateOp
  repeat' first
    | with_reducible assumption
    | with_reducible apply State.fieldEvents_keeps
    | with_reducible apply State.fieldMsg_keeps
    | with_reducible rfl
    | split
    | intro _
    | with_reducible refine Keeps.upd ?_ ?_
    | dsimp only

theorem State.diagEntry_keeps {b s : State} (h : Keeps b s) {a0} : Keeps b (State.diagEntry s a0) := by
  unfold State.diagEntry
  repeat' first
    | with_reducible assumption
    | with_reducible apply State.event_keeps
    | with_reducible rfl
    | split
    | with_reducible refine Keeps.upd ?_ ?_
    | dsimp only

theorem diagOp_keeps {b s : State} (h : Keeps b s) : Keeps b (diagOp s) := by
  unfold diagOp
  repeat' first
    | with_reducible assumption
    | with_reducible apply State.diagEntry_keeps
    | with_reducible apply State.fieldEvents_keeps
    | with_reducible apply State.fieldMsg_keeps
    | with_reducible apply State.arrive_keeps
    | with_reducible refine Keeps.foldl (fun _ _ _ => ?_) ?_
    | with_reducible rfl
    | split
    | intro _
    | with_reducible refine Keeps.upd ?_ ?_
    | dsimp only

theorem State.firedNote_keeps {b s : State} (h : Keeps b s) {a0} : Keeps b (State.firedNote s a0) := by
  unfold State.firedNote
  repeat' first
    | with_reducible assumption
    | with_reducible apply State.busWaits_keeps
    | with_reducible apply State.triggerArg_keeps
    | with_reducible apply State.arrive_keeps
    | with_reducible refine Keeps.foldl (fun _ _ _ => ?_) ?_
    | with_reducible rfl
    | split
    | with_reducible refine Keeps.upd ?_ ?_
    | dsimp only

theorem schedFiredOp_keeps {b s : State} (h : Keeps b s) : Keeps b (schedFiredOp s) := by
  unfold schedFiredOp
  repeat' first
    | with_reducible assumption
    | with_reducible apply State.firedNote_keeps
    | with_reducible apply State.fieldMsg_keeps
    | with_reducible refine Keeps.foldl (fun _ _ _ => ?_) ?_
    | with_reducible rfl
    | split
    | intro _
    | with_reducible refine Keeps.upd ?_ ?_
    | dsimp only

theorem State.busNoted_keeps {b s : State} (h : Keeps b s) {a0} : Keeps b (State.busNoted s a0) := by
  unfold State.busNoted
  repeat' first
    | with_reducible assumption
    | with_reducible apply State.setMirrorObj_keeps
    | with_reducible apply State.arrive_keeps
    | with_reducible apply State.event_keeps
    | with_reducible refine Keeps.foldl (fun _ _ _ => ?_) ?_
    | with_reducible rfl
    | split
    | with_reducible refine Keeps.upd ?_ ?_
    | dsimp only

theorem busRxNoteOp_keeps {b s : State} (h : Keeps b s) : Keeps b (busRxNoteOp s) := by
  unfold busRxNoteOp
  repeat' first
    | with_reducible assumption
    | with_reducible apply State.busNoted_keeps
    | with_reducible apply State.fieldMsg_keeps
    | with_reducible apply State.arrive_keeps
    | with_reducible refine Keeps.foldl (fun _ _ _ => ?_) ?_
    | with_reducible rfl
    | split
    | intro _
    | dsimp only

theorem State.stageMasks_keeps {b s : State} (h : Keeps b s) {a0 a1 a2} : Keeps b (State.stageMasks s a0 a1 a2) := by
  unfold State.stageMasks
  repeat' first
    | with_reducible assumption
    | with_reducible apply State.setMport_keeps
    | with_reducible rfl
    | split
    | with_reducible refine Keeps.upd ?_ ?_
    | dsimp only

theorem fdRstOp_keeps {b s : State} (h : Keeps b s) {a0 a1} : Keeps b (fdRstOp a0 a1 s) := by
  unfold fdRstOp
  repeat' first
    | with_reducible assumption
    | with_reducible apply State.stageMasks_keeps
    | with_reducible rfl
    | split
    | dsimp only

theorem fdCrstOp_keeps {b s : State} (h : Keeps b s) {a0 a1} : Keeps b (fdCrstOp a0 a1 s) := by
  unfold fdCrstOp
  repeat' first
    | with_reducible assumption
    | with_reducible apply State.stageMasks_keeps
    | with_reducible rfl
    | split
    | dsimp only

theorem fdDclrOp_keeps {b s : State} (h : Keeps b s) {a0 a1} : Keeps b (fdDclrOp a0 a1 s) := by
  unfold fdDclrOp
  repeat' first
    | with_reducible assumption
    | with_reducible apply State.stageMasks_keeps
    | with_reducible rfl
    | split
    | dsimp only

theorem fdDrdOp_keeps {b s : State} (h : Keeps b s) {a0} : Keeps b (fdDrdOp a0 s) := by
  unfold fdDrdOp
  repeat' first
    | with_reducible assumption
    | with_reducible apply State.setSport_keeps
    | with_reducible rfl
    | split
    | dsimp only

theorem State.stageRec_keeps {b s : State} (h : Keeps b s) {a0 a1 a2} : Keeps b (State.stageRec s a0 a1 a2) := by
  unfold State.stageRec
  repeat' first
    | with_reducible assumption
    | with_reducible apply State.setMport_keeps
    | with_reducible rfl
    | split
    | with_reducible refine Keeps.upd ?_ ?_
    | dsimp only

theorem ptWrOp_keeps {b s : State} (h : Keeps b s) {a0} : Keeps b (ptWrOp a0 s) := by
  unfold ptWrOp
  repeat' first
    | with_reducible assumption
    | with_reducible apply State.stageRec_keeps
    | with_reducible rfl
    | split
    | dsimp only

theorem ptDisOp_keeps {b s : State} (h : Keeps b s) {a0} : Keeps b (ptDisOp a0 s) := by
  unfold ptDisOp
  repeat' first
    | with_reducible assumption
    | with_reducible apply State.stageRec_keeps
    | with_reducible rfl

theorem ptPresetOp_keeps {b s : State} (h : Keeps b s) {a0} : Keeps b (ptPresetOp a0 s) := by
  unfold ptPresetOp
  repeat' first
    | with_reducible assumption
    | with_reducible apply State.stageRec_keeps
    | with_reducible rfl

theorem ptHomeOp_keeps {b s : State} (h : Keeps b s) {a0} : Keeps b (ptHomeOp a0 s) := by
  unfold ptHomeOp
  repeat' first
    | with_reducible assumption
    | with_reducible apply State.stageRec_keeps
    | with_reducible rfl
    | split

theorem ptRdOp_keeps {b s : State} (h : Keeps b s) {a0} : Keeps b (ptRdOp a0 s) := by
  unfold ptRdOp
  repeat' first
    | with_reducible assumption
    | with_reducible apply State.setMport_keeps
    | with_reducible rfl
    | split
    | dsimp only

theorem fbAckOp_keeps {b s : State} (h : Keeps b s) {a0 a1} : Keeps b (fbAckOp a0 a1 s) := by
  unfold fbAckOp
  repeat' first
    | with_reducible assumption
    | with_reducible apply State.setMirrorObj_keeps
    | with_reducible rfl
    | split
    | dsimp only

theorem State.stageBus_keeps {b s : State} (h : Keeps b s) {a0 a1} : Keeps b (State.stageBus s a0 a1) := by
  unfold State.stageBus
  repeat' first
    | with_reducible assumption
    | with_reducible apply State.setMport_keeps
    | with_reducible rfl
    | with_reducible refine Keeps.upd ?_ ?_
    | dsimp only

theorem State.busRequest_keeps {b s : State} (h : Keeps b s) {a0 a1} : Keeps b (State.busRequest s a0 a1) := by
  unfold State.busRequest
  repeat' first
    | with_reducible assumption
    | with_reducible apply State.busWaits_keeps
    | with_reducible rfl
    | with_reducible refine Keeps.upd ?_ ?_

theorem State.stationOut_keeps {b s : State} (h : Keeps b s) {a0 a1 a2} : Keeps b (State.stationOut s a0 a1 a2) :=
  Keeps.upd h rfl

theorem fbTxreqOp_keeps {b s : State} (h : Keeps b s) {a0} : Keeps b (fbTxreqOp a0 s) := by
  unfold fbTxreqOp
  repeat' first
    | with_reducible assumption
    | with_reducible apply State.busRequest_keeps
    | with_reducible apply State.stageBus_keeps
    | with_reducible apply State.setMport_keeps
    | with_reducible rfl
    | split
    | dsimp only

theorem fbSputOp_keeps {b s : State} (h : Keeps b s) {a0} : Keeps b (fbSputOp a0 s) := by
  unfold fbSputOp
  repeat' first
    | with_reducible assumption
    | with_reducible apply State.stationOut_keeps
    | with_reducible apply State.stageBus_keeps
    | with_reducible apply State.setMport_keeps
    | with_reducible rfl
    | split
    | dsimp only

theorem fbCmdOp_keeps {b s : State} (h : Keeps b s) {a0} : Keeps b (fbCmdOp a0 s) := by
  unfold fbCmdOp
  repeat' first
    | with_reducible assumption
    | with_reducible rfl
    | split
    | with_reducible refine Keeps.upd ?_ ?_
    | dsimp only

theorem State.releaseBus_keeps {b s : State} (h : Keeps b s) {a0} : Keeps b (State.releaseBus s a0) := by
  unfold State.releaseBus
  repeat' first
    | with_reducible assumption
    | with_reducible apply State.stationOut_keeps
    | with_reducible apply State.busRequest_keeps
    | with_reducible rfl
    | split

/-! ### Rack -/

theorem State.modBoard_keeps {b s : State} (h : Keeps b s) {a0 a1} : Keeps b (State.modBoard s a0 a1) :=
  Keeps.upd h rfl

theorem State.setBoard_keeps {b s : State} (h : Keeps b s) {a0 a1} : Keeps b (State.setBoard s a0 a1) := by
  unfold State.setBoard
  repeat' first
    | with_reducible assumption
    | with_reducible apply State.modBoard_keeps
    | with_reducible apply State.refreshRlost_keeps
    | with_reducible apply State.event_keeps
    | with_reducible rfl
    | split
    | dsimp only

theorem State.probeAll_keeps {b s : State} (h : Keeps b s) {a0} : Keeps b (State.probeAll s a0) := by
  unfold State.probeAll
  repeat' first
    | with_reducible assumption
    | with_reducible apply State.modBoard_keeps
    | with_reducible refine Keeps.foldl (fun _ _ _ => ?_) ?_
    | with_reducible rfl
    | split
    | dsimp only

theorem State.becomeMaster_keeps {b s : State} (h : Keeps b s) {a0} : Keeps b (State.becomeMaster s a0) := by
  unfold State.becomeMaster
  repeat' first
    | with_reducible assumption
    | with_reducible apply State.probeAll_keeps
    | with_reducible apply State.setBoard_keeps
    | with_reducible apply State.refreshRlost_keeps
    | with_reducible refine Keeps.foldl (fun _ _ _ => ?_) ?_
    | with_reducible rfl
    | split
    | dsimp only

theorem State.applyRack_keeps {b s : State} (h : Keeps b s) {a0} : Keeps b (State.applyRack s a0) := by
  unfold State.applyRack
  repeat' first
    | with_reducible assumption
    | with_reducible apply State.probeAll_keeps
    | with_reducible apply State.refreshRlost_keeps
    | with_reducible rfl
    | split
    | with_reducible refine Keeps.upd ?_ ?_
    | dsimp only

theorem State.mailboxCycle_keeps {b s : State} (h : Keeps b s) {a0} : Keeps b (State.mailboxCycle s a0) := by
  unfold State.mailboxCycle
  repeat' first
    | with_reducible assumption
    | with_reducible rfl
    | split
    | with_reducible refine Keeps.upd ?_ ?_
    | dsimp only

theorem rackCycleOp_keeps {b s : State} (h : Keeps b s) : Keeps b (rackCycleOp s) := by
  unfold rackCycleOp
  repeat' first
    | with_reducible assumption
    | with_reducible rfl
    | split
    | with_reducible refine Keeps.upd ?_ ?_
    | dsimp only

theorem State.onBus_keeps {b s : State} (h : Keeps b s) {a0} : Keeps b (State.onBus s a0) :=
  Keeps.upd h rfl

theorem State.boardFails_keeps {b s : State} (h : Keeps b s) {a0} : Keeps b (State.boardFails s a0) := by
  unfold State.boardFails
  repeat' first
    | with_reducible assumption
    | with_reducible apply State.setBoard_keeps
    | with_reducible apply State.modBoard_keeps
    | with_reducible rfl
    | split
    | with_reducible refine Keeps.upd ?_ ?_
    | dsimp only

theorem State.boardInput_keeps {b s : State} (h : Keeps b s) {a0 a1} : Keeps b (State.boardInput s a0 a1) := by
  unfold State.boardInput
  repeat' first
    | with_reducible assumption
    | with_reducible apply State.setBoard_keeps
    | with_reducible apply State.modBoard_keeps
    | with_reducible rfl
    | with_reducible refine Keeps.upd ?_ ?_
    | dsimp only

theorem State.boardCycle_keeps {b s : State} (h : Keeps b s) {a0 a1} : Keeps b (State.boardCycle s a0 a1) := by
  unfold State.boardCycle
  repeat' first
    | with_reducible assumption
    | with_reducible apply State.boardInput_keeps
    | with_reducible apply State.boardFails_keeps
    | with_reducible apply State.onBus_keeps
    | with_reducible apply State.mailboxCycle_keeps
    | with_reducible rfl
    | split
    | dsimp only

theorem State.boardStatus_keeps {b s : State} (h : Keeps b s) {a0} : Keeps b (State.boardStatus s a0) :=
  Keeps.upd h rfl

theorem rackInputPhaseEndOp_keeps {b s : State} (h : Keeps b s) {a0 a1} : Keeps b (rackInputPhaseEndOp a0 a1 s) := by
  unfold rackInputPhaseEndOp
  repeat' first
    | with_reducible assumption
    | with_reducible apply State.boardStatus_keeps
    | with_reducible apply State.boardCycle_keeps
    | with_reducible apply State.arrive_keeps
    | with_reducible refine Keeps.foldl (fun _ _ _ => ?_) ?_
    | with_reducible rfl
    | split
    | with_reducible refine Keeps.upd ?_ ?_
    | dsimp only

theorem identityProbeOp_keeps {b s : State} (h : Keeps b s) {a0 a1} : Keeps b (identityProbeOp a0 a1 s) := by
  unfold identityProbeOp
  repeat' first
    | with_reducible assumption
    | with_reducible apply State.onBus_keeps
    | with_reducible apply State.setBoard_keeps
    | with_reducible apply State.modBoard_keeps
    | with_reducible rfl
    | split
    | dsimp only

theorem rirqArrivalOp_keeps {b s : State} (h : Keeps b s) {a0 a1} : Keeps b (rirqArrivalOp a0 a1 s) := by
  unfold rirqArrivalOp
  repeat' first
    | with_reducible assumption
    | with_reducible apply State.arrive_keeps
    | with_reducible rfl
    | split
    | with_reducible refine Keeps.upd ?_ ?_
    | dsimp only

theorem rackResetOp_keeps {b s : State} (h : Keeps b s) : Keeps b (rackResetOp s) := by
  unfold rackResetOp
  repeat' first
    | with_reducible assumption
    | with_reducible apply State.assertReset_keeps
    | with_reducible rfl
    | split
    | with_reducible refine Keeps.upd ?_ ?_
    | dsimp only

theorem rescanOp_keeps {b s : State} (h : Keeps b s) : Keeps b (rescanOp s) := by
  unfold rescanOp
  repeat' first
    | with_reducible assumption
    | with_reducible apply State.probeAll_keeps
    | with_reducible rfl
    | split

theorem rresetOp_keeps {b s : State} (h : Keeps b s) {a0} : Keeps b (rresetOp a0 s) := by
  unfold rresetOp
  repeat' first
    | with_reducible assumption
    | with_reducible rfl
    | split
    | with_reducible refine Keeps.upd ?_ ?_

theorem rresetEndOp_keeps {b s : State} (h : Keeps b s) : Keeps b (rresetEndOp s) := by
  unfold rresetEndOp
  repeat' first
    | with_reducible assumption
    | with_reducible rfl
    | split
    | with_reducible refine Keeps.upd ?_ ?_

theorem rkCmdOp_keeps {b s : State} (h : Keeps b s) {a0} : Keeps b (rkCmdOp a0 s) := by
  unfold rkCmdOp
  repeat' first
    | with_reducible assumption
    | with_reducible apply rresetOp_keeps
    | with_reducible apply rescanOp_keeps
    | with_reducible rfl
    | split

/-! ### KeyStore -/

theorem State.setSlot_keeps {b s : State} (h : Keeps b s) {a0 a1} : Keeps b (State.setSlot s a0 a1) := by
  unfold State.setSlot
  repeat' first
    | with_reducible assumption
    | with_reducible apply State.refreshRole_keeps
    | with_reducible rfl
    | split
    | with_reducible refine Keeps.upd ?_ ?_
    | dsimp only

theorem State.destroySlots_keeps {b s : State} (h : Keeps b s) {a0} : Keeps b (State.destroySlots s a0) := by
  unfold State.destroySlots
  repeat' first
    | with_reducible assumption
    | with_reducible apply State.setSlot_keeps
    | with_reducible refine Keeps.foldl (fun _ _ _ => ?_) ?_
    | with_reducible rfl
    | split
    | with_reducible refine Keeps.upd ?_ ?_
    | dsimp only

theorem State.zeroFail_keeps {b s : State} (h : Keeps b s) {a0} : Keeps b (State.zeroFail s a0) := by
  unfold State.zeroFail
  repeat' first
    | with_reducible assumption
    | with_reducible apply State.moduleHalt_keeps
    | with_reducible apply State.event_keeps
    | with_reducible rfl
    | with_reducible refine Keeps.upd ?_ ?_

theorem State.ksDone_keeps {b s : State} (h : Keeps b s) {a0 a1 a2} : Keeps b (State.ksDone s a0 a1 a2) := by
  unfold State.ksDone
  repeat' first
    | with_reducible assumption
    | with_reducible rfl
    | split
    | with_reducible refine Keeps.upd ?_ ?_
    | dsimp only

theorem State.ksPerform_keeps {b s : State} (h : Keeps b s) {a0 a1} : Keeps b (State.ksPerform s a0 a1).2.2 := by
  unfold State.ksPerform
  repeat' first
    | with_reducible assumption
    | with_reducible apply State.setSlot_keeps
    | with_reducible apply State.setMport_keeps
    | with_reducible apply State.draw_keeps
    | with_reducible apply State.destroySlots_keeps
    | with_reducible refine Keeps.foldl (fun _ _ _ => ?_) ?_
    | with_reducible rfl
    | split
    | dsimp only

theorem State.ksPop_keeps {b s : State} (h : Keeps b s) : Keeps b (State.ksPop s) :=
  Keeps.upd h rfl

theorem ksOpCompleteOp_keeps {b s : State} (h : Keeps b s) {a0} : Keeps b (ksOpCompleteOp a0 s) := by
  unfold ksOpCompleteOp
  repeat' first
    | with_reducible assumption
    | with_reducible apply State.ksPop_keeps
    | with_reducible apply State.ksPerform_keeps
    | with_reducible apply State.ksDone_keeps
    | with_reducible apply State.zeroFail_keeps
    | with_reducible apply State.violation_keeps
    | with_reducible apply State.setMport_keeps
    | with_reducible rfl
    | split
    | dsimp only

theorem ksStartOp_keeps {b s : State} (h : Keeps b s) {a0 a1} : Keeps b (ksStartOp a0 a1 s) := by
  unfold ksStartOp
  repeat' first
    | with_reducible assumption
    | with_reducible apply State.guarded_keeps
    | with_reducible rfl
    | split
    | intro _
    | with_reducible refine Keeps.upd ?_ ?_
    | dsimp only

theorem State.ksNext_keeps {b s : State} (h : Keeps b s) {a0} : Keeps b (State.ksNext s a0) := by
  unfold State.ksNext
  repeat' first
    | with_reducible assumption
    | with_reducible apply State.setMport_keeps
    | with_reducible rfl

theorem ksBwOp_keeps {b s : State} (h : Keeps b s) {a0 a1} : Keeps b (ksBwOp a0 a1 s) := by
  unfold ksBwOp
  repeat' first
    | with_reducible assumption
    | with_reducible apply State.ksNext_keeps
    | with_reducible apply State.guarded_keeps
    | with_reducible rfl
    | intro _
    | with_reducible refine Keeps.upd ?_ ?_
    | dsimp only

theorem ksBrOp_keeps {b s : State} (h : Keeps b s) {a0} : Keeps b (ksBrOp a0 s) := by
  unfold ksBrOp
  repeat' first
    | with_reducible assumption
    | with_reducible apply State.ksNext_keeps
    | with_reducible apply State.guarded_keeps
    | with_reducible apply State.setMport_keeps
    | with_reducible rfl
    | split
    | intro _
    | dsimp only

theorem State.stopAll_keeps {b s : State} (h : Keeps b s) : Keeps b (State.stopAll s) := by
  unfold State.stopAll
  repeat' first
    | with_reducible assumption
    | with_reducible apply State.leaveRun_keeps
    | with_reducible apply State.discardStaged_keeps
    | with_reducible apply State.modLp_keeps
    | with_reducible refine Keeps.foldl (fun _ _ _ => ?_) ?_
    | with_reducible rfl
    | split
    | dsimp only

theorem State.lcSteps_keeps {b s : State} (h : Keeps b s) {a0 a1} : Keeps b (State.lcSteps s a0 a1) := by
  unfold State.lcSteps
  repeat' first
    | with_reducible assumption
    | with_reducible apply State.zeroFail_keeps
    | with_reducible apply State.destroySlots_keeps
    | with_reducible apply State.event_keeps
    | with_reducible rfl
    | split
    | with_reducible refine Keeps.upd ?_ ?_
    | dsimp only

theorem lcTransitionOp_keeps {b s : State} (h : Keeps b s) {a0} : Keeps b (lcTransitionOp a0 s) := by
  unfold lcTransitionOp
  repeat' first
    | with_reducible assumption
    | with_reducible apply State.lcSteps_keeps
    | with_reducible apply State.finishOp_keeps
    | with_reducible rfl
    | split
    | dsimp only

/-! ### Watchdog -/

theorem State.bdReach_keeps {b s : State} (h : Keeps b s) {a0} : Keeps b (State.bdReach s a0) :=
  Keeps.upd h rfl

theorem State.bdInterval_keeps {b s : State} (h : Keeps b s) : Keeps b (State.bdInterval s) := by
  unfold State.bdInterval
  repeat' first
    | with_reducible assumption
    | with_reducible rfl
    | split
    | with_reducible refine Keeps.upd ?_ ?_
    | dsimp only

theorem bdStartOp_keeps {b s : State} (h : Keeps b s) {a0} : Keeps b (bdStartOp a0 s) := by
  unfold bdStartOp
  repeat' first
    | with_reducible assumption
    | with_reducible apply State.bdInterval_keeps
    | with_reducible apply State.guarded_keeps
    | with_reducible rfl
    | split
    | intro _
    | dsimp only

theorem State.bdFail_keeps {b s : State} (h : Keeps b s) {a0} : Keeps b (State.bdFail s a0) := by
  unfold State.bdFail
  repeat' first
    | with_reducible assumption
    | with_reducible apply State.arrive_keeps
    | with_reducible apply State.event_keeps
    | with_reducible rfl
    | split
    | with_reducible refine Keeps.upd ?_ ?_
    | dsimp only

theorem bdAnsOp_keeps {b s : State} (h : Keeps b s) {a0 a1} : Keeps b (bdAnsOp a0 a1 s) := by
  unfold bdAnsOp
  repeat' first
    | with_reducible assumption
    | with_reducible apply State.bdFail_keeps
    | with_reducible apply State.bdInterval_keeps
    | with_reducible apply State.guarded_keeps
    | with_reducible apply State.violation_keeps
    | with_reducible rfl
    | split
    | intro _
    | with_reducible refine Keeps.upd ?_ ?_
    | dsimp only

theorem bdChkOp_keeps {b s : State} (h : Keeps b s) {a0 a1} : Keeps b (bdChkOp a0 a1 s) := by
  unfold bdChkOp
  repeat' first
    | with_reducible assumption
    | with_reducible apply State.guarded_keeps
    | with_reducible apply State.violation_keeps
    | with_reducible rfl
    | split
    | intro _
    | with_reducible refine Keeps.upd ?_ ?_
    | dsimp only

theorem State.bdReopen_keeps {b s : State} (h : Keeps b s) : Keeps b (State.bdReopen s) := by
  unfold State.bdReopen
  repeat' first
    | with_reducible assumption
    | with_reducible rfl
    | split
    | with_reducible refine Keeps.upd ?_ ?_

theorem bdConfigWriteOp_keeps {b s : State} (h : Keeps b s) {a0 a1 a2} : Keeps b (bdConfigWriteOp a0 a1 a2 s) := by
  unfold bdConfigWriteOp
  repeat' first
    | with_reducible assumption
    | with_reducible apply State.bdReopen_keeps
    | with_reducible apply State.guarded_keeps
    | with_reducible rfl
    | split
    | intro _
    | with_reducible refine Keeps.upd ?_ ?_
    | dsimp only

theorem State.bdWriteSection_keeps {b s : State} (h : Keeps b s) {a0} : Keeps b (State.bdWriteSection s a0) := by
  unfold State.bdWriteSection
  repeat' first
    | with_reducible assumption
    | with_reducible apply State.bdReopen_keeps
    | with_reducible apply State.bdInterval_keeps
    | with_reducible rfl
    | split
    | with_reducible refine Keeps.upd ?_ ?_
    | dsimp only

theorem State.bdApply_keeps {b s : State} (h : Keeps b s) {a0} : Keeps b (State.bdApply s a0) := by
  unfold State.bdApply
  repeat' first
    | with_reducible assumption
    | with_reducible apply State.bdWriteSection_keeps
    | with_reducible rfl
    | split
    | with_reducible refine Keeps.upd ?_ ?_

theorem badgerOpenOp_keeps {b s : State} (h : Keeps b s) : Keeps b (badgerOpenOp s) := by
  unfold badgerOpenOp
  repeat' first
    | with_reducible assumption
    | with_reducible apply State.bdWriteSection_keeps
    | with_reducible apply State.bdReach_keeps
    | with_reducible apply State.arrive_keeps
    | with_reducible rfl
    | split
    | with_reducible refine Keeps.upd ?_ ?_
    | dsimp only

theorem badgerExpiryOp_keeps {b s : State} (h : Keeps b s) : Keeps b (badgerExpiryOp s) := by
  unfold badgerExpiryOp
  repeat' first
    | with_reducible assumption
    | with_reducible apply State.bdFail_keeps
    | with_reducible apply State.bdReach_keeps
    | with_reducible rfl
    | split

/-! ### SettDie -/

theorem State.modSett_keeps {b s : State} (h : Keeps b s) {a0} : Keeps b (State.modSett s a0) :=
  Keeps.upd h rfl

theorem singlePulseOp_keeps {b s : State} (h : Keeps b s) {a0} : Keeps b (singlePulseOp a0 s) := by
  unfold singlePulseOp
  repeat' first
    | with_reducible assumption
    | with_reducible apply State.modSett_keeps
    | with_reducible rfl
    | split
    | dsimp only

theorem dualAEdgeOp_keeps {b s : State} (h : Keeps b s) {a0 a1 a2} : Keeps b (dualAEdgeOp a0 a1 a2 s) := by
  unfold dualAEdgeOp
  repeat' first
    | with_reducible assumption
    | with_reducible apply State.modSett_keeps
    | with_reducible rfl
    | split
    | dsimp only

theorem dualBEdgeOp_keeps {b s : State} (h : Keeps b s) {a0 a1 a2} : Keeps b (dualBEdgeOp a0 a1 a2 s) := by
  unfold dualBEdgeOp
  repeat' first
    | with_reducible assumption
    | with_reducible apply State.modSett_keeps
    | with_reducible rfl
    | split
    | dsimp only

theorem rateGateEndOp_keeps {b s : State} (h : Keeps b s) {a0} : Keeps b (rateGateEndOp a0 s) := by
  unfold rateGateEndOp
  repeat' first
    | with_reducible assumption
    | with_reducible apply State.modSett_keeps
    | with_reducible rfl
    | split
    | dsimp only

theorem nvSlotWriteOp_keeps {b s : State} (h : Keeps b s) : Keeps b (nvSlotWriteOp s) := by
  unfold nvSlotWriteOp
  repeat' first
    | with_reducible assumption
    | with_reducible apply State.modSett_keeps
    | with_reducible rfl
    | split

theorem settSupplyLossOp_keeps {b s : State} (h : Keeps b s) : Keeps b (settSupplyLossOp s) := by
  unfold settSupplyLossOp
  repeat' first
    | with_reducible assumption
    | with_reducible apply State.modSett_keeps
    | with_reducible rfl
    | split
    | dsimp only

theorem settResetOp_keeps {b s : State} (h : Keeps b s) {a0 a1} : Keeps b (settResetOp a0 a1 s) := by
  unfold settResetOp
  repeat' first
    | with_reducible assumption
    | with_reducible rfl
    | split
    | with_reducible refine Keeps.upd ?_ ?_
    | dsimp only

theorem sealChangeOp_keeps {b s : State} (h : Keeps b s) {a0} : Keeps b (sealChangeOp a0 s) := by
  unfold sealChangeOp
  repeat' first
    | with_reducible assumption
    | with_reducible apply State.modSett_keeps
    | with_reducible rfl
    | split
    | dsimp only

theorem State.sendSett_keeps {b s : State} (h : Keeps b s) {a0} : Keeps b (State.sendSett s a0) := by
  unfold State.sendSett
  repeat' first
    | with_reducible assumption
    | with_reducible rfl
    | split
    | with_reducible refine Keeps.upd ?_ ?_
    | dsimp only

theorem settCycleOp_keeps {b s : State} (h : Keeps b s) {a0} : Keeps b (settCycleOp a0 s) := by
  unfold settCycleOp
  repeat' first
    | with_reducible assumption
    | with_reducible apply State.sendSett_keeps
    | with_reducible rfl
    | split
    | with_reducible refine Keeps.upd ?_ ?_
    | dsimp only

theorem State.setSlost_keeps {b s : State} (h : Keeps b s) {a0} : Keeps b (State.setSlost s a0) := by
  unfold State.setSlost
  repeat' first
    | with_reducible assumption
    | with_reducible apply State.arrive_keeps
    | with_reducible rfl
    | split
    | with_reducible refine Keeps.upd ?_ ?_

theorem slostOp_keeps {b s : State} (h : Keeps b s) : Keeps b (slostOp s) := by
  unfold slostOp
  repeat' first
    | with_reducible assumption
    | with_reducible apply State.setSlost_keeps
    | with_reducible rfl

theorem State.setStCmd_keeps {b s : State} (h : Keeps b s) {a0 a1} : Keeps b (State.setStCmd s a0 a1) :=
  Keeps.upd h rfl

theorem State.settReplied_keeps {b s : State} (h : Keeps b s) {a0} : Keeps b (State.settReplied s a0) := by
  unfold State.settReplied
  repeat' first
    | with_reducible assumption
    | with_reducible rfl
    | split
    | with_reducible refine Keeps.upd ?_ ?_
    | dsimp only

theorem settFrameAcceptOp_keeps {b s : State} (h : Keeps b s) {a0} : Keeps b (settFrameAcceptOp a0 s) := by
  unfold settFrameAcceptOp
  repeat' first
    | with_reducible assumption
    | with_reducible apply State.settReplied_keeps
    | with_reducible apply State.setSlost_keeps
    | with_reducible apply State.modSett_keeps
    | with_reducible apply State.arrive_keeps
    | with_reducible refine Keeps.foldl (fun _ _ _ => ?_) ?_
    | with_reducible rfl
    | split
    | with_reducible refine Keeps.upd ?_ ?_
    | dsimp only

theorem State.settHead_keeps {b s : State} (h : Keeps b s) {a0} {f : SettCmd → State → State} (hf : ∀ m u, Keeps b u → Keeps b (f m u)) :
    Keeps b (State.settHead s a0 f) := by
  unfold State.settHead
  split
  · split
    · exact hf _ _ (State.modSett_keeps h)
    · exact h
  · exact h

theorem State.settReply_keeps {b s : State} (h : Keeps b s) {a0 a1 a2} : Keeps b (State.settReply s a0 a1 a2) := by
  unfold State.settReply
  repeat' first
    | with_reducible assumption
    | with_reducible apply State.modSett_keeps
    | with_reducible rfl
    | dsimp only

theorem settStartOp_keeps {b s : State} (h : Keeps b s) : Keeps b (settStartOp s) := by
  unfold settStartOp
  repeat' first
    | with_reducible assumption
    | with_reducible apply State.settReply_keeps
    | with_reducible apply State.settHead_keeps
    | with_reducible apply State.modSett_keeps
    | with_reducible rfl
    | split
    | intro _
    | dsimp only

theorem settStopOp_keeps {b s : State} (h : Keeps b s) : Keeps b (settStopOp s) := by
  unfold settStopOp
  repeat' first
    | with_reducible assumption
    | with_reducible apply State.settReply_keeps
    | with_reducible apply State.settHead_keeps
    | with_reducible apply State.modSett_keeps
    | with_reducible rfl
    | split
    | intro _
    | dsimp only

theorem settReadOp_keeps {b s : State} (h : Keeps b s) : Keeps b (settReadOp s) := by
  unfold settReadOp
  repeat' first
    | with_reducible assumption
    | with_reducible apply State.settReply_keeps
    | with_reducible apply State.settHead_keeps
    | with_reducible rfl
    | split
    | intro _
    | dsimp only

theorem settVerifyOp_keeps {b s : State} (h : Keeps b s) : Keeps b (settVerifyOp s) := by
  unfold settVerifyOp
  repeat' first
    | with_reducible assumption
    | with_reducible apply State.settReply_keeps
    | with_reducible apply State.settHead_keeps
    | with_reducible apply State.modSett_keeps
    | with_reducible rfl
    | split
    | intro _
    | dsimp only

theorem settVerifyDoneOp_keeps {b s : State} (h : Keeps b s) : Keeps b (settVerifyDoneOp s) := by
  unfold settVerifyDoneOp
  repeat' first
    | with_reducible assumption
    | with_reducible apply State.settReply_keeps
    | with_reducible apply State.modSett_keeps
    | with_reducible apply State.draw_keeps
    | with_reducible rfl
    | split
    | dsimp only

theorem State.service_keeps {b s : State} (h : Keeps b s) {a0 a1 a2 a3} : Keeps b (State.service s a0 a1 a2 a3) := by
  unfold State.service
  repeat' first
    | with_reducible assumption
    | with_reducible apply State.modSett_keeps
    | with_reducible rfl
    | dsimp only

theorem serviceReadOp_keeps {b s : State} (h : Keeps b s) {a0} : Keeps b (serviceReadOp a0 s) := by
  unfold serviceReadOp
  repeat' first
    | with_reducible assumption
    | with_reducible apply State.service_keeps
    | with_reducible apply State.draw_keeps
    | with_reducible rfl
    | split

theorem serviceStatusOp_keeps {b s : State} (h : Keeps b s) {a0} : Keeps b (serviceStatusOp a0 s) := by
  unfold serviceStatusOp
  repeat' first
    | with_reducible assumption
    | with_reducible apply State.service_keeps
    | with_reducible apply State.draw_keeps
    | with_reducible rfl
    | split

theorem serviceWriteOp_keeps {b s : State} (h : Keeps b s) {a0 a1} : Keeps b (serviceWriteOp a0 a1 s) := by
  unfold serviceWriteOp
  repeat' first
    | with_reducible assumption
    | with_reducible apply State.service_keeps
    | with_reducible apply State.draw_keeps
    | with_reducible rfl
    | split
    | with_reducible refine Keeps.upd ?_ ?_
    | dsimp only

theorem State.settSend_keeps {b s : State} (h : Keeps b s) {a0} : Keeps b (State.settSend s a0) := by
  unfold State.settSend
  repeat' first
    | with_reducible assumption
    | with_reducible apply State.setStCmd_keeps
    | with_reducible rfl
    | split
    | with_reducible refine Keeps.upd ?_ ?_
    | dsimp only

theorem State.settRelease_keeps {b s : State} (h : Keeps b s) {a0} : Keeps b (State.settRelease s a0) := by
  unfold State.settRelease
  repeat' first
    | with_reducible assumption
    | with_reducible apply State.settSend_keeps
    | with_reducible apply State.setStCmd_keeps
    | with_reducible rfl
    | split
    | dsimp only

theorem State.settStage_keeps {b s : State} (h : Keeps b s) {a0 a1 a2 a3} : Keeps b (State.settStage s a0 a1 a2 a3) := by
  unfold State.settStage
  repeat' first
    | with_reducible assumption
    | with_reducible apply State.setStCmd_keeps
    | with_reducible rfl
    | with_reducible refine Keeps.upd ?_ ?_

theorem stCmdOp_keeps {b s : State} (h : Keeps b s) {a0 a1} : Keeps b (stCmdOp a0 a1 s) := by
  unfold stCmdOp
  repeat' first
    | with_reducible assumption
    | with_reducible apply State.settStage_keeps
    | with_reducible apply State.settSend_keeps
    | with_reducible apply State.setStCmd_keeps
    | with_reducible rfl
    | split
    | dsimp only

theorem stRrdOp_keeps {b s : State} (h : Keeps b s) {a0} : Keeps b (stRrdOp a0 s) := by
  unfold stRrdOp
  repeat' first
    | with_reducible assumption
    | with_reducible apply State.setSport_keeps
    | with_reducible rfl

theorem noreplyOp_keeps {b s : State} (h : Keeps b s) {a0} : Keeps b (noreplyOp a0 s) := by
  unfold noreplyOp
  repeat' first
    | with_reducible assumption
    | with_reducible apply State.setStCmd_keeps
    | with_reducible rfl
    | split
    | dsimp only

end Sys2Proof.Machine
end

