-- ==== Sys2Proof/Laws/KeepsPair.lean ====
section
/-! SUPPORT. The operations of the sequencer, the Owl, programs, coverage and the pair keep what Laws/Keeps.lean names. -/

namespace Sys2Proof.Machine

/-! ### PairBase -/

theorem State.pairSend_keeps {b s : State} (h : Keeps b s) {a0} : Keeps b (State.pairSend s a0) := by
  unfold State.pairSend
  repeat' first
    | with_reducible assumption
    | with_reducible rfl
    | split
    | with_reducible refine Keeps.upd ?_ ?_

theorem State.forward_keeps {b s : State} (h : Keeps b s) {a0} : Keeps b (State.forward s a0) := by
  unfold State.forward
  repeat' first
    | with_reducible assumption
    | with_reducible apply State.pairSend_keeps
    | with_reducible rfl
    | split

theorem State.eachLp_keeps {b s : State} (h : Keeps b s) {f : State → Nat → State} (hf : ∀ t p, Keeps b t → Keeps b (f t p)) :
    Keeps b (State.eachLp s f) := Keeps.foldl hf h

theorem State.stopRunning_keeps {b s : State} (h : Keeps b s) : Keeps b (State.stopRunning s) := by
  unfold State.stopRunning
  repeat' first
    | with_reducible assumption
    | with_reducible apply State.freshOwl_keeps
    | with_reducible apply State.leaveRun_keeps
    | with_reducible apply State.discardStaged_keeps
    | with_reducible apply State.modLp_keeps
    | with_reducible refine Keeps.foldl (fun _ _ _ => ?_) ?_
    | with_reducible rfl
    | split
    | dsimp only

theorem State.unsync_keeps {b s : State} (h : Keeps b s) : Keeps b (State.unsync s) := by
  unfold State.unsync
  repeat' first
    | with_reducible assumption
    | with_reducible apply State.stopRunning_keeps
    | with_reducible rfl
    | split
    | with_reducible refine Keeps.upd ?_ ?_
    | dsimp only

theorem State.relinquish_keeps {b s : State} (h : Keeps b s) {a0} : Keeps b (State.relinquish s a0) := by
  unfold State.relinquish
  repeat' first
    | with_reducible assumption
    | with_reducible apply State.unsync_keeps
    | with_reducible apply State.stopRunning_keeps
    | with_reducible apply State.eachLp_keeps
    | with_reducible apply State.pairSend_keeps
    | with_reducible apply State.moduleHalt_keeps
    | with_reducible apply State.refreshRlost_keeps
    | with_reducible apply State.arrive_keeps
    | with_reducible apply State.event_keeps
    | with_reducible apply State.modLp_keeps
    | with_reducible rfl
    | split
    | intro _
    | with_reducible refine Keeps.upd ?_ ?_
    | dsimp only

theorem State.relinquishFor_keeps {b s : State} (h : Keeps b s) {a0} : Keeps b (State.relinquishFor s a0) := by
  unfold State.relinquishFor
  repeat' first
    | with_reducible assumption
    | with_reducible apply State.relinquish_keeps
    | with_reducible apply State.moduleHalt_keeps
    | with_reducible rfl
    | split

theorem State.compareSigs_keeps {b s : State} (h : Keeps b s) : Keeps b (State.compareSigs s) := by
  unfold State.compareSigs
  repeat' first
    | with_reducible assumption
    | with_reducible apply State.unsync_keeps
    | with_reducible apply State.event_keeps
    | with_reducible refine Keeps.foldl (fun _ _ _ => ?_) ?_
    | with_reducible rfl
    | split
    | with_reducible refine Keeps.upd ?_ ?_
    | dsimp only

/-! ### Sequencer -/

theorem State.countWrites_keeps {b s : State} (h : Keeps b s) {a0} : Keeps b (State.countWrites s a0) := by
  unfold State.countWrites
  repeat' first
    | with_reducible assumption
    | with_reducible apply State.event_keeps
    | with_reducible refine Keeps.foldl (fun _ _ _ => ?_) ?_
    | with_reducible rfl
    | split
    | with_reducible refine Keeps.upd ?_ ?_
    | dsimp only

theorem State.logAppend_keeps {b s : State} (h : Keeps b s) {a0} : Keeps b (State.logAppend s a0) := by
  unfold State.logAppend
  repeat' first
    | with_reducible assumption
    | with_reducible apply State.countWrites_keeps
    | with_reducible rfl
    | split
    | with_reducible refine Keeps.upd ?_ ?_
    | dsimp only

theorem State.logCommit_keeps {b s : State} (h : Keeps b s) {a0} : Keeps b (State.logCommit s a0) := by
  unfold State.logCommit
  repeat' first
    | with_reducible assumption
    | with_reducible apply State.logAppend_keeps
    | with_reducible rfl
    | dsimp only

theorem State.reloadBlocks_keeps {b s : State} (h : Keeps b s) {a0} : Keeps b (State.reloadBlocks s a0) := by
  unfold State.reloadBlocks
  repeat' first
    | with_reducible assumption
    | with_reducible apply State.memSetList_keeps
    | with_reducible refine Keeps.foldl (fun _ _ _ => ?_) ?_
    | with_reducible rfl
    | dsimp only

theorem State.scanLog_keeps {b s : State} (h : Keeps b s) : Keeps b (State.scanLog s) := by
  unfold State.scanLog
  repeat' first
    | with_reducible assumption
    | with_reducible apply State.event_keeps
    | with_reducible refine Keeps.foldl (fun _ _ _ => ?_) ?_
    | with_reducible rfl
    | with_reducible refine Keeps.upd ?_ ?_
    | dsimp only

theorem compactionOp_keeps {b s : State} (h : Keeps b s) {a0} : Keeps b (compactionOp a0 s) := by
  unfold compactionOp
  repeat' first
    | with_reducible assumption
    | with_reducible apply State.countWrites_keeps
    | with_reducible rfl
    | split
    | with_reducible refine Keeps.upd ?_ ?_
    | dsimp only

theorem State.startLanes_keeps {b s : State} (h : Keeps b s) {a0 a1 a2 a3} : Keeps b (State.startLanes s a0 a1 a2 a3) := by
  unfold State.startLanes
  repeat' first
    | with_reducible assumption
    | with_reducible apply State.modRegion_keeps
    | with_reducible apply State.modLane_keeps
    | with_reducible rfl
    | split
    | dsimp only

theorem State.startInit_keeps {b s : State} (h : Keeps b s) {a0 a1} : Keeps b (State.startInit s a0 a1) := by
  unfold State.startInit
  repeat' first
    | with_reducible assumption
    | with_reducible apply State.startLanes_keeps
    | with_reducible apply State.modLp_keeps
    | with_reducible rfl
    | dsimp only

theorem State.sendFwd_keeps {b s : State} (h : Keeps b s) {a0} : Keeps b (State.sendFwd s a0) := by
  unfold State.sendFwd
  repeat' first
    | with_reducible assumption
    | with_reducible apply State.pairSend_keeps
    | with_reducible rfl
    | split
    | with_reducible refine Keeps.upd ?_ ?_
    | dsimp only

theorem State.enterRun_keeps {b s : State} (h : Keeps b s) {a0} : Keeps b (State.enterRun s a0) := by
  unfold State.enterRun
  repeat' first
    | with_reducible assumption
    | with_reducible apply State.sendFwd_keeps
    | with_reducible apply State.startInit_keeps
    | with_reducible apply State.triggerFree_keeps
    | with_reducible apply State.idle_keeps
    | with_reducible apply State.modRegion_keeps
    | with_reducible apply State.modTask_keeps
    | with_reducible apply State.modLp_keeps
    | with_reducible refine Keeps.foldl (fun _ _ _ => ?_) ?_
    | with_reducible rfl
    | split
    | with_reducible refine Keeps.upd ?_ ?_
    | dsimp only

theorem State.initWords_keeps {b s : State} (h : Keeps b s) {a0} : Keeps b (State.initWords s a0) := by
  unfold State.initWords
  refine Keeps.foldl (fun t e k => ?_) (Keeps.filterMem (p := fun k => !a0 k) h)
  split
  · exact State.memSet_keeps k
  · exact k

theorem State.coldStart_keeps {b s : State} (h : Keeps b s) {a0} : Keeps b (State.coldStart s a0) := by
  unfold State.coldStart
  repeat' first
    | with_reducible assumption
    | with_reducible apply State.initWords_keeps
    | with_reducible rfl
    | split
    | dsimp only

theorem State.firstSplit_keeps {b s : State} (h : Keeps b s) {a0} : Keeps b (State.firstSplit s a0) := by
  unfold State.firstSplit
  repeat' first
    | with_reducible assumption
    | with_reducible apply State.event_keeps
    | with_reducible apply State.modRegion_keeps
    | with_reducible apply State.modLp_keeps
    | with_reducible rfl
    | split
    | dsimp only

theorem State.runNow_keeps {b s : State} (h : Keeps b s) {a0 a1} : Keeps b (State.runNow s a0 a1) := by
  unfold State.runNow
  repeat' first
    | with_reducible assumption
    | with_reducible apply State.firstSplit_keeps
    | with_reducible apply State.coldStart_keeps
    | with_reducible apply State.enterRun_keeps
    | with_reducible refine Keeps.foldl (fun _ _ _ => ?_) ?_
    | with_reducible rfl
    | split
    | dsimp only

theorem runOp_keeps {b s : State} (h : Keeps b s) {a0 a1 a2} : Keeps b (runOp a0 a1 a2 s) := by
  unfold runOp
  repeat' first
    | with_reducible assumption
    | with_reducible apply State.runNow_keeps
    | with_reducible apply State.forward_keeps
    | with_reducible apply State.becomeMaster_keeps
    | with_reducible apply State.guarded_keeps
    | with_reducible rfl
    | split
    | intro _
    | with_reducible refine Keeps.upd ?_ ?_
    | dsimp only

theorem State.stopNow_keeps {b s : State} (h : Keeps b s) {a0} : Keeps b (State.stopNow s a0) := by
  unfold State.stopNow
  repeat' first
    | with_reducible assumption
    | with_reducible apply State.stopLp_keeps
    | with_reducible apply State.idle_keeps
    | with_reducible apply State.modLp_keeps
    | with_reducible refine Keeps.foldl (fun _ _ _ => ?_) ?_
    | with_reducible rfl
    | split
    | dsimp only

theorem stopOp_keeps {b s : State} (h : Keeps b s) {a0 a1} : Keeps b (stopOp a0 a1 s) := by
  unfold stopOp
  repeat' first
    | with_reducible assumption
    | with_reducible apply State.stopNow_keeps
    | with_reducible apply State.forward_keeps
    | with_reducible apply State.guarded_keeps
    | with_reducible rfl
    | intro _
    | dsimp only

theorem State.leaveHalt_keeps {b s : State} (h : Keeps b s) {a0} : Keeps b (State.leaveHalt s a0) := by
  unfold State.leaveHalt
  repeat' first
    | with_reducible assumption
    | with_reducible apply State.freshOwl_keeps
    | with_reducible apply State.modLp_keeps
    | with_reducible apply State.modLane_keeps
    | with_reducible rfl
    | split
    | dsimp only

theorem State.clrhaltNow_keeps {b s : State} (h : Keeps b s) {a0} : Keeps b (State.clrhaltNow s a0) := by
  unfold State.clrhaltNow
  repeat' first
    | with_reducible assumption
    | with_reducible apply State.leaveHalt_keeps
    | with_reducible apply State.reloadBlocks_keeps
    | with_reducible refine Keeps.foldl (fun _ _ _ => ?_) ?_
    | with_reducible rfl
    | split
    | dsimp only

theorem clrhaltOp_keeps {b s : State} (h : Keeps b s) {a0 a1} : Keeps b (clrhaltOp a0 a1 s) := by
  unfold clrhaltOp
  repeat' first
    | with_reducible assumption
    | with_reducible apply State.clrhaltNow_keeps
    | with_reducible apply State.forward_keeps
    | with_reducible apply State.guarded_keeps
    | with_reducible rfl
    | intro _
    | dsimp only

theorem State.writeBits_keeps {b s : State} (h : Keeps b s) {a0 a1 a2} : Keeps b (State.writeBits s a0 a1 a2) := by
  induction a1 generalizing s a2 with
  | nil => exact h
  | cons e t ih => exact ih (State.memSetList_keeps h)

theorem State.writeWords_keeps {b s : State} (h : Keeps b s) {a0 a1} : Keeps b (State.writeWords s a0 a1) := by
  induction a1 generalizing s a0 with
  | nil => unfold State.writeWords; exact h
  | cons e t ih => unfold State.writeWords; exact ih (State.memSetList_keeps h)

theorem State.writeInputs_keeps {b s : State} (h : Keeps b s) {a0 a1} : Keeps b (State.writeInputs s a0 a1) := by
  unfold State.writeInputs
  repeat' first
    | with_reducible assumption
    | with_reducible apply State.writeWords_keeps
    | with_reducible apply State.writeBits_keeps
    | with_reducible refine Keeps.foldl (fun _ _ _ => ?_) ?_
    | with_reducible rfl
    | dsimp only

theorem State.noteForwarded_keeps {b s : State} (h : Keeps b s) {a0 a1} : Keeps b (State.noteForwarded s a0 a1) := by
  unfold State.noteForwarded
  repeat' first
    | with_reducible assumption
    | with_reducible apply State.event_keeps
    | with_reducible refine Keeps.foldl (fun _ _ _ => ?_) ?_
    | with_reducible rfl
    | split
    | with_reducible refine Keeps.upd ?_ ?_
    | dsimp only

theorem State.beginLatch_keeps {b s : State} (h : Keeps b s) {a0 a1 a2 a3 a4} :
    Keeps b (State.beginLatch s a0 a1 a2 a3 a4) := by
  unfold State.beginLatch
  repeat' first
    | with_reducible assumption
    | with_reducible apply State.modTask_keeps
    | with_reducible apply State.modLp_keeps
    | with_reducible apply State.writeInputs_keeps

theorem latchStartOp_keeps {b s : State} (h : Keeps b s) {a0} : Keeps b (latchStartOp a0 s) := by
  unfold latchStartOp
  repeat' first
    | with_reducible assumption
    | with_reducible apply State.beginLatch_keeps
    | with_reducible apply State.noteForwarded_keeps
    | with_reducible apply State.sendFwd_keeps
    | with_reducible apply State.startInit_keeps
    | with_reducible apply State.consume_keeps
    | with_reducible apply State.modTask_keeps
    | with_reducible apply State.modLp_keeps
    | with_reducible refine Keeps.foldl (fun _ _ _ => ?_) ?_
    | with_reducible rfl
    | split
    | with_reducible refine Keeps.upd ?_ ?_
    | dsimp only

theorem State.forceInputs_keeps {b s : State} (h : Keeps b s) {a0 a1} : Keeps b (State.forceInputs s a0 a1) := by
  unfold State.forceInputs
  repeat' first
    | with_reducible assumption
    | with_reducible apply State.memSet_keeps
    | with_reducible refine Keeps.foldl (fun _ _ _ => ?_) ?_
    | with_reducible rfl
    | split
    | dsimp only

theorem latchEndOp_keeps {b s : State} (h : Keeps b s) {a0} : Keeps b (latchEndOp a0 s) := by
  unfold latchEndOp
  repeat' first
    | with_reducible assumption
    | with_reducible apply State.forceInputs_keeps
    | with_reducible apply State.startLanes_keeps
    | with_reducible apply State.modLp_keeps
    | with_reducible rfl
    | split
    | dsimp only

theorem commitStartOp_keeps {b s : State} (h : Keeps b s) {a0} : Keeps b (commitStartOp a0 s) := by
  unfold commitStartOp
  repeat' first
    | with_reducible assumption
    | with_reducible apply State.modLp_keeps
    | with_reducible rfl
    | split
    | dsimp only

theorem State.sinkEntry_keeps {b s : State} (h : Keeps b s) {a0 a1} : Keeps b (State.sinkEntry s a0 a1) := by
  unfold State.sinkEntry
  repeat' first
    | with_reducible assumption
    | with_reducible refine Keeps.foldl (fun _ _ _ => ?_) ?_
    | with_reducible rfl
    | split
    | with_reducible refine Keeps.upd ?_ ?_
    | dsimp only

theorem State.bufferEntry_keeps {b s : State} (h : Keeps b s) {a0 a1} : Keeps b (State.bufferEntry s a0 a1) := by
  unfold State.bufferEntry
  repeat' first
    | with_reducible assumption
    | with_reducible apply State.busWaits_keeps
    | with_reducible refine Keeps.foldl (fun _ _ _ => ?_) ?_
    | with_reducible rfl
    | split
    | with_reducible refine Keeps.upd ?_ ?_
    | dsimp only

theorem State.releaseStaged_keeps {b s : State} (h : Keeps b s) {a0} : Keeps b (State.releaseStaged s a0) := by
  unfold State.releaseStaged
  repeat' first
    | with_reducible assumption
    | with_reducible apply State.settRelease_keeps
    | with_reducible apply State.releaseBus_keeps
    | with_reducible refine Keeps.foldl (fun _ _ _ => ?_) ?_
    | with_reducible rfl
    | split
    | with_reducible refine Keeps.upd ?_ ?_
    | dsimp only

theorem State.boundary_keeps {b s : State} (h : Keeps b s) {a0} : Keeps b (State.boundary s a0) := by
  unfold State.boundary
  repeat' first
    | with_reducible assumption
    | with_reducible apply State.stopLp_keeps
    | with_reducible apply State.idle_keeps
    | with_reducible rfl
    | split

theorem commitEndOp_keeps {b s : State} (h : Keeps b s) {a0} : Keeps b (commitEndOp a0 s) := by
  unfold commitEndOp
  repeat' first
    | with_reducible assumption
    | with_reducible apply State.boundary_keeps
    | with_reducible apply State.releaseStaged_keeps
    | with_reducible apply State.bufferEntry_keeps
    | with_reducible apply State.sinkEntry_keeps
    | with_reducible apply State.logCommit_keeps
    | with_reducible apply State.compareSigs_keeps
    | with_reducible apply State.pairSend_keeps
    | with_reducible apply State.idle_keeps
    | with_reducible apply State.modRegion_keeps
    | with_reducible apply State.modTask_keeps
    | with_reducible apply State.modLp_keeps
    | with_reducible refine Keeps.foldl (fun _ _ _ => ?_) ?_
    | with_reducible rfl
    | split
    | with_reducible refine Keeps.upd ?_ ?_
    | dsimp only

theorem startupEndOp_keeps {b s : State} (h : Keeps b s) {a0} : Keeps b (startupEndOp a0 s) := by
  unfold startupEndOp
  repeat' first
    | with_reducible assumption
    | with_reducible apply State.boundary_keeps
    | with_reducible apply State.releaseStaged_keeps
    | with_reducible apply State.triggerFree_keeps
    | with_reducible apply State.idle_keeps
    | with_reducible apply State.modLp_keeps
    | with_reducible rfl
    | split
    | dsimp only

theorem sqRwlReadOp_keeps {b s : State} (h : Keeps b s) {a0} : Keeps b (sqRwlReadOp a0 s) := by
  unfold sqRwlReadOp
  repeat' first
    | with_reducible assumption
    | with_reducible apply State.setMport_keeps
    | with_reducible rfl

theorem sqCmdOp_keeps {b s : State} (h : Keeps b s) {a0 a1} : Keeps b (sqCmdOp a0 a1 s) := by
  unfold sqCmdOp
  repeat' first
    | with_reducible assumption
    | with_reducible apply clrhaltOp_keeps
    | with_reducible apply stopOp_keeps
    | with_reducible apply runOp_keeps
    | with_reducible apply State.guarded_keeps
    | with_reducible rfl
    | split
    | intro _
    | simp only [id_eq]
    | dsimp only

/-! ### LaneSig -/

theorem State.reserve_keeps {b s : State} (h : Keeps b s) {a0 a1} : Keeps b (State.reserve s a0 a1) := by
  unfold State.reserve
  repeat' first
    | with_reducible assumption
    | with_reducible apply State.modRegion_keeps
    | with_reducible rfl
    | split
    | dsimp only

theorem State.fill_keeps {b s : State} (h : Keeps b s) {a0 a1 a2 a3} : Keeps b (State.fill s a0 a1 a2 a3) := by
  unfold State.fill
  repeat' first
    | with_reducible assumption
    | with_reducible apply State.modRegion_keeps
    | with_reducible rfl
    | split
    | dsimp only

theorem State.pushEv_keeps {b s : State} (h : Keeps b s) {a0 a1 a2} : Keeps b (State.pushEv s a0 a1 a2) := by
  unfold State.pushEv
  repeat' first
    | with_reducible assumption
    | with_reducible apply State.modLane_keeps
    | with_reducible rfl
    | split
    | dsimp only

theorem State.resolveEv_keeps {b s : State} (h : Keeps b s) {a0 a1 a2} : Keeps b (State.resolveEv s a0 a1 a2) := by
  unfold State.resolveEv
  repeat' first
    | with_reducible assumption
    | with_reducible apply State.modLane_keeps
    | with_reducible rfl
    | split
    | dsimp only

theorem State.pushClose_keeps {b s : State} (h : Keeps b s) {a0 a1} : Keeps b (State.pushClose s a0 a1) := by
  unfold State.pushClose
  repeat' first
    | with_reducible assumption
    | with_reducible apply State.modLane_keeps
    | with_reducible rfl
    | split
    | dsimp only

theorem State.reportMismatch_keeps {b s : State} (h : Keeps b s) {a0 a1 a2 a3} :
    Keeps b (State.reportMismatch s a0 a1 a2 a3) := by
  unfold State.reportMismatch
  repeat' first
    | with_reducible assumption
    | with_reducible apply State.modRegion_keeps
    | with_reducible apply State.arrive_keeps
    | with_reducible apply State.event_keeps
    | with_reducible apply State.relinquishFor_keeps

theorem State.mismatch_keeps {b s : State} (h : Keeps b s) {a0 a1 a2 a3} : Keeps b (State.mismatch s a0 a1 a2 a3) := by
  unfold State.mismatch
  repeat' first
    | with_reducible assumption
    | with_reducible apply State.reportMismatch_keeps
    | with_reducible apply State.haltLp_keeps
    | with_reducible apply State.modRegion_keeps
    | with_reducible rfl

theorem State.trailMismatch_keeps {b s : State} (h : Keeps b s) {a0 a1} : Keeps b (State.trailMismatch s a0 a1) := by
  unfold State.trailMismatch
  repeat' first
    | with_reducible assumption
    | with_reducible apply State.mismatch_keeps
    | with_reducible rfl

theorem State.owlsCompare_keeps {b s : State} (h : Keeps b s) {a0} : Keeps b (State.owlsCompare s a0) := by
  unfold State.owlsCompare
  repeat' first
    | with_reducible assumption
    | with_reducible apply State.trailMismatch_keeps
    | with_reducible rfl
    | split
    | dsimp only

theorem State.fold_keeps {b s : State} (h : Keeps b s) {a0} : Keeps b (State.fold s a0) := by
  unfold State.fold
  repeat' first
    | with_reducible assumption
    | with_reducible apply State.owlsCompare_keeps
    | with_reducible apply State.modRegion_keeps
    | with_reducible apply State.modLane_keeps
    | with_reducible refine Keeps.foldl (fun _ _ _ => ?_) ?_
    | with_reducible rfl
    | split
    | dsimp only

theorem State.memFail_keeps {b s : State} (h : Keeps b s) {a0 a1} : Keeps b (State.memFail s a0 a1) := by
  unfold State.memFail
  repeat' first
    | with_reducible assumption
    | with_reducible apply State.mismatch_keeps
    | with_reducible apply State.reportMismatch_keeps
    | with_reducible apply State.haltLp_keeps
    | with_reducible rfl
    | split
    | dsimp only

theorem State.memCorrect_keeps {b s : State} (h : Keeps b s) {a0 a1} : Keeps b (State.memCorrect s a0 a1) := by
  unfold State.memCorrect
  repeat' first
    | with_reducible assumption
    | with_reducible apply State.event_keeps
    | with_reducible apply State.modRegion_keeps
    | with_reducible rfl
    | split
    | dsimp only

theorem State.memCheck_keeps {b s : State} (h : Keeps b s) {a0 a1 a2 a3 a4} :
    Keeps b (State.memCheck s a0 a1 a2 a3 a4).1 := by
  unfold State.memCheck
  repeat' first
    | with_reducible assumption
    | with_reducible apply State.memCorrect_keeps
    | with_reducible apply State.memFail_keeps
    | with_reducible refine Keeps.foldl (fun _ _ _ => ?_) ?_
    | split
    | dsimp only

theorem State.pairedHalt_keeps {b s : State} (h : Keeps b s) {a0} : Keeps b (State.pairedHalt s a0) := by
  unfold State.pairedHalt
  repeat' first
    | with_reducible assumption
    | with_reducible apply State.haltLp_keeps
    | with_reducible apply State.modRegion_keeps
    | with_reducible rfl
    | split

theorem owlVerdictOp_keeps {b s : State} (h : Keeps b s) {a0} : Keeps b (owlVerdictOp a0 s) := by
  unfold owlVerdictOp
  repeat' first
    | with_reducible assumption
    | with_reducible apply State.pairedHalt_keeps
    | with_reducible apply State.mismatch_keeps
    | with_reducible apply State.modRegion_keeps
    | with_reducible rfl
    | split
    | dsimp only

/-! ### Program -/

theorem State.loadCode_keeps {b s : State} (h : Keeps b s) {a0} : Keeps b (State.loadCode s a0) := by
  unfold State.loadCode
  repeat' first
    | with_reducible assumption
    | with_reducible refine Keeps.foldl (fun _ _ _ => ?_) ?_
    | with_reducible rfl
    | with_reducible refine Keeps.upd ?_ ?_
    | dsimp only

theorem State.loadSpare_keeps {b s : State} (h : Keeps b s) {a0 a1} : Keeps b (State.loadSpare s a0 a1) := by
  unfold State.loadSpare
  repeat' first
    | with_reducible assumption
    | with_reducible apply State.emptyLoadBank_keeps
    | with_reducible refine Keeps.foldl (fun _ _ _ => ?_) ?_
    | with_reducible rfl
    | with_reducible refine Keeps.upd ?_ ?_
    | dsimp only

theorem State.carryBlocks_keeps {b s : State} (h : Keeps b s) {a0 a1 a2} : Keeps b (State.carryBlocks s a0 a1 a2) := by
  unfold State.carryBlocks
  repeat' first
    | with_reducible assumption
    | with_reducible apply State.memSetList_keeps
    | with_reducible refine Keeps.foldl (fun _ _ _ => ?_) ?_
    | with_reducible rfl
    | split
    | dsimp only

theorem State.logWhole_keeps {b s : State} (h : Keeps b s) {a0} : Keeps b (State.logWhole s a0) := by
  unfold State.logWhole
  repeat' first
    | with_reducible assumption
    | with_reducible apply State.logAppend_keeps
    | with_reducible rfl
    | dsimp only

theorem State.dropLog_keeps {b s : State} (h : Keeps b s) {a0} : Keeps b (State.dropLog s a0) :=
  Keeps.upd h rfl

theorem State.applyIrq_keeps {b s : State} (h : Keeps b s) {a0} : Keeps b (State.applyIrq s a0) := by
  unfold State.applyIrq
  refine Keeps.foldl (fun t q k => ?_) (Keeps.foldl (fun _ _ k => State.modLp_keeps k) h)
  split
  · exact k
  · rename_i hq
    exact State.modSrc_keeps k (fun e _ => absurd (e.elim .inl (fun e => .inr (.inl e))) hq)

theorem State.applySections_keeps {b s : State} (h : Keeps b s) {a0} : Keeps b (State.applySections s a0) := by
  unfold State.applySections
  repeat' first
    | with_reducible assumption
    | with_reducible apply State.applyIrq_keeps
    | with_reducible apply State.bdApply_keeps
    | with_reducible apply State.applyRack_keeps
    | with_reducible apply State.modRegion_keeps
    | with_reducible refine Keeps.foldl (fun _ _ _ => ?_) ?_
    | with_reducible rfl
    | split
    | with_reducible refine Keeps.upd ?_ ?_
    | dsimp only

theorem State.installProgram_keeps {b s : State} (h : Keeps b s) {a0} : Keeps b (State.installProgram s a0) := by
  unfold State.installProgram
  repeat' first
    | with_reducible assumption
    | with_reducible apply State.applySections_keeps
    | with_reducible apply State.loadCode_keeps
    | with_reducible apply State.initWords_keeps
    | with_reducible rfl
    | with_reducible refine Keeps.upd ?_ ?_
    | dsimp only

theorem State.loadStops_keeps {b s : State} (h : Keeps b s) : Keeps b (State.loadStops s) := by
  unfold State.loadStops
  repeat' first
    | with_reducible assumption
    | with_reducible apply State.leaveHalt_keeps
    | with_reducible refine Keeps.foldl (fun _ _ _ => ?_) ?_
    | with_reducible rfl
    | split
    | dsimp only

theorem State.loadProgram_keeps {b s : State} (h : Keeps b s) {a0} : Keeps b (State.loadProgram s a0) := by
  unfold State.loadProgram
  repeat' first
    | with_reducible assumption
    | with_reducible apply State.loadStops_keeps
    | with_reducible apply State.installProgram_keeps
    | with_reducible apply State.dropLog_keeps
    | with_reducible apply State.logWhole_keeps
    | with_reducible apply State.carryBlocks_keeps
    | with_reducible rfl
    | with_reducible refine Keeps.upd ?_ ?_
    | dsimp only

theorem loadCompleteOp_keeps {b s : State} (h : Keeps b s) : Keeps b (loadCompleteOp s) := by
  unfold loadCompleteOp
  repeat' first
    | with_reducible assumption
    | with_reducible apply State.loadProgram_keeps
    | with_reducible apply State.emptyFreeBank_keeps
    | with_reducible apply State.finishOp_keeps
    | with_reducible rfl
    | split
    | with_reducible refine Keeps.upd ?_ ?_
    | dsimp only

theorem State.bootProgram_keeps {b s : State} (h : Keeps b s) : Keeps b (State.bootProgram s) := by
  unfold State.bootProgram
  repeat' first
    | with_reducible assumption
    | with_reducible apply State.installProgram_keeps
    | with_reducible apply State.scanLog_keeps
    | with_reducible apply State.reloadBlocks_keeps
    | with_reducible rfl
    | split
    | with_reducible refine Keeps.upd ?_ ?_
    | dsimp only

/-! ### Coverage -/

theorem pairedToSplitOp_keeps {b s : State} (h : Keeps b s) {a0} : Keeps b (pairedToSplitOp a0 s) := by
  unfold pairedToSplitOp
  repeat' first
    | with_reducible assumption
    | with_reducible apply State.enterRun_keeps
    | with_reducible apply State.freshOwl_keeps
    | with_reducible apply State.event_keeps
    | with_reducible apply State.idle_keeps
    | with_reducible apply State.modRegion_keeps
    | with_reducible apply State.modLp_keeps
    | with_reducible rfl
    | split
    | dsimp only

theorem rejoinOp_keeps {b s : State} (h : Keeps b s) {a0} : Keeps b (rejoinOp a0 s) := by
  unfold rejoinOp
  repeat' first
    | with_reducible assumption
    | with_reducible apply State.modRegion_keeps
    | with_reducible rfl
    | split
    | dsimp only

theorem State.copyLane_keeps {b s : State} (h : Keeps b s) {a0 a1} : Keeps b (State.copyLane s a0 a1) := by
  unfold State.copyLane
  repeat' first
    | with_reducible assumption
    | with_reducible apply State.setLane_keeps
    | with_reducible rfl

theorem State.exchangeEnds_keeps {b s : State} (h : Keeps b s) {a0 a1} : Keeps b (State.exchangeEnds s a0 a1) := by
  unfold State.exchangeEnds
  repeat' first
    | with_reducible assumption
    | with_reducible apply State.finishOp_keeps
    | with_reducible rfl
    | split
    | dsimp only

theorem rejoinDoneOp_keeps {b s : State} (h : Keeps b s) {a0 a1 a2} : Keeps b (rejoinDoneOp a0 a1 a2 s) := by
  unfold rejoinDoneOp
  repeat' first
    | with_reducible assumption
    | with_reducible apply State.exchangeEnds_keeps
    | with_reducible apply State.copyLane_keeps
    | with_reducible apply State.freshOwl_keeps
    | with_reducible apply State.event_keeps
    | with_reducible apply State.modRegion_keeps
    | with_reducible rfl
    | split
    | dsimp only

theorem State.coverNow_keeps {b s : State} (h : Keeps b s) {a0 a1 a2} : Keeps b (State.coverNow s a0 a1 a2) := by
  unfold State.coverNow
  repeat' first
    | with_reducible assumption
    | with_reducible apply rejoinOp_keeps
    | with_reducible apply pairedToSplitOp_keeps
    | with_reducible apply State.modRegion_keeps
    | with_reducible rfl
    | split
    | dsimp only

theorem exchangePreparedOp_keeps {b s : State} (h : Keeps b s) {a0} : Keeps b (exchangePreparedOp a0 s) := by
  unfold exchangePreparedOp
  repeat' first
    | with_reducible assumption
    | with_reducible apply State.loadSpare_keeps
    | with_reducible apply State.emptyFreeBank_keeps
    | with_reducible apply State.finishOp_keeps
    | with_reducible apply State.modRegion_keeps
    | with_reducible rfl
    | split
    | with_reducible refine Keeps.upd ?_ ?_
    | dsimp only

theorem State.carryOver_keeps {b s : State} (h : Keeps b s) {a0 a1} : Keeps b (State.carryOver s a0 a1) := by
  unfold State.carryOver
  repeat' first
    | with_reducible assumption
    | with_reducible apply State.memSetList_keeps
    | with_reducible apply State.memSet_keeps
    | with_reducible refine Keeps.foldl (fun _ _ _ => ?_) ?_
    | with_reducible rfl
    | split
    | dsimp only

theorem State.loadIrqOf_keeps {b s : State} (h : Keeps b s) {a0 a1 a2} : Keeps b (State.loadIrqOf s a0 a1 a2) := by
  unfold State.loadIrqOf
  dsimp only
  refine Keeps.foldl (fun t e k => ?_) (Keeps.foldl (fun t e k => ?_) h)
  · exact State.modSrc_keeps k (fun x _ => by
      have := cfgWord_target x (v := e.2)
      simpa [Source.target] using this)
  · exact State.modSrc_keeps k (fun x _ => by
      have := cfgWord_target x (v := 0)
      simpa [Source.target] using this)

theorem State.carryTasks_keeps {b s : State} (h : Keeps b s) {a0 a1 a2} : Keeps b (State.carryTasks s a0 a1 a2) := by
  unfold State.carryTasks
  repeat' first
    | with_reducible assumption
    | with_reducible apply State.modTask_keeps
    | with_reducible refine Keeps.foldl (fun _ _ _ => ?_) ?_
    | with_reducible rfl
    | dsimp only

theorem handoverOp_keeps {b s : State} (h : Keeps b s) {a0} : Keeps b (handoverOp a0 s) := by
  unfold handoverOp
  repeat' first
    | with_reducible assumption
    | with_reducible apply State.carryTasks_keeps
    | with_reducible apply State.loadIrqOf_keeps
    | with_reducible apply State.carryOver_keeps
    | with_reducible apply State.copyLane_keeps
    | with_reducible apply State.freshOwl_keeps
    | with_reducible apply State.modRegion_keeps
    | with_reducible rfl
    | split
    | with_reducible refine Keeps.upd ?_ ?_
    | dsimp only

theorem handoverDoneOp_keeps {b s : State} (h : Keeps b s) {a0} : Keeps b (handoverDoneOp a0 s) := by
  unfold handoverDoneOp
  repeat' first
    | with_reducible assumption
    | with_reducible apply State.dropLog_keeps
    | with_reducible apply State.logWhole_keeps
    | with_reducible apply State.trigger_keeps
    | with_reducible apply State.modRegion_keeps
    | with_reducible refine Keeps.foldl (fun _ _ _ => ?_) ?_
    | with_reducible rfl
    | split
    | with_reducible refine Keeps.upd ?_ ?_
    | dsimp only

/-! ### Pair -/

theorem State.modPair_keeps {b s : State} (h : Keeps b s) {a0} : Keeps b (State.modPair s a0) :=
  Keeps.upd h rfl

theorem State.linkFrame_keeps {b s : State} (h : Keeps b s) {a0 a1} {f : State → State} (hf : ∀ t, Keeps b t → Keeps b (f t)) :
    Keeps b (State.linkFrame s a0 a1 f) := by
  unfold State.linkFrame
  split
  · exact h
  · split
    · exact hf _ (State.modPair_keeps h)
    · exact Keeps.ite (State.unsync_keeps (State.modPair_keeps h)) (State.modPair_keeps h)

theorem healthUpdateOp_keeps {b s : State} (h : Keeps b s) : Keeps b (healthUpdateOp s) := by
  unfold healthUpdateOp
  repeat' first
    | with_reducible assumption
    | with_reducible apply State.modPair_keeps
    | with_reducible rfl
    | dsimp only

theorem State.takeHealth_keeps {b s : State} (h : Keeps b s) {a0} : Keeps b (State.takeHealth a0 s) := by
  unfold State.takeHealth
  repeat' first
    | with_reducible assumption
    | with_reducible apply State.modPair_keeps
    | with_reducible apply State.event_keeps
    | with_reducible rfl
    | split
    | dsimp only

theorem healthOp_keeps {b s : State} (h : Keeps b s) {a0 a1} : Keeps b (healthOp a0 a1 s) := by
  unfold healthOp
  split
  · exact State.modPair_keeps (State.pairSend_keeps h)
  · split
    · exact State.linkFrame_keeps h (fun _ k => State.takeHealth_keeps k)
    · exact h

theorem State.scrubRegion_keeps {b s : State} (h : Keeps b s) {a0} : Keeps b (State.scrubRegion s a0) := by
  unfold State.scrubRegion
  repeat' first
    | with_reducible assumption
    | with_reducible apply State.memCorrect_keeps
    | with_reducible refine Keeps.foldl (fun _ _ _ => ?_) ?_
    | with_reducible rfl
    | dsimp only

theorem memoryScrubOp_keeps {b s : State} (h : Keeps b s) {a0 a1} : Keeps b (memoryScrubOp a0 a1 s) := by
  unfold memoryScrubOp
  repeat' first
    | with_reducible assumption
    | with_reducible apply State.scrubRegion_keeps
    | with_reducible apply State.modPair_keeps
    | with_reducible refine Keeps.foldl (fun _ _ _ => ?_) ?_
    | with_reducible rfl
    | split
    | dsimp only

theorem laneBistOp_keeps {b s : State} (h : Keeps b s) {a0 a1} : Keeps b (laneBistOp a0 a1 s) := by
  unfold laneBistOp
  repeat' first
    | with_reducible assumption
    | with_reducible apply State.modPair_keeps
    | with_reducible rfl
    | split
    | dsimp only

theorem owlTestIdleSlotOp_keeps {b s : State} (h : Keeps b s) {a0 a1} : Keeps b (owlTestIdleSlotOp a0 a1 s) := by
  unfold owlTestIdleSlotOp
  repeat' first
    | with_reducible assumption
    | with_reducible apply State.modPair_keeps
    | with_reducible rfl
    | split
    | dsimp only

theorem State.ownTriggers_keeps {b s : State} (h : Keeps b s) {a0} : Keeps b (State.ownTriggers s a0) := by
  unfold State.ownTriggers
  repeat' first
    | with_reducible assumption
    | with_reducible apply State.trigger_keeps
    | with_reducible apply State.idle_keeps
    | with_reducible apply State.modTask_keeps
    | with_reducible refine Keeps.foldl (fun _ _ _ => ?_) ?_
    | with_reducible rfl
    | split
    | dsimp only

theorem State.takeLpState_keeps {b s : State} (h : Keeps b s) {a0} : Keeps b (State.takeLpState s a0) := by
  unfold State.takeLpState
  repeat' first
    | with_reducible assumption
    | with_reducible apply State.idle_keeps
    | with_reducible apply State.modRegion_keeps
    | with_reducible apply State.modTask_keeps
    | with_reducible apply State.modLp_keeps
    | with_reducible refine Keeps.foldl (fun _ _ _ => ?_) ?_
    | with_reducible rfl
    | split
    | dsimp only

theorem State.takeLpStates_keeps {b s : State} (h : Keeps b s) : Keeps b (State.takeLpStates s) := by
  unfold State.takeLpStates
  repeat' first
    | with_reducible assumption
    | with_reducible apply State.takeLpState_keeps
    | with_reducible refine Keeps.foldl (fun _ _ _ => ?_) ?_
    | with_reducible rfl

theorem State.takeOver_keeps {b s : State} (h : Keeps b s) {a0} : Keeps b (State.takeOver s a0) := by
  unfold State.takeOver
  repeat' first
    | with_reducible assumption
    | with_reducible apply State.takeLpStates_keeps
    | with_reducible apply State.ownTriggers_keeps
    | with_reducible apply State.unsync_keeps
    | with_reducible apply State.becomeMaster_keeps
    | with_reducible apply State.arrive_keeps
    | with_reducible apply State.event_keeps
    | with_reducible refine Keeps.foldl (fun _ _ _ => ?_) ?_
    | with_reducible rfl
    | split
    | with_reducible refine Keeps.upd ?_ ?_
    | dsimp only

theorem State.noTake_keeps {b s : State} (h : Keeps b s) : Keeps b (State.noTake s) := by
  unfold State.noTake
  repeat' first
    | with_reducible assumption
    | with_reducible apply State.modPair_keeps
    | with_reducible apply State.unsync_keeps
    | with_reducible apply State.event_keeps
    | with_reducible rfl
    | split
    | dsimp only

theorem relinquishOp_keeps {b s : State} (h : Keeps b s) {a0} : Keeps b (relinquishOp a0 s) := by
  unfold relinquishOp
  repeat' first
    | with_reducible assumption
    | with_reducible apply State.noTake_keeps
    | with_reducible apply State.takeOver_keeps
    | with_reducible apply State.modPair_keeps
    | with_reducible rfl
    | split
    | dsimp only

theorem tokenStuckOp_keeps {b s : State} (h : Keeps b s) : Keeps b (tokenStuckOp s) := by
  unfold tokenStuckOp
  repeat' first
    | with_reducible assumption
    | with_reducible apply State.takeOver_keeps
    | with_reducible apply State.event_keeps
    | with_reducible rfl
    | split

theorem tokenLineSensedOp_keeps {b s : State} (h : Keeps b s) {a0} : Keeps b (tokenLineSensedOp a0 s) := by
  unfold tokenLineSensedOp
  repeat' first
    | with_reducible assumption
    | with_reducible apply State.noTake_keeps
    | with_reducible apply State.takeOver_keeps
    | with_reducible apply State.modPair_keeps
    | with_reducible apply State.relinquishFor_keeps
    | with_reducible rfl
    | split
    | dsimp only

theorem tokenAcquireOp_keeps {b s : State} (h : Keeps b s) : Keeps b (tokenAcquireOp s) := by
  unfold tokenAcquireOp
  repeat' first
    | with_reducible assumption
    | with_reducible apply State.modPair_keeps
    | with_reducible apply State.runNow_keeps
    | with_reducible apply State.forward_keeps
    | with_reducible apply State.becomeMaster_keeps
    | with_reducible apply State.arrive_keeps
    | with_reducible rfl
    | split
    | dsimp only

theorem relinquishCauseOp_keeps {b s : State} (h : Keeps b s) {a0} : Keeps b (relinquishCauseOp a0 s) := by
  unfold relinquishCauseOp
  repeat' first
    | with_reducible assumption
    | with_reducible apply State.modPair_keeps
    | with_reducible apply State.relinquishFor_keeps
    | with_reducible rfl
    | split
    | dsimp only

theorem partnerDriveTimeoutOp_keeps {b s : State} (h : Keeps b s) : Keeps b (partnerDriveTimeoutOp s) := by
  unfold partnerDriveTimeoutOp
  repeat' first
    | with_reducible assumption
    | with_reducible apply State.modPair_keeps
    | with_reducible rfl
    | split
    | dsimp only

theorem State.startJoin_keeps {b s : State} (h : Keeps b s) : Keeps b (State.startJoin s) := by
  unfold State.startJoin
  repeat' first
    | with_reducible assumption
    | with_reducible apply State.modPair_keeps
    | with_reducible apply State.pairSend_keeps
    | with_reducible rfl
    | split
    | dsimp only

theorem State.tryJoin_keeps {b s : State} (h : Keeps b s) : Keeps b (State.tryJoin s) := by
  unfold State.tryJoin
  repeat' first
    | with_reducible assumption
    | with_reducible apply State.startJoin_keeps
    | with_reducible apply State.modPair_keeps
    | with_reducible apply State.unsync_keeps
    | with_reducible rfl
    | split
    | dsimp only

theorem State.autoJoin_keeps {b s : State} (h : Keeps b s) : Keeps b (State.autoJoin s) := by
  unfold State.autoJoin
  repeat' first
    | with_reducible assumption
    | with_reducible apply State.tryJoin_keeps
    | with_reducible apply State.modPair_keeps
    | with_reducible rfl
    | dsimp only

theorem State.setBitWords_keeps {b s : State} (h : Keeps b s) {a0 a1} : Keeps b (State.setBitWords s a0 a1) := by
  unfold State.setBitWords
  repeat' first
    | with_reducible assumption
    | with_reducible apply State.memSetList_keeps
    | with_reducible rfl
    | dsimp only

theorem State.sendBlocks_keeps {b s : State} (h : Keeps b s) {a0} : Keeps b (State.sendBlocks s a0) := by
  unfold State.sendBlocks
  repeat' first
    | with_reducible assumption
    | with_reducible apply State.pairSend_keeps
    | with_reducible refine Keeps.foldl (fun _ _ _ => ?_) ?_
    | with_reducible rfl
    | dsimp only

theorem joinreqOp_keeps {b s : State} (h : Keeps b s) {a0 a1 a2} : Keeps b (joinreqOp a0 a1 a2 s) := by
  unfold joinreqOp
  repeat' first
    | with_reducible assumption
    | with_reducible apply State.sendBlocks_keeps
    | with_reducible apply State.modPair_keeps
    | with_reducible apply State.pairSend_keeps
    | with_reducible rfl
    | split
    | dsimp only

theorem State.joinFail_keeps {b s : State} (h : Keeps b s) : Keeps b (State.joinFail s) := by
  unfold State.joinFail
  repeat' first
    | with_reducible assumption
    | with_reducible apply State.unsync_keeps
    | with_reducible apply State.event_keeps
    | with_reducible rfl

theorem joinackOp_keeps {b s : State} (h : Keeps b s) {a0} : Keeps b (joinackOp a0 s) := by
  unfold joinackOp
  repeat' first
    | with_reducible assumption
    | with_reducible apply State.joinFail_keeps
    | with_reducible apply State.modPair_keeps
    | with_reducible apply State.stopRunning_keeps
    | with_reducible rfl
    | split
    | with_reducible refine Keeps.upd ?_ ?_
    | dsimp only

theorem pairStateOp_keeps {b s : State} (h : Keeps b s) {a0} : Keeps b (pairStateOp a0 s) := by
  unfold pairStateOp
  repeat' first
    | with_reducible assumption
    | with_reducible apply State.setBitWords_keeps
    | with_reducible apply State.modPair_keeps
    | with_reducible apply State.memSetList_keeps
    | with_reducible apply State.modRegion_keeps
    | with_reducible apply State.modTask_keeps
    | with_reducible apply State.modLp_keeps
    | with_reducible apply State.modLane_keeps
    | with_reducible refine Keeps.foldl (fun _ _ _ => ?_) ?_
    | with_reducible rfl
    | split
    | with_reducible refine Keeps.upd ?_ ?_
    | dsimp only

theorem catchupRoundOp_keeps {b s : State} (h : Keeps b s) {a0} : Keeps b (catchupRoundOp a0 s) := by
  unfold catchupRoundOp
  repeat' first
    | with_reducible assumption
    | with_reducible apply State.joinFail_keeps
    | with_reducible apply State.sendBlocks_keeps
    | with_reducible apply State.modPair_keeps
    | with_reducible rfl
    | split
    | with_reducible refine Keeps.upd ?_ ?_
    | dsimp only

theorem State.placeState_keeps {b s : State} (h : Keeps b s) : Keeps b (State.placeState s) := by
  unfold State.placeState
  repeat' first
    | with_reducible assumption
    | with_reducible apply State.carryBlocks_keeps
    | with_reducible apply State.memSetList_keeps
    | with_reducible apply State.memSet_keeps
    | with_reducible refine Keeps.foldl (fun _ _ _ => ?_) ?_
    | with_reducible rfl
    | split
    | dsimp only

theorem State.joinPlace_keeps {b s : State} (h : Keeps b s) : Keeps b (State.joinPlace s) := by
  unfold State.joinPlace
  repeat' first
    | with_reducible assumption
    | with_reducible apply State.draw_keeps
    | with_reducible rfl
    | with_reducible refine Keeps.upd ?_ ?_
    | dsimp only

theorem joinCompleteOp_keeps {b s : State} (h : Keeps b s) : Keeps b (joinCompleteOp s) := by
  unfold joinCompleteOp
  repeat' first
    | with_reducible assumption
    | with_reducible apply State.joinPlace_keeps
    | with_reducible apply State.placeState_keeps
    | with_reducible apply State.sendBlocks_keeps
    | with_reducible apply State.autoJoin_keeps
    | with_reducible apply State.takeLpStates_keeps
    | with_reducible apply State.modPair_keeps
    | with_reducible apply State.relinquish_keeps
    | with_reducible rfl
    | split
    | with_reducible refine Keeps.upd ?_ ?_
    | dsimp only

theorem joinRetryOp_keeps {b s : State} (h : Keeps b s) : Keeps b (joinRetryOp s) := by
  unfold joinRetryOp
  repeat' first
    | with_reducible assumption
    | with_reducible apply State.autoJoin_keeps
    | with_reducible apply State.modPair_keeps
    | with_reducible apply State.unsync_keeps
    | with_reducible rfl
    | dsimp only

theorem pairLinkStartOp_keeps {b s : State} (h : Keeps b s) {a0 a1 a2} : Keeps b (pairLinkStartOp a0 a1 a2 s) := by
  unfold pairLinkStartOp
  repeat' first
    | with_reducible assumption
    | with_reducible apply State.autoJoin_keeps
    | with_reducible apply State.modPair_keeps
    | with_reducible apply State.arrive_keeps
    | with_reducible apply State.draw_keeps
    | with_reducible rfl
    | split
    | dsimp only

theorem pairLinkLossOp_keeps {b s : State} (h : Keeps b s) : Keeps b (pairLinkLossOp s) := by
  unfold pairLinkLossOp
  repeat' first
    | with_reducible assumption
    | with_reducible apply State.joinFail_keeps
    | with_reducible apply State.modPair_keeps
    | with_reducible apply State.unsync_keeps
    | with_reducible apply State.arrive_keeps
    | with_reducible rfl
    | split
    | dsimp only

theorem pairLinkLaneChangeOp_keeps {b s : State} (h : Keeps b s) {a0 a1} : Keeps b (pairLinkLaneChangeOp a0 a1 s) := by
  unfold pairLinkLaneChangeOp
  repeat' first
    | with_reducible assumption
    | with_reducible apply State.modPair_keeps
    | with_reducible rfl
    | split
    | dsimp only

theorem State.slew_keeps {b s : State} (h : Keeps b s) {a0} : Keeps b (State.slew s a0) := by
  unfold State.slew
  repeat' first
    | with_reducible assumption
    | with_reducible apply State.modPair_keeps
    | with_reducible rfl
    | split
    | dsimp only

theorem State.takeHeartbeat_keeps {b s : State} (h : Keeps b s) {a0 a1} : Keeps b (State.takeHeartbeat a0 a1 s) :=
  State.tryJoin_keeps (State.modPair_keeps (State.slew_keeps h))

theorem pairLinkHeartbeatOp_keeps {b s : State} (h : Keeps b s) {a0 a1} : Keeps b (pairLinkHeartbeatOp a0 a1 s) :=
  State.linkFrame_keeps (State.pairSend_keeps h) (fun _ k => State.takeHeartbeat_keeps k)

theorem standbyLagTimeoutOp_keeps {b s : State} (h : Keeps b s) : Keeps b (standbyLagTimeoutOp s) := by
  unfold standbyLagTimeoutOp
  repeat' first
    | with_reducible assumption
    | with_reducible apply State.unsync_keeps
    | with_reducible rfl
    | split

theorem fwdOp_keeps {b s : State} (h : Keeps b s) {a0} : Keeps b (fwdOp a0 s) := by
  unfold fwdOp
  repeat' first
    | with_reducible assumption
    | with_reducible apply State.modPair_keeps
    | with_reducible rfl
    | split
    | with_reducible refine Keeps.upd ?_ ?_
    | dsimp only

theorem osigOp_keeps {b s : State} (h : Keeps b s) {a0 a1 a2} : Keeps b (osigOp a0 a1 a2 s) := by
  unfold osigOp
  repeat' first
    | with_reducible assumption
    | with_reducible apply State.modPair_keeps
    | with_reducible apply State.compareSigs_keeps
    | with_reducible rfl
    | split
    | dsimp only

theorem State.applyCmd_keeps {b s : State} (h : Keeps b s) {a0} : Keeps b (State.applyCmd s a0) := by
  unfold State.applyCmd
  repeat' first
    | with_reducible assumption
    | with_reducible apply State.coverNow_keeps
    | with_reducible apply State.clrhaltNow_keeps
    | with_reducible apply State.stopNow_keeps
    | with_reducible apply State.runNow_keeps
    | with_reducible apply State.unsync_keeps
    | with_reducible apply State.assertReset_keeps
    | with_reducible rfl
    | split
    | with_reducible refine Keeps.upd ?_ ?_

theorem applyDueCmds_keeps {b : State} : ∀ {n : Nat} {s : State}, Keeps b s → Keeps b (applyDueCmds n s)
  | 0, _, h => h
  | n + 1, s, h => by
    unfold applyDueCmds
    split
    · exact applyDueCmds_keeps (State.applyCmd_keeps (State.modPair_keeps h))
    · exact h

theorem State.applyCmds_keeps {b s : State} (h : Keeps b s) : Keeps b (State.applyCmds s) := by
  unfold State.applyCmds
  repeat' first
    | with_reducible assumption
    | with_reducible apply applyDueCmds_keeps
    | with_reducible rfl
    | split

theorem cmdfwdOp_keeps {b s : State} (h : Keeps b s) {a0 a1} : Keeps b (cmdfwdOp a0 a1 s) := by
  unfold cmdfwdOp
  repeat' first
    | with_reducible assumption
    | with_reducible apply State.applyCmds_keeps
    | with_reducible apply State.applyCmd_keeps
    | with_reducible apply State.modPair_keeps
    | with_reducible rfl
    | split
    | dsimp only

theorem presetOp_keeps {b s : State} (h : Keeps b s) : Keeps b (presetOp s) := by
  unfold presetOp
  repeat' first
    | with_reducible assumption
    | with_reducible apply State.applyCmd_keeps
    | with_reducible rfl

theorem partnerHaltTimeoutOp_keeps {b s : State} (h : Keeps b s) : Keeps b (partnerHaltTimeoutOp s) := by
  unfold partnerHaltTimeoutOp
  repeat' first
    | with_reducible assumption
    | with_reducible apply State.modPair_keeps
    | with_reducible apply State.pairSend_keeps
    | with_reducible rfl
    | split
    | dsimp only

theorem State.pairCommand_keeps {b s : State} (h : Keeps b s) {a0 a1} {f : State → State} (hf : ∀ t, Keeps b t → Keeps b (f t)) :
    Keeps b (State.pairCommand s a0 a1 f) := by
  unfold State.pairCommand
  refine State.guarded_keeps h (fun t k => ?_)
  split
  · exact State.setMport_keeps (hf t k)
  · exact State.setMport_keeps k

theorem switchoverOp_keeps {b s : State} (h : Keeps b s) {a0} : Keeps b (switchoverOp a0 s) := by
  unfold switchoverOp
  repeat' first
    | with_reducible assumption
    | with_reducible apply State.pairCommand_keeps
    | with_reducible apply State.autoJoin_keeps
    | with_reducible apply State.modPair_keeps
    | with_reducible apply State.relinquish_keeps
    | with_reducible rfl
    | split
    | intro _
    | dsimp only

theorem desyncOp_keeps {b s : State} (h : Keeps b s) {a0} : Keeps b (desyncOp a0 s) := by
  unfold desyncOp
  repeat' first
    | with_reducible assumption
    | with_reducible apply State.pairCommand_keeps
    | with_reducible apply State.unsync_keeps
    | with_reducible rfl
    | intro _

theorem joinOp_keeps {b s : State} (h : Keeps b s) {a0} : Keeps b (joinOp a0 s) := by
  unfold joinOp
  repeat' first
    | with_reducible assumption
    | with_reducible apply State.pairCommand_keeps
    | with_reducible apply State.startJoin_keeps
    | with_reducible rfl
    | intro _

theorem plCmdOp_keeps {b s : State} (h : Keeps b s) {a0 a1} : Keeps b (plCmdOp a0 a1 s) := by
  unfold plCmdOp
  repeat' first
    | with_reducible assumption
    | with_reducible apply joinOp_keeps
    | with_reducible apply desyncOp_keeps
    | with_reducible apply switchoverOp_keeps
    | with_reducible apply State.guarded_keeps
    | with_reducible rfl
    | split
    | intro _
    | simp only [id_eq]

theorem plHlReadOp_keeps {b s : State} (h : Keeps b s) {a0} : Keeps b (plHlReadOp a0 s) := by
  unfold plHlReadOp
  repeat' first
    | with_reducible assumption
    | with_reducible apply State.setMport_keeps
    | with_reducible rfl

theorem plPhlReadOp_keeps {b s : State} (h : Keeps b s) {a0} : Keeps b (plPhlReadOp a0 s) := by
  unfold plPhlReadOp
  repeat' first
    | with_reducible assumption
    | with_reducible apply State.setMport_keeps
    | with_reducible rfl

/-! ### SharedPorts -/

theorem ftSetCmd_keeps {b s : State} (h : Keeps b s) {a0} : Keeps b (ftSetCmd a0 s) := by
  unfold ftSetCmd
  repeat' first
    | with_reducible assumption
    | with_reducible apply State.forward_keeps
    | with_reducible apply ftSetOp_keeps
    | with_reducible rfl
    | split
    | dsimp only

theorem ftClrCmd_keeps {b s : State} (h : Keeps b s) {a0} : Keeps b (ftClrCmd a0 s) := by
  unfold ftClrCmd
  repeat' first
    | with_reducible assumption
    | with_reducible apply State.forward_keeps
    | with_reducible apply ftClrOp_keeps
    | with_reducible rfl

theorem ftClrallCmd_keeps {b s : State} (h : Keeps b s) : Keeps b (ftClrallCmd s) := by
  unfold ftClrallCmd
  repeat' first
    | with_reducible assumption
    | with_reducible apply State.forward_keeps
    | with_reducible apply ftClrallOp_keeps
    | with_reducible rfl

theorem State.readEffect_keeps {b s : State} (h : Keeps b s) {a0 a1} : Keeps b (State.readEffect s a0 a1) := by
  unfold State.readEffect
  repeat' first
    | with_reducible assumption
    | with_reducible apply plPhlReadOp_keeps
    | with_reducible apply plHlReadOp_keeps
    | with_reducible apply sqRwlReadOp_keeps
    | with_reducible apply mrDiReadOp_keeps
    | with_reducible rfl
    | split

theorem State.sharedRead_keeps {b s : State} (h : Keeps b s) {a0 a1} : Keeps b (State.sharedRead s a0 a1).1 := by
  unfold State.sharedRead
  repeat' first
    | with_reducible assumption
    | with_reducible apply State.readEffect_keeps
    | with_reducible apply State.violation_keeps
    | split

theorem icWrite_keeps {b s : State} (h : Keeps b s) {a0 a1 a2} : Keeps b (icWrite a0 a1 a2 s) := by
  unfold icWrite
  repeat' first
    | with_reducible assumption
    | with_reducible apply icThrOp_keeps
    | with_reducible apply icHoldOp_keeps
    | with_reducible apply icClrOp_keeps
    | with_reducible apply icRaiseOp_keeps
    | with_reducible apply icDoneOp_keeps
    | with_reducible apply icCfgOp_keeps
    | with_reducible apply State.setMport_keeps
    | with_reducible rfl
    | split

theorem bdWrite_keeps {b s : State} (h : Keeps b s) {a0 a1 a2} : Keeps b (bdWrite a0 a1 a2 s) := by
  unfold bdWrite
  repeat' first
    | with_reducible assumption
    | with_reducible apply bdConfigWriteOp_keeps
    | with_reducible apply bdChkOp_keeps
    | with_reducible apply bdAnsOp_keeps
    | with_reducible apply bdStartOp_keeps
    | with_reducible rfl
    | split

theorem fieldWrite_keeps {b s : State} (h : Keeps b s) {a0 a1 a2} : Keeps b (fieldWrite a0 a1 a2 s) := by
  unfold fieldWrite
  repeat' first
    | with_reducible assumption
    | with_reducible apply fbCmdOp_keeps
    | with_reducible apply fbSputOp_keeps
    | with_reducible apply fbTxreqOp_keeps
    | with_reducible apply fbAckOp_keeps
    | with_reducible apply ptRdOp_keeps
    | with_reducible apply ptHomeOp_keeps
    | with_reducible apply ptPresetOp_keeps
    | with_reducible apply ptDisOp_keeps
    | with_reducible apply ptWrOp_keeps
    | with_reducible apply fdDrdOp_keeps
    | with_reducible apply fdDclrOp_keeps
    | with_reducible apply fdCrstOp_keeps
    | with_reducible apply fdRstOp_keeps
    | with_reducible apply State.setMport_keeps
    | with_reducible rfl
    | split

theorem unitWrite_keeps {b s : State} (h : Keeps b s) {a0 a1 a2} : Keeps b (unitWrite a0 a1 a2 s) := by
  unfold unitWrite
  repeat' first
    | with_reducible assumption
    | with_reducible apply ftClrallCmd_keeps
    | with_reducible apply ftClrCmd_keeps
    | with_reducible apply ftSetCmd_keeps
    | with_reducible apply plCmdOp_keeps
    | with_reducible apply stRrdOp_keeps
    | with_reducible apply stCmdOp_keeps
    | with_reducible apply ksBrOp_keeps
    | with_reducible apply ksBwOp_keeps
    | with_reducible apply ksStartOp_keeps
    | with_reducible apply rkCmdOp_keeps
    | with_reducible apply ftRdOp_keeps
    | with_reducible apply rtWrite_keeps
    | with_reducible apply rtSetOp_keeps
    | with_reducible apply rtSnapOp_keeps
    | with_reducible apply erLogOp_keeps
    | with_reducible apply erFindOp_keeps
    | with_reducible apply erRead_keeps
    | with_reducible apply State.setMport_keeps
    | with_reducible rfl
    | split

theorem State.portWrite_keeps {b s : State} (h : Keeps b s) {a0 a1 a2} : Keeps b (State.portWrite s a0 a1 a2) := by
  unfold State.portWrite
  repeat' first
    | with_reducible assumption
    | with_reducible apply unitWrite_keeps
    | with_reducible apply fieldWrite_keeps
    | with_reducible apply bdWrite_keeps
    | with_reducible apply icWrite_keeps
    | with_reducible apply sqCmdOp_keeps
    | with_reducible apply mrRdOp_keeps
    | with_reducible apply State.setMport_keeps
    | with_reducible rfl
    | split

theorem State.sharedWrite_keeps {b s : State} (h : Keeps b s) {a0 a1 a2} : Keeps b (State.sharedWrite s a0 a1 a2) := by
  unfold State.sharedWrite
  repeat' first
    | with_reducible assumption
    | with_reducible apply State.portWrite_keeps
    | with_reducible apply State.guarded_keeps
    | with_reducible rfl
    | intro _
    | dsimp only

theorem State.moveRead_keeps {b s : State} (h : Keeps b s) {a0 a1} : Keeps b (State.moveRead s a0 a1).1 := by
  unfold State.moveRead
  repeat' first
    | with_reducible assumption
    | with_reducible apply State.sharedRead_keeps
    | with_reducible apply State.violation_keeps
    | split

theorem State.moveWrite_keeps {b s : State} (h : Keeps b s) {a0 a1 a2} : Keeps b (State.moveWrite s a0 a1 a2) := by
  unfold State.moveWrite
  repeat' first
    | with_reducible assumption
    | with_reducible apply State.sharedWrite_keeps
    | with_reducible apply State.violation_keeps
    | with_reducible apply State.memSet_keeps
    | with_reducible rfl
    | split

end Sys2Proof.Machine
end

