-- ==== Sys2Proof/Laws/KeepsBoot.lean ====
section
/-! SUPPORT. The operations of boot and the host channel keep what Laws/Keeps.lean names. -/

namespace Sys2Proof.Machine

/-! ### Boot -/

theorem State.setFwImage_keeps {b s : State} (h : Keeps b s) {a0 a1} : Keeps b (State.setFwImage s a0 a1) := by
  unfold State.setFwImage
  repeat' first
    | with_reducible assumption
    | with_reducible rfl
    | split
    | with_reducible refine Keeps.upd ?_ ?_

theorem State.setFwDesc_keeps {b s : State} (h : Keeps b s) {a0 a1} : Keeps b (State.setFwDesc s a0 a1) := by
  unfold State.setFwDesc
  repeat' first
    | with_reducible assumption
    | with_reducible rfl
    | split
    | with_reducible refine Keeps.upd ?_ ?_

theorem State.applyRecords_keeps {b s : State} (h : Keeps b s) {a0} : Keeps b (State.applyRecords a0 s).1 := by
  induction a0 generalizing s with
  | zero => exact h
  | succ n ih =>
    unfold State.applyRecords
    dsimp only
    split
    · exact h
    · exact ih (Keeps.upd (State.setFwImage_keeps h) rfl)

theorem State.fwReject_keeps {b s : State} (h : Keeps b s) {a0} : Keeps b (State.fwReject s a0) := by
  unfold State.fwReject
  repeat' first
    | with_reducible assumption
    | with_reducible apply State.event_keeps
    | with_reducible rfl
    | with_reducible refine Keeps.upd ?_ ?_

theorem State.fwSwitch_keeps {b s : State} (h : Keeps b s) : Keeps b (State.fwSwitch s) := by
  unfold State.fwSwitch
  repeat' first
    | with_reducible assumption
    | with_reducible rfl
    | split
    | with_reducible refine Keeps.upd ?_ ?_
    | dsimp only

theorem State.fwApply_keeps {b s : State} (h : Keeps b s) : Keeps b (State.fwApply s) := by
  unfold State.fwApply
  repeat' first
    | with_reducible assumption
    | with_reducible apply State.fwSwitch_keeps
    | with_reducible apply State.fwReject_keeps
    | with_reducible apply State.applyRecords_keeps
    | with_reducible apply State.setFwDesc_keeps
    | with_reducible apply State.setFwImage_keeps
    | with_reducible apply State.event_keeps
    | with_reducible rfl
    | split
    | with_reducible refine Keeps.upd ?_ ?_
    | dsimp only

theorem State.bootStage_keeps {b s : State} (h : Keeps b s) : Keeps b (State.bootStage s) := by
  unfold State.bootStage
  repeat' first
    | with_reducible assumption
    | with_reducible apply State.fwApply_keeps
    | with_reducible apply State.fwSwitch_keeps
    | with_reducible apply State.fwReject_keeps
    | with_reducible rfl
    | split
    | with_reducible refine Keeps.upd ?_ ?_
    | dsimp only

theorem State.bootBank_keeps {b s : State} (h : Keeps b s) : KeepsO b ((State.bootBank s).map Prod.fst) := by
  unfold State.bootBank
  repeat' first
    | with_reducible assumption
    | with_reducible apply State.event_keeps
    | exact KeepsO.none
    | with_reducible apply KeepsO.fst
    | split
    | dsimp only
    | with_reducible refine Keeps.upd ?_ ?_

theorem State.fwConfirm_keeps {b s : State} (h : Keeps b s) : Keeps b (State.fwConfirm s) := by
  unfold State.fwConfirm
  repeat' first
    | with_reducible assumption
    | with_reducible apply State.event_keeps
    | with_reducible rfl
    | with_reducible refine Keeps.upd ?_ ?_

theorem State.bootBadger_keeps {b s : State} (h : Keeps b s) : Keeps b (State.bootBadger s) := by
  unfold State.bootBadger
  repeat' first
    | with_reducible assumption
    | with_reducible apply State.bdInterval_keeps
    | with_reducible apply State.draw_keeps
    | with_reducible rfl
    | split
    | with_reducible refine Keeps.upd ?_ ?_
    | dsimp only

theorem State.bootKeys_keeps {b s : State} (h : Keeps b s) : Keeps b (State.bootKeys s) := by
  unfold State.bootKeys
  repeat' first
    | with_reducible assumption
    | with_reducible apply State.lcSteps_keeps
    | with_reducible apply State.destroySlots_keeps
    | with_reducible rfl
    | split
    | dsimp only

theorem State.bootRecords_keeps {b s : State} (h : Keeps b s) {a0 a1} : Keeps b (State.bootRecords s a0 a1) := by
  unfold State.bootRecords
  extract_lets booted r0 s0 c s1 r1 s2 s3
  have h0 : Keeps b s0 := State.bootScan_keeps (Keeps.shrink (er := { s.er with queue := [] }) h (Nat.zero_le _))
  have h1 : Keeps b s1 := by
    show Keeps b (if _ then _ else _)
    split
    · exact State.event_keeps (Keeps.upd h0 rfl)
    · exact h0
  have h2 : Keeps b s2 := by
    show Keeps b (if _ then _ else _)
    split
    · exact State.event_keeps (Keeps.upd h1 rfl)
    · exact h1
  exact Keeps.foldl (fun _ _ k => State.enqueue_keeps k) (State.event_keeps h2)

theorem State.bootPort_keeps {b s : State} (h : Keeps b s) {a0} : Keeps b (State.bootPort s a0) :=
  Keeps.upd h rfl

theorem State.bootOwl_keeps {b s : State} (h : Keeps b s) {a0 a1} : Keeps b (State.bootOwl s a0 a1) := by
  unfold State.bootOwl
  repeat' first
    | with_reducible assumption
    | with_reducible apply State.event_keeps
    | with_reducible apply State.modRegion_keeps
    | with_reducible rfl
    | split
    | dsimp only

theorem State.bootLp_keeps {b s : State} (h : Keeps b s) {a0} : Keeps b (State.bootLp s a0) := by
  unfold State.bootLp
  repeat' first
    | with_reducible assumption
    | with_reducible apply State.modLp_keeps
    | with_reducible rfl
    | split
    | dsimp only

theorem State.bootSystem_keeps {b s : State} (h : Keeps b s) {a0 a1 a2 a3} : Keeps b (State.bootSystem s a0 a1 a2 a3) := by
  unfold State.bootSystem
  extract_lets s0 s1 s2 r3 s3 s4 s5 s6 pr r7 s7 s8
  have h4 : Keeps b s4 := Keeps.foldl (fun _ _ k => State.bootOwl_keeps k) (Keeps.upd (State.bootProgram_keeps
    (State.bootPort_keeps (State.bootPort_keeps (State.bootRecords_keeps h)))) rfl)
  have h5 : Keeps b s5 := by
    show Keeps b (if _ then _ else _)
    split
    · exact State.fwConfirm_keeps h4
    · exact h4
  have h7 : Keeps b s7 := Keeps.upd (Keeps.foldl (fun _ _ k => State.bootLp_keeps k) h5) rfl
  have h8 : Keeps b s8 := by
    show Keeps b (if _ then _ else _)
    split
    · exact State.moduleHalt_keeps h7
    · exact h7
  split
  · exact runOp_keeps h8
  · exact h8

theorem moduleResetOp_keeps {b s : State} (h : Keeps b s) {a0 a1 a2} : Keeps b (moduleResetOp a0 a1 a2 s) := by
  unfold moduleResetOp
  extract_lets s0 sr s1 s2
  have h2 : Keeps b s2 := State.bootStage_keeps (State.bootKeys_keeps (State.bootBadger_keeps
    (Keeps.upd (State.assertReset_keeps h) rfl)))
  split
  · exact Keeps.upd h2 rfl
  · rename_i t _ e
    exact State.bootSystem_keeps (State.bootBank_keeps h2 _ (by rw [e]; rfl))

theorem powerOnOp_keeps {b s : State} (h : Keeps b s) : Keeps b (powerOnOp s) := by
  unfold powerOnOp
  repeat' first
    | with_reducible assumption
    | with_reducible apply State.assertReset_keeps
    | with_reducible rfl

theorem brownOutOp_keeps {b s : State} (h : Keeps b s) : Keeps b (brownOutOp s) := by
  unfold brownOutOp
  repeat' first
    | with_reducible assumption
    | with_reducible apply settSupplyLossOp_keeps
    | with_reducible apply State.assertReset_keeps
    | with_reducible rfl

theorem badgerActionOp_keeps {b s : State} (h : Keeps b s) : Keeps b (badgerActionOp s) := by
  unfold badgerActionOp
  repeat' first
    | with_reducible assumption
    | with_reducible apply State.relinquishFor_keeps
    | with_reducible apply State.assertReset_keeps
    | with_reducible rfl
    | split
    | with_reducible refine Keeps.upd ?_ ?_
    | dsimp only

theorem hostCommandResetOp_keeps {b s : State} (h : Keeps b s) : Keeps b (hostCommandResetOp s) := by
  unfold hostCommandResetOp
  repeat' first
    | with_reducible assumption
    | with_reducible apply State.assertReset_keeps
    | with_reducible rfl
    | split

/-! ### HostChannel -/

theorem State.setEthPort_keeps {b s : State} (h : Keeps b s) {a0 a1} : Keeps b (State.setEthPort s a0 a1) :=
  Keeps.upd h rfl

theorem ethernetLinkChangeOp_keeps {b s : State} (h : Keeps b s) {a0 a1} : Keeps b (ethernetLinkChangeOp a0 a1 s) := by
  unfold ethernetLinkChangeOp
  repeat' first
    | with_reducible assumption
    | with_reducible apply State.setEthPort_keeps
    | with_reducible apply State.bootPort_keeps
    | with_reducible rfl
    | split

theorem linkLocalFallbackOp_keeps {b s : State} (h : Keeps b s) {a0 a1} : Keeps b (linkLocalFallbackOp a0 a1 s) := by
  unfold linkLocalFallbackOp
  repeat' first
    | with_reducible assumption
    | with_reducible apply State.setEthPort_keeps
    | with_reducible rfl
    | split
    | dsimp only

theorem dhcpAnswerOp_keeps {b s : State} (h : Keeps b s) {a0 a1} : Keeps b (dhcpAnswerOp a0 a1 s) := by
  unfold dhcpAnswerOp
  repeat' first
    | with_reducible assumption
    | with_reducible apply State.setEthPort_keeps
    | with_reducible rfl
    | split
    | dsimp only

theorem State.dumpRead_keeps {b s : State} (h : Keeps b s) : Keeps b (State.dumpRead s) := by
  unfold State.dumpRead
  repeat' first
    | with_reducible assumption
    | with_reducible apply State.settStage_keeps
    | with_reducible apply State.settSend_keeps
    | with_reducible rfl
    | split
    | with_reducible refine Keeps.upd ?_ ?_
    | dsimp only

theorem State.dumpAdvance_keeps {b s : State} (h : Keeps b s) : Keeps b (State.dumpAdvance s) := by
  unfold State.dumpAdvance
  repeat' first
    | with_reducible assumption
    | with_reducible apply State.dumpRead_keeps
    | with_reducible apply State.finishOp_keeps
    | with_reducible apply State.reply_keeps
    | with_reducible rfl
    | split
    | with_reducible refine Keeps.upd ?_ ?_
    | dsimp only

theorem State.cancelOp_keeps {b s : State} (h : Keeps b s) : Keeps b (State.cancelOp s) := by
  unfold State.cancelOp
  repeat' first
    | with_reducible assumption
    | with_reducible apply State.abortExchange_keeps
    | with_reducible apply State.emptyFreeBank_keeps
    | with_reducible apply State.finishOp_keeps
    | with_reducible rfl
    | split
    | with_reducible refine Keeps.upd ?_ ?_

theorem State.closeSession_keeps {b s : State} (h : Keeps b s) {a0} : Keeps b (State.closeSession s a0) := by
  unfold State.closeSession
  repeat' first
    | with_reducible assumption
    | with_reducible apply State.cancelOp_keeps
    | with_reducible apply State.dumpAdvance_keeps
    | with_reducible apply State.setSession_keeps
    | with_reducible rfl
    | split
    | with_reducible refine Keeps.upd ?_ ?_
    | dsimp only

theorem State.alert_keeps {b s : State} (h : Keeps b s) {a0 a1} : Keeps b (State.alert s a0 a1) := by
  unfold State.alert
  repeat' first
    | with_reducible assumption
    | with_reducible apply State.send_keeps
    | with_reducible rfl
    | with_reducible refine Keeps.upd ?_ ?_

theorem State.alertSession_keeps {b s : State} (h : Keeps b s) {a0 a1} : Keeps b (State.alertSession s a0 a1) := by
  unfold State.alertSession
  repeat' first
    | with_reducible assumption
    | with_reducible apply State.alert_keeps
    | with_reducible apply State.closeSession_keeps
    | with_reducible rfl

theorem helloOp_keeps {b s : State} (h : Keeps b s) {a0 a1 a2 a3 a4 a5} : Keeps b (helloOp a0 a1 a2 a3 a4 a5 s) := by
  unfold helloOp
  extract_lets carried
  split
  · exact h
  · split
    · exact State.alert_keeps h
    · split
      · exact State.alert_keeps h
      · split
        · exact State.alert_keeps h
        · refine State.send_keeps (State.setSession_keeps (s := { s with free := s.free + 3 }) ?_)
          exact ⟨h.pending, Nat.le_trans h.free (Nat.le_add_right _ 3), h.mem, h.bits, h.queue, h.fixed⟩

theorem finHOp_keeps {b s : State} (h : Keeps b s) {a0 a1} : Keeps b (finHOp a0 a1 s) := by
  unfold finHOp
  repeat' first
    | with_reducible assumption
    | with_reducible apply State.alertSession_keeps
    | with_reducible apply State.send_keeps
    | with_reducible apply State.setSession_keeps
    | with_reducible rfl
    | split
    | dsimp only

theorem handshakeTimeoutOp_keeps {b s : State} (h : Keeps b s) {a0} : Keeps b (handshakeTimeoutOp a0 s) := by
  unfold handshakeTimeoutOp
  repeat' first
    | with_reducible assumption
    | with_reducible apply State.alertSession_keeps
    | with_reducible rfl
    | split

theorem sessionTimeoutOp_keeps {b s : State} (h : Keeps b s) {a0} : Keeps b (sessionTimeoutOp a0 s) := by
  unfold sessionTimeoutOp
  repeat' first
    | with_reducible assumption
    | with_reducible apply State.alertSession_keeps
    | with_reducible rfl
    | split

theorem State.rekey_keeps {b s : State} (h : Keeps b s) {a0} : Keeps b (State.rekey s a0) := by
  unfold State.rekey
  repeat' first
    | with_reducible assumption
    | with_reducible apply State.setSession_keeps
    | with_reducible apply State.draw_keeps
    | with_reducible rfl
    | split
    | dsimp only

theorem sessionRekeyOp_keeps {b s : State} (h : Keeps b s) : Keeps b (sessionRekeyOp s) := by
  unfold sessionRekeyOp
  repeat' first
    | with_reducible assumption
    | with_reducible apply State.rekey_keeps
    | with_reducible apply State.draw_keeps
    | with_reducible refine Keeps.foldl (fun _ _ _ => ?_) ?_
    | with_reducible rfl
    | split
    | with_reducible refine Keeps.upd ?_ ?_
    | dsimp only

theorem State.hostWait_keeps {b s : State} (h : Keeps b s) {a0} : Keeps b (State.hostWait a0 s) := by
  induction a0 generalizing s with
  | zero => exact h
  | succ n ih =>
    unfold State.hostWait
    split
    · exact ih (State.draw_keeps (ksOpCompleteOp_keeps h))
    · exact h

theorem State.hostAccess_keeps {b s : State} (h : Keeps b s) {a0} : Keeps b (State.hostAccess s a0) := by
  unfold State.hostAccess
  repeat' first
    | with_reducible assumption
    | with_reducible apply State.hostWait_keeps
    | with_reducible rfl
    | split

theorem State.hostMove_keeps {b s : State} (h : Keeps b s) {a0} : Keeps b (State.hostMove s a0).1 := by
  unfold State.hostMove
  repeat' first
    | with_reducible assumption
    | with_reducible apply State.moveRead_keeps
    | with_reducible apply State.hostAccess_keeps
    | with_reducible apply State.moveWrite_keeps
    | split

theorem State.hostMoves_keeps {b s : State} (h : Keeps b s) {a0} : Keeps b (State.hostMoves s a0).1 := by
  unfold State.hostMoves
  have key : ∀ (l : List HostMove) (x : State × List Word), Keeps b x.1 →
      Keeps b (l.foldl (fun x m => let r := x.1.hostMove m; (r.1, x.2 ++ r.2)) x).1 := by
    intro l
    induction l with
    | nil => intro x hx; exact hx
    | cons m t ih => intro x hx; exact ih _ (State.hostMove_keeps hx)
  exact key _ _ h

theorem State.kgPerform_keeps {b s : State} (h : Keeps b s) {a0 a1} : Keeps b (State.kgPerform s a0 a1).1 := by
  unfold State.kgPerform
  repeat' first
    | with_reducible assumption
    | with_reducible apply State.violation_keeps
    | with_reducible apply State.setSlot_keeps
    | with_reducible apply State.draw_keeps
    | with_reducible apply State.destroySlots_keeps
    | with_reducible apply State.zeroFail_keeps
    | split
    | dsimp only
    | with_reducible refine Keeps.upd ?_ ?_

theorem State.kgTransition_keeps {b s : State} (h : Keeps b s) {a0} : Keeps b (State.kgTransition s a0) := by
  unfold State.kgTransition
  repeat' first
    | with_reducible assumption
    | with_reducible apply State.stopAll_keeps
    | with_reducible apply State.setSlot_keeps
    | with_reducible rfl
    | split
    | with_reducible refine Keeps.upd ?_ ?_
    | dsimp only

theorem State.acceptOp_keeps {b s : State} (h : Keeps b s) {a0 a1} : Keeps b (State.acceptOp s a0 a1) :=
  Keeps.upd h rfl

theorem State.reqLoad_keeps {b s : State} (h : Keeps b s) {a0 a1 a2} : Keeps b (State.reqLoad s a0 a1 a2) := by
  unfold State.reqLoad
  repeat' first
    | with_reducible assumption
    | with_reducible apply State.acceptOp_keeps
    | with_reducible apply State.reply_keeps
    | with_reducible rfl
    | split

theorem State.reqExchange_keeps {b s : State} (h : Keeps b s) {a0 a1 a2 a3 a4} :
    Keeps b (State.reqExchange s a0 a1 a2 a3 a4) := by
  unfold State.reqExchange
  repeat' first
    | with_reducible assumption
    | with_reducible apply State.reply_keeps
    | with_reducible apply State.modRegion_keeps
    | with_reducible apply State.acceptOp_keeps
    | with_reducible refine Keeps.foldl (fun _ _ _ => ?_) ?_
    | with_reducible rfl
    | split
    | dsimp only

theorem State.reqCover_keeps {b s : State} (h : Keeps b s) {a0 a1 a2 a3 a4} : Keeps b (State.reqCover s a0 a1 a2 a3 a4) := by
  unfold State.reqCover
  repeat' first
    | with_reducible assumption
    | with_reducible apply State.coverNow_keeps
    | with_reducible apply State.forward_keeps
    | with_reducible apply State.reply_keeps
    | with_reducible rfl
    | split
    | dsimp only

theorem State.reqKeygen_keeps {b s : State} (h : Keeps b s) {a0 a1 a2} : Keeps b (State.reqKeygen s a0 a1 a2) := by
  unfold State.reqKeygen
  repeat' first
    | with_reducible assumption
    | with_reducible apply State.acceptOp_keeps
    | with_reducible apply State.kgTransition_keeps
    | with_reducible apply State.reply_keeps
    | with_reducible rfl
    | split
    | with_reducible refine Keeps.upd ?_ ?_
    | dsimp only

theorem State.reqRecclr_keeps {b s : State} (h : Keeps b s) {a0 a1 a2} : Keeps b (State.reqRecclr s a0 a1 a2) := by
  unfold State.reqRecclr
  repeat' first
    | with_reducible assumption
    | with_reducible apply State.acceptOp_keeps
    | with_reducible apply State.reply_keeps
    | with_reducible rfl
    | split
    | with_reducible refine Keeps.upd ?_ ?_

theorem State.reqMemtest_keeps {b s : State} (h : Keeps b s) {a0 a1} : Keeps b (State.reqMemtest s a0 a1) := by
  unfold State.reqMemtest
  repeat' first
    | with_reducible assumption
    | with_reducible apply State.acceptOp_keeps
    | with_reducible apply State.emptyFreeBank_keeps
    | with_reducible rfl
    | with_reducible refine Keeps.upd ?_ ?_
    | dsimp only

theorem State.noOp_keeps {b s : State} (h : Keeps b s) {a0 a1 a2} : Keeps b (State.noOp s a0 a1 a2) := by
  unfold State.noOp
  repeat' first
    | with_reducible assumption
    | with_reducible apply State.reply_keeps
    | with_reducible rfl
    | split

theorem State.reqOpdata_keeps {b s : State} (h : Keeps b s) {a0 a1 a2} : Keeps b (State.reqOpdata s a0 a1 a2) := by
  unfold State.reqOpdata
  repeat' first
    | with_reducible assumption
    | with_reducible apply State.noOp_keeps
    | with_reducible apply State.cancelOp_keeps
    | with_reducible apply State.dumpRead_keeps
    | with_reducible apply State.reply_keeps
    | with_reducible rfl
    | split
    | with_reducible refine Keeps.upd ?_ ?_
    | dsimp only

theorem State.endStage_keeps {b s : State} (h : Keeps b s) {a0 a1} : Keeps b (State.endStage s a0 a1) := by
  unfold State.endStage
  repeat' first
    | with_reducible assumption
    | with_reducible apply State.finishOp_keeps
    | with_reducible apply State.event_keeps
    | with_reducible rfl
    | split
    | with_reducible refine Keeps.upd ?_ ?_
    | dsimp only

theorem State.reqOpend_keeps {b s : State} (h : Keeps b s) {a0 a1 a2 a3} : Keeps b (State.reqOpend s a0 a1 a2 a3) := by
  unfold State.reqOpend
  repeat' first
    | with_reducible assumption
    | with_reducible apply State.endStage_keeps
    | with_reducible apply State.noOp_keeps
    | with_reducible apply State.emptyFreeBank_keeps
    | with_reducible apply State.finishOp_keeps
    | with_reducible apply State.modRegion_keeps
    | with_reducible rfl
    | split
    | with_reducible refine Keeps.upd ?_ ?_
    | dsimp only

theorem State.reqOpcancel_keeps {b s : State} (h : Keeps b s) {a0 a1} : Keeps b (State.reqOpcancel s a0 a1) := by
  unfold State.reqOpcancel
  repeat' first
    | with_reducible assumption
    | with_reducible apply State.noOp_keeps
    | with_reducible apply State.cancelOp_keeps
    | with_reducible rfl
    | split
    | with_reducible refine Keeps.upd ?_ ?_

theorem longOpCompleteOp_keeps {b s : State} (h : Keeps b s) {a0} : Keeps b (longOpCompleteOp a0 s) := by
  unfold longOpCompleteOp
  repeat' first
    | with_reducible assumption
    | with_reducible apply State.kgPerform_keeps
    | with_reducible apply State.finishOp_keeps
    | with_reducible apply State.newRecord_keeps
    | with_reducible rfl
    | split
    | with_reducible refine Keeps.upd ?_ ?_
    | dsimp only

theorem State.reqMoves_keeps {b s : State} (h : Keeps b s) {a0 a1 a2} : Keeps b (State.reqMoves s a0 a1 a2) := by
  unfold State.reqMoves
  repeat' first
    | with_reducible assumption
    | with_reducible apply State.hostMoves_keeps
    | with_reducible apply State.reply_keeps
    | with_reducible rfl
    | split
    | dsimp only

theorem State.performReq_keeps {b s : State} (h : Keeps b s) {a0 a1 a2} : Keeps b (State.performReq s a0 a1 a2) := by
  unfold State.performReq
  repeat' first
    | with_reducible assumption
    | with_reducible apply State.reqMoves_keeps
    | with_reducible apply State.reqOpcancel_keeps
    | with_reducible apply State.reqOpend_keeps
    | with_reducible apply State.reqOpdata_keeps
    | with_reducible apply State.reqMemtest_keeps
    | with_reducible apply State.reqRecclr_keeps
    | with_reducible apply State.reqKeygen_keeps
    | with_reducible apply State.reqCover_keeps
    | with_reducible apply State.reqExchange_keeps
    | with_reducible apply State.reqLoad_keeps
    | with_reducible apply State.acceptOp_keeps
    | with_reducible apply State.reply_keeps
    | with_reducible rfl
    | split
    | dsimp only

theorem State.request_keeps {b s : State} (h : Keeps b s) {a0 a1 a2} : Keeps b (State.request s a0 a1 a2) := by
  unfold State.request
  repeat' first
    | with_reducible assumption
    | with_reducible apply State.performReq_keeps
    | with_reducible apply State.reply_keeps
    | with_reducible apply State.draw_keeps
    | with_reducible rfl
    | split
    | with_reducible refine Keeps.upd ?_ ?_
    | dsimp only

theorem hostDataOp_keeps {b s : State} (h : Keeps b s) {a0 a1 a2 a3 a4} : Keeps b (hostDataOp a0 a1 a2 a3 a4 s) := by
  unfold hostDataOp
  repeat' first
    | with_reducible assumption
    | with_reducible apply State.request_keeps
    | with_reducible apply State.alertSession_keeps
    | with_reducible apply State.setSession_keeps
    | with_reducible rfl
    | split
    | dsimp only

end Sys2Proof.Machine
end

