-- ==== Sys2Proof/Laws/KeepsLane.lean ====
section
/-! SUPPORT. The operations of the lanes keep what Laws/Keeps.lean names. -/

namespace Sys2Proof.Machine

/-! ### LaneCore -/

theorem State.laneViol_keeps {b s : State} (h : Keeps b s) {a0 a1 a2} : Keeps b (State.laneViol s a0 a1 a2) := by
  unfold State.laneViol
  repeat' first
    | with_reducible assumption
    | with_reducible apply State.violation_keeps
    | with_reducible rfl
    | split

theorem State.sample_keeps {b s : State} (h : Keeps b s) {a0 a1 a2} : Keeps b (State.sample s a0 a1 a2).1 := by
  unfold State.sample
  repeat' first
    | with_reducible assumption
    | with_reducible apply State.moveRead_keeps
    | split

theorem State.resolveLoads_keeps {b s : State} (h : Keeps b s) {a0} : Keeps b (State.resolveLoads s a0) := by
  unfold State.resolveLoads
  repeat' first
    | with_reducible assumption
    | with_reducible apply State.modLane_keeps
    | with_reducible refine Keeps.foldl (fun _ _ _ => ?_) ?_
    | with_reducible rfl
    | split
    | dsimp only

theorem State.unitStore_keeps {b s : State} (h : Keeps b s) {a0 a1 a2 a3 a4} :
    Keeps b (State.unitStore s a0 a1 a2 a3 a4) := by
  unfold State.unitStore
  repeat' first
    | with_reducible assumption
    | with_reducible apply State.resolveEv_keeps
    | with_reducible apply State.modLane_keeps
    | with_reducible apply State.laneViol_keeps
    | split
    | dsimp only

theorem State.stackEvent_keeps {b s : State} (h : Keeps b s) {a0 a1 a2} : Keeps b (State.stackEvent s a0 a1 a2) := by
  unfold State.stackEvent
  repeat' first
    | with_reducible assumption
    | with_reducible apply State.programFault_keeps
    | with_reducible rfl
    | split

theorem State.blPerform_keeps {b s : State} (h : Keeps b s) {a0 a1} : Keeps b (State.blPerform s a0 a1) := by
  unfold State.blPerform
  repeat' first
    | with_reducible assumption
    | with_reducible apply State.stackEvent_keeps
    | with_reducible apply State.unitStore_keeps
    | with_reducible apply State.laneViol_keeps
    | with_reducible apply State.resolveEv_keeps
    | with_reducible apply State.setLane_keeps
    | with_reducible rfl
    | split
    | dsimp only

theorem State.macStart_keeps {b s : State} (h : Keeps b s) {a0 a1 a2 a3 a4} : Keeps b (State.macStart s a0 a1 a2 a3 a4) := by
  unfold State.macStart
  repeat' first
    | with_reducible assumption
    | with_reducible apply State.memCheck_keeps
    | with_reducible apply State.modLane_keeps
    | with_reducible apply State.setLane_keeps
    | with_reducible rfl
    | split
    | dsimp only

theorem State.lsStart_keeps {b s : State} (h : Keeps b s) {a0 a1 a2 a3 a4 a5 a6} :
    Keeps b (State.lsStart s a0 a1 a2 a3 a4 a5 a6) := by
  unfold State.lsStart
  repeat' first
    | with_reducible assumption
    | with_reducible apply State.setLane_keeps
    | with_reducible apply State.modLane_keeps
    | with_reducible apply State.trailMismatch_keeps
    | with_reducible apply State.laneViol_keeps
    | with_reducible apply State.unitStore_keeps
    | with_reducible apply State.resolveEv_keeps
    | split
    | dsimp only

theorem State.iuStart_keeps {b s : State} (h : Keeps b s) {a0 a1 a2 a3 a4 a5} :
    KeepsO b (State.iuStart s a0 a1 a2 a3 a4 a5) := by
  unfold State.iuStart
  extract_lets x r ptr trail reach words
  clear_value words
  split
  · rename_i ws op
    extract_lets s0
    have h0 : Keeps b s0 := by
      dsimp only [s0]
      split
      · exact h
      · exact Keeps.foldl (fun _ _ k => State.fill_keeps k) h
    clear_value s0
    split
    · exact KeepsO.some (State.mismatch_keeps h0)
    · rename_i c s1 rec0 p s2 s3 t rec1 ch s4 _
      have hc : Keeps b c.1 := by
        dsimp only [c]
        split
        · exact h0
        · exact State.memCheck_keeps h0
      split
      · exact KeepsO.some hc
      · split
        · have h3 : Keeps b s3 := State.modLane_keeps (State.resolveEv_keeps hc)
          split
          · exact KeepsO.some h3
          · exact KeepsO.some (State.programFault_keeps h3)
        · exact KeepsO.some (State.modLane_keeps (State.resolveEv_keeps hc))
  · exact KeepsO.none

/-! ### LaneControl -/

theorem State.takeEntry_keeps {b s : State} (h : Keeps b s) {a0 a1 a2 a3 a4} :
    KeepsE b (State.takeEntry s a0 a1 a2 a3 a4) := by
  unfold State.takeEntry
  repeat' first
    | with_reducible assumption
    | with_reducible apply State.modRegion_keeps
    | exact KeepsE.error
    | with_reducible apply KeepsE.ok
    | split

theorem State.takeSig_keeps {b s : State} (h : Keeps b s) {a0} : Keeps b (State.takeSig s a0) := by
  unfold State.takeSig
  dsimp only
  split
  · exact State.trailMismatch_keeps h
  · rename_i e
    have k := (State.takeEntry_keeps h).get e
    split
    · exact State.trailMismatch_keeps k
    · rename_i e
      exact (State.takeEntry_keeps k).get e

theorem State.closeWindow_keeps {b s : State} (h : Keeps b s) {a0 a1} : Keeps b (State.closeWindow s a0 a1) := by
  unfold State.closeWindow
  repeat' first
    | with_reducible assumption
    | with_reducible apply State.takeSig_keeps
    | with_reducible apply State.pushClose_keeps
    | with_reducible apply State.reserve_keeps
    | with_reducible rfl
    | split
    | dsimp only

theorem State.laneFault_keeps {b s : State} (h : Keeps b s) {a0 a1 a2 a3 a4} : Keeps b (State.laneFault s a0 a1 a2 a3 a4) := by
  unfold State.laneFault
  repeat' first
    | with_reducible assumption
    | with_reducible apply State.closeWindow_keeps
    | with_reducible apply State.fold_keeps
    | with_reducible apply State.trailMismatch_keeps
    | with_reducible apply State.resolveEv_keeps
    | with_reducible apply State.pushEv_keeps
    | with_reducible apply State.programFault_keeps
    | with_reducible apply State.haltLp_keeps
    | with_reducible apply State.modRegion_keeps
    | with_reducible apply State.setLane_keeps
    | with_reducible rfl
    | split
    | dsimp only

theorem State.postFrame_keeps {b s : State} (h : Keeps b s) {a0 a1 a2 a3 a4} :
    Keeps b (State.postFrame s a0 a1 a2 a3 a4) := by
  unfold State.postFrame
  repeat' first
    | with_reducible assumption
    | with_reducible apply State.setLane_keeps
    | with_reducible apply State.resolveEv_keeps
    | with_reducible apply State.modLane_keeps
    | split
    | dsimp only

theorem State.transfer_keeps {b s : State} (h : Keeps b s) {a0 a1 a2 a3} : Keeps b (State.transfer s a0 a1 a2 a3) := by
  unfold State.transfer
  repeat' first
    | with_reducible assumption
    | with_reducible apply State.resolveEv_keeps
    | with_reducible apply State.modLane_keeps
    | with_reducible rfl
    | dsimp only

theorem State.returnIdle_keeps {b s : State} (h : Keeps b s) {a0} : Keeps b (State.returnIdle s a0) := by
  unfold State.returnIdle
  repeat' first
    | with_reducible assumption
    | with_reducible apply State.boundary_keeps
    | with_reducible apply State.idle_keeps
    | with_reducible apply State.modLp_keeps
    | with_reducible apply State.modLane_keeps
    | with_reducible rfl
    | split
    | dsimp only

theorem State.enterVector_keeps {b s : State} (h : Keeps b s) {a0 a1 a2 a3} : Keeps b (State.enterVector s a0 a1 a2 a3) := by
  unfold State.enterVector
  repeat' first
    | with_reducible assumption
    | with_reducible apply State.resolveEv_keeps
    | with_reducible apply State.modLane_keeps
    | with_reducible rfl
    | dsimp only

theorem State.takeSource_keeps {b s : State} (h : Keeps b s) {a0 a1} : Keeps b (State.takeSource s a0 a1) := by
  unfold State.takeSource
  repeat' first
    | with_reducible assumption
    | with_reducible apply State.pairSend_keeps
    | with_reducible apply State.deliver_keeps
    | with_reducible apply State.idle_keeps
    | with_reducible rfl
    | split
    | with_reducible refine Keeps.upd ?_ ?_
    | dsimp only

theorem State.endMove_keeps {b s : State} (h : Keeps b s) {a0 a1} : Keeps b (State.endMove s a0 a1) := by
  unfold State.endMove
  repeat' first
    | with_reducible assumption
    | with_reducible apply State.returnIdle_keeps
    | with_reducible apply State.resolveEv_keeps
    | with_reducible apply State.setLevels_keeps
    | with_reducible apply State.modLp_keeps
    | with_reducible apply State.modLane_keeps
    | with_reducible rfl
    | split
    | dsimp only

theorem State.control_keeps {b s : State} (h : Keeps b s) {a0 a1 a2 a3 a4 a5 a6 a7} :
    KeepsO b (State.control s a0 a1 a2 a3 a4 a5 a6 a7) := by
  unfold State.control
  repeat' first
    | with_reducible assumption
    | with_reducible apply State.transfer_keeps
    | with_reducible apply State.postFrame_keeps
    | with_reducible apply State.endMove_keeps
    | with_reducible apply State.popLevel_keeps
    | with_reducible apply State.reserve_keeps
    | with_reducible apply State.takeSource_keeps
    | with_reducible apply State.enterVector_keeps
    | with_reducible apply State.fill_keeps
    | with_reducible apply State.setLane_keeps
    | with_reducible apply State.stackEvent_keeps
    | with_reducible apply State.returnIdle_keeps
    | exact KeepsO.none
    | with_reducible apply KeepsO.some
    | split
    | dsimp only

/-! ### LaneIssue -/

theorem State.landControl_keeps {b s : State} (h : Keeps b s) {a0 a1 a2} : KeepsO b (State.landControl s a0 a1 a2) := by
  unfold State.landControl
  repeat' first
    | with_reducible assumption
    | with_reducible apply State.laneFault_keeps
    | with_reducible apply State.closeWindow_keeps
    | with_reducible apply State.control_keeps
    | with_reducible apply State.resolveEv_keeps
    | with_reducible apply KeepsO.some
    | with_reducible refine KeepsO.map (fun _ _ => ?_) ?_
    | split
    | dsimp only

theorem State.land_keeps {b s : State} (h : Keeps b s) {a0 a1 a2} : KeepsO b (State.land s a0 a1 a2) := by
  unfold State.land
  refine KeepsO.ite (KeepsO.some (State.setLane_keeps h)) ?_
  refine KeepsO.ite (KeepsO.some (State.laneViol_keeps h)) ?_
  refine KeepsO.ite (State.landControl_keeps h) ?_
  refine KeepsO.ite (KeepsO.some (State.setLane_keeps h)) ?_
  refine KeepsO.ite (KeepsO.some (State.setLane_keeps h)) ?_
  refine KeepsO.ite KeepsO.none ?_
  refine KeepsO.ite (KeepsO.some (State.setLane_keeps h)) ?_
  refine KeepsO.ite (KeepsO.some (State.macStart_keeps h)) ?_
  refine KeepsO.ite (KeepsO.some (State.lsStart_keeps h)) ?_
  exact KeepsO.ite (State.iuStart_keeps h) (KeepsO.some (State.setLane_keeps h))

theorem State.dropItem_keeps {b s : State} (h : Keeps b s) {a0 a1} : Keeps b (State.dropItem s a0 a1) := by
  unfold State.dropItem
  repeat' first
    | with_reducible assumption
    | with_reducible apply State.modLane_keeps
    | with_reducible rfl
    | dsimp only

theorem State.landFirst_keeps {b s : State} (h : Keeps b s) {a0 a1 a2} : KeepsO b (State.landFirst s a0 a1 a2) := by
  induction a1 generalizing a2 with
  | nil => exact KeepsO.none
  | cons i t ih =>
    unfold State.landFirst
    split
    · split
      · exact KeepsO.some (State.dropItem_keeps h)
      · exact ih
    · split
      · exact ih
      · split
        · exact ih
        · split
          · exact KeepsO.some (State.land_keeps (State.dropItem_keeps h) _ ‹_›)
          · exact ih

theorem State.drain_keeps {b s : State} (h : Keeps b s) {a0 a1} : Keeps b (State.drain s a0 a1) := by
  induction a1 generalizing s with
  | zero => exact h
  | succ n ih =>
    unfold State.drain
    split
    · exact ih (State.resolveLoads_keeps (State.landFirst_keeps h _ ‹_›))
    · exact h

theorem State.settle_keeps {b s : State} (h : Keeps b s) {a0} : Keeps b (State.settle s a0) := by
  unfold State.settle
  repeat' first
    | with_reducible assumption
    | with_reducible apply State.drain_keeps
    | with_reducible apply State.resolveLoads_keeps
    | with_reducible apply State.fold_keeps
    | with_reducible rfl

theorem State.stalled_keeps {b s : State} (h : Keeps b s) {a0 a1} : Keeps b (State.stalled s a0 a1) := by
  unfold State.stalled
  repeat' first
    | with_reducible assumption
    | with_reducible apply State.trailMismatch_keeps
    | with_reducible apply State.modRegion_keeps
    | with_reducible apply State.modLane_keeps
    | with_reducible rfl
    | split
    | dsimp only

theorem State.takeEntries_keeps {b s : State} (h : Keeps b s) {a0 a1 a2 a3 a4 a5} :
    KeepsE b (State.takeEntries s a0 a1 a2 a3 a4 a5) := by
  induction a4 generalizing s a5 with
  | zero => exact KeepsE.ok h
  | succ n ih =>
    unfold State.takeEntries
    split
    · exact KeepsE.error
    · rename_i e1
      split
      · exact KeepsE.error
      · rename_i e2
        have h2 := ih (State.takeEntry_keeps h _ e1) _ e2
        exact KeepsE.ok h2

theorem State.readSource_keeps {b s : State} (h : Keeps b s) {a0 a1 a2} : KeepsE b (State.readSource s a0 a1 a2) := by
  unfold State.readSource
  repeat' first
    | with_reducible assumption
    | with_reducible apply State.laneViol_keeps
    | (with_reducible refine KeepsE.get (State.takeEntry_keeps ?_) (by with_reducible assumption))
    | with_reducible apply State.sample_keeps
    | with_reducible apply State.reserve_keeps
    | exact KeepsE.error
    | with_reducible apply KeepsE.ok
    | split

theorem State.unitReads_keeps {b s : State} (h : Keeps b s) {a0 a1 a2 a3} : KeepsE b (State.unitReads s a0 a1 a2 a3) := by
  unfold State.unitReads
  repeat' first
    | with_reducible assumption
    | with_reducible apply State.takeEntries_keeps
    | with_reducible apply State.reserve_keeps
    | with_reducible apply KeepsE.ok
    | split

theorem State.readMoves_keeps {b s : State} (h : Keeps b s) {a0 a1 a2 a3} : KeepsE b (State.readMoves s a0 a1 a2 a3) := by
  induction a3 generalizing s with
  | nil => exact KeepsE.ok h
  | cons m t ih =>
    unfold State.readMoves
    split
    · exact KeepsE.error
    · rename_i e1
      have h1 := State.readSource_keeps h _ e1
      split
      · exact KeepsE.error
      · rename_i e2
        have h2 := State.unitReads_keeps h1 _ e2
        split
        · exact KeepsE.error
        · rename_i e3
          have h3 := ih h2 _ e3
          exact KeepsE.ok h3

theorem State.readFrame_keeps {b s : State} (h : Keeps b s) {a0 a1 a2 a3} : KeepsE b (State.readFrame s a0 a1 a2 a3) := by
  unfold State.readFrame
  repeat' first
    | with_reducible assumption
    | with_reducible apply State.takeEntries_keeps
    | with_reducible apply State.reserve_keeps
    | with_reducible apply State.fill_keeps
    | with_reducible apply KeepsE.ok
    | split
    | dsimp only

theorem State.moveEvent_keeps {b s : State} (h : Keeps b s) {a0 a1} : Keeps b (State.moveEvent s a0 a1) := by
  unfold State.moveEvent
  repeat' first
    | with_reducible assumption
    | with_reducible apply State.pushEv_keeps
    | with_reducible rfl
    | split

theorem State.addItem_keeps {b s : State} (h : Keeps b s) {a0 a1} : Keeps b (State.addItem s a0 a1) := by
  unfold State.addItem
  repeat' first
    | with_reducible assumption
    | with_reducible apply State.moveEvent_keeps
    | with_reducible apply State.modLane_keeps
    | with_reducible rfl
    | dsimp only

theorem State.toRepeat_keeps {b s : State} (h : Keeps b s) {a0 a1} : Keeps b (State.toRepeat s a0 a1) := by
  unfold State.toRepeat
  repeat' first
    | with_reducible assumption
    | with_reducible apply State.modRegion_keeps
    | with_reducible rfl
    | split
    | dsimp only

theorem State.controlEvents_keeps {b s : State} (h : Keeps b s) {a0 a1 a2} : Keeps b (State.controlEvents s a0 a1 a2) := by
  unfold State.controlEvents
  repeat' first
    | with_reducible assumption
    | with_reducible apply State.pushEv_keeps
    | with_reducible rfl
    | split
    | dsimp only

theorem State.faultReads_keeps {b s : State} (h : Keeps b s) {a0 a1 a2 a3 a4} :
    KeepsR b (State.faultReads s a0 a1 a2 a3 a4) := by
  have key : ∀ {α : Type} {x : Except Nat (State × α)} {f : State × α → State}, KeepsE b x → (∀ r, Keeps b r.1 → Keeps b (f r)) →
      KeepsR b (x.map f) := by
    intro α x f hx hf t e
    cases x with
    | error => cases e
    | ok r => exact Except.ok.inj e ▸ hf r (hx r rfl)
  unfold State.faultReads
  split
  · exact KeepsR.ok h
  · split
    · exact KeepsR.ok h
    · split
      · split
        · refine key (State.readSource_keeps h) (fun r k => ?_)
          split
          · exact State.fill_keeps k
          · exact k
        · exact KeepsR.ok h
      · split
        · exact key (State.readFrame_keeps h) (fun _ k => k)
        · exact KeepsR.ok h

theorem State.faultBundle_keeps {b s : State} (h : Keeps b s) {a0 a1 a2 a3 a4 a5 a6} :
    Keeps b (State.faultBundle s a0 a1 a2 a3 a4 a5 a6) := by
  unfold State.faultBundle
  split
  · exact State.trailMismatch_keeps h
  · rename_i e
    exact Keeps.ite (State.stalled_keeps h)
      (State.laneFault_keeps (State.toRepeat_keeps (State.modLane_keeps (State.faultReads_keeps h _ e))))

theorem State.issueControl_keeps {b s : State} (h : Keeps b s) {a0 a1 a2 a3 a4 a5 a6 a7 a8} :
    Keeps b (State.issueControl s a0 a1 a2 a3 a4 a5 a6 a7 a8) := by
  unfold State.issueControl
  extract_lets saved keep later read wait s0
  have hw : ∀ t, Keeps b t → Keeps b (wait t) := fun t k => State.modLane_keeps k
  have h0 : Keeps b s0 := State.controlEvents_keeps h
  split
  · split
    · rename_i e
      exact State.modLane_keeps (State.control_keeps h0 _ e)
    · exact hw _ h0
  · exact hw _ h0

theorem State.controlReads_keeps {b s : State} (h : Keeps b s) {a0 a1 a2 a3} :
    KeepsE b (State.controlReads s a0 a1 a2 a3) := by
  unfold State.controlReads
  split
  · split
    · exact KeepsE.ok h
    · exact State.readFrame_keeps h
  · exact KeepsE.ok h

theorem State.issueEffects_keeps {b s : State} (h : Keeps b s) {a0 a1 a2 a3 a4 a5} :
    KeepsR b (State.issueEffects s a0 a1 a2 a3 a4 a5) := by
  unfold State.issueEffects
  extract_lets x s1 cm own
  have h1 : Keeps b s1 := State.setLane_keeps h
  clear_value s1 cm own
  split
  · exact KeepsR.error
  · rename_i e2
    have h2 := (State.controlReads_keeps h1).get e2
    split
    · exact KeepsR.error
    · rename_i e3
      have h3 := (State.readMoves_keeps h2).get e3
      extract_lets s3
      have h3' : Keeps b s3 := State.modLane_keeps h3
      clear_value s3
      have ht : KeepsE b (if s.side a0 = .trail ∧ a5 then (s3.takeEntry a0 4 0 0 none).map (fun r => (r.1, some (entryAddr r.2, (entryValue r.2).toNat)))
          else .ok (s3, own) : Except Nat (State × Option (Nat × Nat))) := by
        split
        · exact KeepsE.map (fun _ k => k) (State.takeEntry_keeps h3')
        · exact KeepsE.ok h3'
      split
      · exact KeepsR.error
      · rename_i e4
        have h4 := ht.get e4
        extract_lets s5 s6
        have h6 : Keeps b s6 := State.drain_keeps (State.resolveLoads_keeps (Keeps.foldl (fun _ _ k => State.addItem_keeps k) h4))
        clear_value s6
        split
        · exact KeepsR.ok (State.toRepeat_keeps h6)
        · split
          · exact KeepsR.ok h6
          · exact KeepsR.ok (State.issueControl_keeps (State.toRepeat_keeps h6))

theorem State.frameCheck_keeps {b s : State} (h : Keeps b s) {a0 a1 a2 a3 a4 a5} :
    Keeps b (State.frameCheck s a0 a1 a2 a3 a4 a5).1 := by
  unfold State.frameCheck
  split
  · dsimp only
    split
    · exact State.memCheck_keeps h
    · exact h
  · exact h

theorem State.issued_keeps {b s t : State} (h : Keeps b s) (k : Keeps b t) {a0} : Keeps b (State.issued s t a0) := by
  unfold State.issued
  exact Keeps.ite (State.stalled_keeps h) (Keeps.ite (State.stalled_keeps h) (State.fold_keeps k))

theorem State.issueMoves_keeps {b s : State} (h : Keeps b s) {a0 a1 a2 a3 a4} :
    Keeps b (State.issueMoves s a0 a1 a2 a3 a4) := by
  unfold State.issueMoves
  extract_lets x act n c
  have hc : Keeps b c.1 := State.frameCheck_keeps h
  clear_value c
  split
  · exact State.stalled_keeps h
  · split
    · exact hc
    · split
      · exact State.faultBundle_keeps hc
      · split
        · exact State.trailMismatch_keeps hc
        · rename_i e
          have h1 := State.issueEffects_keeps hc _ e
          exact State.issued_keeps hc (Keeps.ite (State.closeWindow_keeps h1) h1)

theorem State.issueAt_keeps {b s : State} (h : Keeps b s) {a0 a1 a2} : Keeps b (State.issueAt s a0 a1 a2) := by
  unfold State.issueAt
  repeat' first
    | with_reducible assumption
    | with_reducible apply State.issueMoves_keeps
    | with_reducible apply State.toRepeat_keeps
    | with_reducible apply State.stalled_keeps
    | with_reducible apply State.laneFault_keeps
    | with_reducible apply State.memCheck_keeps
    | with_reducible rfl
    | split
    | dsimp only

theorem bundleIssueOp_keeps {b s : State} (h : Keeps b s) {a0} : Keeps b (bundleIssueOp a0 s) := by
  unfold bundleIssueOp
  repeat' first
    | with_reducible assumption
    | with_reducible apply State.issueAt_keeps
    | with_reducible rfl
    | split

theorem controlOp_keeps {b s : State} (h : Keeps b s) {a0 a1 a2} : Keeps b (controlOp a0 a1 a2 s) := by
  unfold controlOp
  repeat' first
    | with_reducible assumption
    | with_reducible apply State.issueAt_keeps
    | with_reducible rfl
    | split

/-! ### LaneEvents -/

theorem State.deliver1_keeps {b s : State} (h : Keeps b s) {a0 a1} : Keeps b (State.deliver1 s a0 a1) := by
  unfold State.deliver1
  repeat' first
    | with_reducible assumption
    | with_reducible apply State.settle_keeps
    | with_reducible apply State.memCheck_keeps
    | with_reducible apply State.resolveEv_keeps
    | with_reducible apply State.fill_keeps
    | with_reducible apply State.modLane_keeps
    | with_reducible rfl
    | split
    | dsimp only

theorem loadDeliveryOp_keeps {b s : State} (h : Keeps b s) {a0 a1} : Keeps b (loadDeliveryOp a0 a1 s) := by
  unfold loadDeliveryOp
  repeat' first
    | with_reducible assumption
    | with_reducible apply State.deliver1_keeps
    | with_reducible apply State.resolveLoads_keeps
    | with_reducible rfl
    | split
    | dsimp only

theorem State.mxClose_keeps {b s : State} (h : Keeps b s) {a0} : Keeps b (State.mxClose s a0) := by
  unfold State.mxClose
  repeat' first
    | with_reducible assumption
    | with_reducible apply State.closeWindow_keeps
    | with_reducible apply State.fold_keeps
    | with_reducible apply State.modRegion_keeps
    | with_reducible rfl
    | split
    | dsimp only

theorem triggerWriteWaitOp_keeps {b s : State} (h : Keeps b s) {a0} : Keeps b (triggerWriteWaitOp a0 s) := by
  unfold triggerWriteWaitOp
  repeat' first
    | with_reducible assumption
    | with_reducible apply State.mxClose_keeps
    | with_reducible apply State.settle_keeps
    | with_reducible apply State.modLane_keeps
    | with_reducible rfl
    | split
    | dsimp only

theorem storePerformedOp_keeps {b s : State} (h : Keeps b s) {a0} : Keeps b (storePerformedOp a0 s) := by
  unfold storePerformedOp
  repeat' first
    | with_reducible assumption
    | with_reducible apply State.settle_keeps
    | with_reducible apply State.dropItem_keeps
    | with_reducible apply State.moveWrite_keeps
    | with_reducible rfl
    | split
    | dsimp only

theorem State.appear_keeps {b s : State} (h : Keeps b s) {a0 a1} : Keeps b (State.appear s a0 a1) := by
  unfold State.appear
  repeat' first
    | with_reducible assumption
    | with_reducible apply State.settle_keeps
    | with_reducible apply State.arrive_keeps
    | with_reducible apply State.modLane_keeps
    | with_reducible rfl
    | split
    | dsimp only

theorem State.blStep_keeps {b s : State} (h : Keeps b s) {a0 a1} : Keeps b (State.blStep s a0 a1) := by
  induction a1 generalizing s with
  | zero => exact h
  | succ n ih =>
    unfold State.blStep
    split
    · exact h
    · exact ih (State.blPerform_keeps (State.modLane_keeps h))

theorem resultAppearsOp_keeps {b s : State} (h : Keeps b s) {a0 a1} : Keeps b (resultAppearsOp a0 a1 s) := by
  unfold resultAppearsOp
  repeat' first
    | with_reducible assumption
    | with_reducible apply State.blStep_keeps
    | with_reducible apply State.appear_keeps
    | with_reducible apply State.deliver1_keeps
    | with_reducible apply State.settle_keeps
    | with_reducible apply State.resolveLoads_keeps
    | with_reducible rfl
    | split
    | dsimp only

theorem iuWritebackOp_keeps {b s : State} (h : Keeps b s) {a0} : Keeps b (iuWritebackOp a0 s) := by
  unfold iuWritebackOp
  repeat' first
    | with_reducible assumption
    | with_reducible apply State.settle_keeps
    | with_reducible apply State.modLane_keeps
    | with_reducible apply State.memSet_keeps
    | with_reducible refine Keeps.foldl (fun _ _ _ => ?_) ?_
    | with_reducible rfl
    | split
    | dsimp only

theorem laneTrigger_keeps {b s : State} (h : Keeps b s) {a0 a1 a2} : Keeps b (laneTrigger a0 a1 a2 s) := by
  unfold laneTrigger
  repeat' first
    | with_reducible assumption
    | with_reducible apply State.addItem_keeps
    | with_reducible apply State.settle_keeps
    | with_reducible apply State.trailMismatch_keeps
    | with_reducible apply State.modLane_keeps
    | with_reducible rfl
    | split
    | (with_reducible refine KeepsE.get (State.unitReads_keeps ?_) (by with_reducible assumption))
    | dsimp only

theorem State.enterFrame_keeps {b s : State} (h : Keeps b s) {a0 a1 a2} : Keeps b (State.enterFrame s a0 a1 a2) := by
  unfold State.enterFrame
  repeat' first
    | with_reducible assumption
    | with_reducible apply State.controlEvents_keeps
    | with_reducible apply State.enterVector_keeps
    | with_reducible apply State.postFrame_keeps
    | with_reducible apply State.fold_keeps
    | with_reducible apply State.modLane_keeps
    | with_reducible rfl
    | dsimp only

theorem State.enterHandler_keeps {b s : State} (h : Keeps b s) {a0 a1} : Keeps b (State.enterHandler s a0 a1) := by
  unfold State.enterHandler
  repeat' first
    | with_reducible assumption
    | with_reducible apply State.enterFrame_keeps
    | with_reducible apply State.toRepeat_keeps
    | with_reducible apply State.takeSource_keeps
    | with_reducible apply State.laneFault_keeps
    | with_reducible apply State.reserve_keeps
    | with_reducible apply State.idle_keeps
    | with_reducible apply State.modLp_keeps
    | with_reducible apply State.setLane_keeps
    | with_reducible rfl
    | split
    | dsimp only

theorem handlerDeliveryOp_keeps {b s : State} (h : Keeps b s) {a0} : Keeps b (handlerDeliveryOp a0 s) := by
  unfold handlerDeliveryOp
  repeat' first
    | with_reducible assumption
    | with_reducible apply State.enterHandler_keeps
    | with_reducible apply State.deliver_keeps
    | with_reducible rfl
    | split

theorem iarrOp_keeps {b s : State} (h : Keeps b s) {a0 a1 a2 a3} : Keeps b (iarrOp a0 a1 a2 a3 s) := by
  unfold iarrOp
  repeat' first
    | with_reducible assumption
    | with_reducible apply handlerDeliveryOp_keeps
    | with_reducible rfl
    | split
    | with_reducible refine Keeps.upd ?_ ?_

theorem State.trailEntry_keeps {b s : State} (h : Keeps b s) {a0} : Keeps b (State.trailEntry s a0) := by
  unfold State.trailEntry
  repeat' first
    | with_reducible assumption
    | with_reducible apply State.enterFrame_keeps
    | with_reducible apply State.trailMismatch_keeps
    | with_reducible rfl
    | split
    | (with_reducible refine KeepsE.get (State.takeEntry_keeps ?_) (by with_reducible assumption))
    | dsimp only

theorem State.trailRepeat_keeps {b s : State} (h : Keeps b s) {a0 a1} : Keeps b (State.trailRepeat s a0 a1) := by
  unfold State.trailRepeat
  repeat' first
    | with_reducible assumption
    | with_reducible apply State.trailEntry_keeps
    | with_reducible apply State.issueAt_keeps
    | with_reducible apply State.stalled_keeps
    | with_reducible apply State.laneFault_keeps
    | with_reducible apply State.closeWindow_keeps
    | with_reducible apply State.fold_keeps
    | with_reducible apply State.trailMismatch_keeps
    | with_reducible apply State.modRegion_keeps
    | with_reducible apply State.setLane_keeps
    | with_reducible rfl
    | split
    | dsimp only

theorem trailIssueOp_keeps {b s : State} (h : Keeps b s) {a0} : Keeps b (trailIssueOp a0 s) := by
  unfold trailIssueOp
  repeat' first
    | with_reducible assumption
    | with_reducible apply State.trailRepeat_keeps
    | with_reducible apply State.mxClose_keeps
    | with_reducible apply State.modRegion_keeps
    | with_reducible rfl
    | split
    | dsimp only

theorem maxrunExpiryOp_keeps {b s : State} (h : Keeps b s) {a0} : Keeps b (maxrunExpiryOp a0 s) := by
  unfold maxrunExpiryOp
  repeat' first
    | with_reducible assumption
    | with_reducible apply State.mxClose_keeps
    | with_reducible apply State.haltLp_keeps
    | with_reducible apply State.event_keeps
    | with_reducible apply State.modRegion_keeps
    | with_reducible rfl
    | split
    | dsimp only

/-! ### CmdField -/

theorem fieldLostOp_keeps {b s : State} (h : Keeps b s) : Keeps b (fieldLostOp s) := by
  unfold fieldLostOp
  repeat' first
    | with_reducible assumption
    | with_reducible apply State.relinquishFor_keeps
    | with_reducible apply flostOp_keeps
    | with_reducible rfl
    | split
    | dsimp only

/-! ### CmdLane -/

theorem registerWriteOp_keeps {b s : State} (h : Keeps b s) {a0 a1 a2} : Keeps b (registerWriteOp a0 a1 a2 s) := by
  unfold registerWriteOp
  repeat' first
    | with_reducible assumption
    | with_reducible apply laneTrigger_keeps
    | with_reducible apply controlOp_keeps
    | with_reducible apply State.moveWrite_keeps
    | with_reducible rfl
    | split
    | dsimp only

end Sys2Proof.Machine
end

