-- ==== Sys2Proof/Laws/Lane.lean ====
section
/-! SUPPORT. What the lane's shared operations do in a lane that runs alone. -/

namespace Sys2Proof.Machine

@[simp] theorem State.lane_setLane (s : State) (l : Nat) (x : Lane) : (s.setLane l x).lane l = x := by
  simp [State.lane, State.setLane]
theorem State.lane_setLane_ne (s : State) {l k : Nat} (x : Lane) (h : k ≠ l) : (s.setLane l x).lane k = s.lane k := by
  simp [State.lane, State.setLane, SMap.get_set_other, h]
@[simp] theorem State.side_setLane (s : State) (l k : Nat) (x : Lane) : (s.setLane l x).side k = s.side k := rfl
@[simp] theorem State.region_setLane (s : State) (l r : Nat) (x : Lane) : (s.setLane l x).region r = s.region r := rfl
@[simp] theorem State.lpFor_setLane (s : State) (l k : Nat) (x : Lane) : (s.setLane l x).lpFor k = s.lpFor k := rfl

theorem State.onlyLane.refl (s : State) (l : Nat) : s.onlyLane s l := ⟨rfl, fun _ _ => rfl⟩
theorem State.onlyLane.trans {s t u : State} {l : Nat} (h : s.onlyLane t l) (k : t.onlyLane u l) : s.onlyLane u l := by
  obtain ⟨h1, h2⟩ := h
  obtain ⟨k1, k2⟩ := k
  refine ⟨?_, fun j hj => (k2 j hj).trans (h2 j hj)⟩
  rw [k1, h1]
theorem State.onlyLane.set (s : State) (l : Nat) (x : Lane) : s.onlyLane (s.setLane l x) l :=
  ⟨rfl, fun _ h => s.lane_setLane_ne x h⟩
theorem State.onlyLane.side {s t : State} {l : Nat} (h : s.onlyLane t l) (k : Nat) : t.side k = s.side k := by
  rw [h.1]; rfl

/-- Nothing folds in a lane alone whose events have all folded. -/
theorem State.fold_solo (s : State) (l : Nat) (h : s.side l = .solo) (e : (s.lane l).evq = []) :
    s.onlyLane (s.fold l) l ∧ (s.fold l).lane l = s.lane l := by
  have hx : ({ s.lane l with sig := (s.lane l).sig, evq := [] } : Lane) = s.lane l := by rw [← e]
  have : s.fold l = s.setLane l (s.lane l) := by
    simp only [State.fold, e, foldEvs, State.modLane, hx]
    rw [State.side_setLane, h]
  rw [this]
  exact ⟨State.onlyLane.set s l _, by simp⟩

theorem State.resolveLoads_nil (s : State) (l : Nat) (h : (s.lane l).items = []) : s.resolveLoads l = s := by
  simp [State.resolveLoads, h]

theorem State.drain_nil (s : State) (l k : Nat) (h : (s.lane l).items = []) : s.drain l k = s := by
  cases k with
  | zero => rfl
  | succ k => simp [State.drain, h, State.landFirst]

/-- A lane with nothing in flight settles to itself. -/
theorem State.settle_nil (s : State) (l : Nat) (h : s.side l = .solo) (e : (s.lane l).evq = []) (hi : (s.lane l).items = []) :
    s.onlyLane (s.settle l) l ∧ (s.settle l).lane l = s.lane l := by
  unfold State.settle
  rw [s.resolveLoads_nil l hi, s.drain_nil l 64 hi]
  exact s.fold_solo l h e

/-- The one move in flight takes effect. -/
theorem State.settle_one (s t : State) (l : Nat) (i : Item) (v : Word) (h : (s.lane l).items = [i]) (hl : i.ld = none)
    (hv : i.val = some v) (ho : outside i.dst = false) (ht : (s.dropItem l i).land l i v = some t)
    (hs : t.side l = .solo) (he : (t.lane l).evq = []) (hi : (t.lane l).items = []) :
    t.onlyLane (s.settle l) l ∧ (s.settle l).lane l = t.lane l := by
  have hr : s.resolveLoads l = s := by simp [State.resolveLoads, h, hl]
  have hd : s.drain l 64 = t := by
    simp only [State.drain, h, State.landFirst, ho, hv, List.contains_nil, ht]
    simp only [Bool.false_eq_true, if_false]
    rw [t.resolveLoads_nil l hi]
    exact t.drain_nil l 63 hi
  unfold State.settle
  rw [hr, hd]
  exact t.fold_solo l hs he


/-! ### Triggers in a lane that is ready -/

theorem State.pushEv_solo (s : State) (l : Nat) (tag : Nat × Nat) (w : Option (BitVec 64)) (h : s.side l = .solo) :
    s.pushEv l tag w = s := by simp [State.pushEv, h]
theorem State.reserve_solo (s : State) (l : Nat) (es : List REntry) (h : s.side l = .solo) : s.reserve l es = s := by
  simp [State.reserve, h]
theorem State.fill_solo (s : State) (l q a : Nat) (v : Word) (h : s.side l = .solo) : s.fill l q a v = s := by
  simp [State.fill, h]
theorem State.moveEvent_solo (s : State) (l : Nat) (i : Item) (h : s.side l = .solo) : s.moveEvent l i = s := by
  unfold State.moveEvent
  repeat' split
  all_goals first | rfl | exact s.pushEv_solo l _ _ h

/-- A trigger in a lane that is ready: the lane is z once the move has taken effect, whatever state of the lane's own
it takes effect in. -/
theorem State.trigger_ready (s : State) (l : Fin 8) (a : Nat) (v : Word) (z : Lane) (hr : s.ready l.val) (ho : outside a = false)
    (hz : z.items = []) (he : z.evq = [])
    (hl : ∀ (s0 : State) (i : Item), s.onlyLane s0 l.val → s0.lane l.val = { s.lane l.val with seq := s.nextSeq l.val } →
      i.dst = a → i.seq = 64 * s.nextSeq l.val → i.val = some v → i.cin = (s.lane l.val).flags.c →
      i.baddr = (s.lane l.val).pc → i.slot = 0 → i.unit = false → ∃ t, s0.land l.val i v = some t ∧ s.onlyLane t l.val ∧ t.lane l.val = z) :
    s.onlyLane (laneTrigger a l v s) l.val ∧ (laneTrigger a l v s).lane l.val = z := by
  obtain ⟨h0, h1, h2, h3, h4, h5, h6, -, -⟩ := hr
  have hx : ∀ y : Lane, y = { y with items := y.items } := fun _ => rfl
  unfold laneTrigger
  have hf : ¬ (regionPresent (l.val / 2) = false ∨ 32 ≤ (s.lane l.val).inFlight ∨
      ((a = 0x85 ∨ a = 0x87) ∧ (s.lane l.val).flagPending = true)) := by
    simp [h0, Lane.inFlight, Lane.flagPending, h2, h3, h4, h5]
  have hv : s.overFull l.val = false := by simp [State.overFull, h1]
  simp only [if_neg hf, State.unitReads, h1, reduceCtorEq, if_false, State.reserve_solo s _ _ h1, hv, Bool.false_eq_true]
  generalize hi : Item.mk (64 * s.nextSeq l.val) (s.lane l.val).pc 0 a (some v) none (s.lane l.val).flags.c [] false = i
  have hi1 : i.dst = a := by rw [← hi]
  have hi2 : i.val = some v := by rw [← hi]
  have hi3 : i.ld = none := by rw [← hi]
  generalize hw : (s.modLane l.val (fun x => { x with seq := s.nextSeq l.val })).addItem l.val i = w
  have hw1 : s.onlyLane w l.val := by
    rw [← hw]
    unfold State.addItem
    rw [State.moveEvent_solo _ _ _ (by exact h1)]
    exact (State.onlyLane.set s l.val _).trans (State.onlyLane.set _ l.val _)
  have hw2 : w.lane l.val = { s.lane l.val with seq := s.nextSeq l.val, items := [i] } := by
    rw [← hw]
    unfold State.addItem
    rw [State.moveEvent_solo _ _ _ (by exact h1)]
    simp [State.modLane, h2]
  obtain ⟨t, ht, ht1, ht2⟩ := hl (w.dropItem l.val i) i (hw1.trans (State.onlyLane.set w l.val _))
    (by simp [State.dropItem, State.modLane, hw2, ← h2]) hi1 (by rw [← hi]) hi2 (by rw [← hi]) (by rw [← hi]) (by rw [← hi]) (by rw [← hi])
  have hs := State.settle_one w t l.val i v (by rw [hw2]) hi3 hi2 (by rw [hi1]; exact ho) ht
    (by rw [ht1.side, h1]) (by rw [ht2, he]) (by rw [ht2, hz])
  exact ⟨ht1.trans hs.1, hs.2.trans ht2⟩

/-- Setting ports sets ports alone. -/
theorem Lane.setPorts_eq (ps : List (Nat × Word)) (x : Lane) :
    x.setPorts ps = { x with ports := ps.foldl (fun m e => m.set portDefault e.1 e.2) x.ports } := by
  induction ps generalizing x with
  | nil => rfl
  | cons e t ih => exact (ih (x.setPort e.1 e.2)).trans rfl

/-- An arithmetic trigger in a lane that is ready, and its result. -/
theorem State.arith_ready (s : State) (l : Fin 8) (a : Nat) (v : Word) (g : ResGroup) (lat : Nat) (r : UnitRes) (busy : Bool)
    (hr : s.ready l.val) (ha : arithTrigger a = true) (hg : triggerGroup a = some g) (hp : portValue a v = v)
    (hm : mayWrite .program a = true)
    (hx : ∀ x : Lane, x.pend = [] → (∀ k, x.port k = (s.lane l.val).port k) →
      x.arith a (64 * s.nextSeq l.val) v (s.lane l.val).flags.c =
      x.start g (64 * s.nextSeq l.val) lat r false busy none)
    (i : Instr) (hi : exec i s = .next (laneTrigger a l v s)) (hgg : g ≠ .bl ∧ g ≠ .ls) : Computes i l g s r := by
  have hr' := hr
  obtain ⟨h0, h1, h2, h3, h4, h5, h6, h7, h8⟩ := hr'
  have hb : blTrigger a = false ∧ controlMove a = false ∧ outside a = false ∧ a ≠ 0x1D0 ∧ a ≠ 0x00C := by
    simp only [arithTrigger, decide_eq_true_eq] at ha
    simp only [blTrigger, controlMove, outside, decide_eq_false_iff_not]
    omega
  obtain ⟨b1, b2, b3, b4, b5⟩ := hb
  have ht := s.trigger_ready l a v ({ s.lane l.val with seq := s.nextSeq l.val }.start g (64 * s.nextSeq l.val) lat r false busy none)
    hr b3 h2 h6 (by
      intro s0 j ho hl0 hd hq hv hc _ _ hu
      refine ⟨s0.setLane l.val ((s0.lane l.val).arith a j.seq v j.cin), ?_, ho.trans (State.onlyLane.set s0 l.val _), ?_⟩
      · unfold State.land
        have hacc : (s0.lane l.val).accepts a = true := by
          rw [hl0]
          unfold Lane.accepts
          rw [hg]
          split <;> simp_all [arithTrigger]
          split <;> simp_all
        simp only [hd, hu, hp, b5, b1, b2, hm, hacc, ha, if_false, if_true, Bool.not_true, Bool.false_eq_true]
      · rw [State.lane_setLane, hq, hc, hl0]
        exact hx _ h3 (fun k => rfl))
  refine ⟨_, hi, ht.1, resultAppearsOp l g (laneTrigger a l v s), rfl, ?_⟩
  generalize hP : Pend.mk g (64 * s.nextSeq l.val) ((s.lane l.val).cyc + lat) r.ports (some (r.z, r.n, r.c, r.v))
    r.dz r.sat false busy none = P
  have hl2 := ht.2
  simp only [Lane.start, h3, List.nil_append, hP] at hl2
  have hfind : ((laneTrigger a l v s).lane l.val).pend.find? (fun r => r.g == g) = some P := by
    rw [hl2]; simp [← hP]
  have he : resultAppearsOp l g (laneTrigger a l v s) = (laneTrigger a l v s).appear l.val P := by
    unfold resultAppearsOp
    rw [if_neg (by simp [h0])]
    cases g <;> simp_all
  rw [he]
  unfold State.appear
  have hPa : P.arith = false := by rw [← hP]
  simp only [hPa, Bool.false_eq_true, false_and, if_false]
  generalize hu : (laneTrigger a l v s).modLane l.val _ = u
  have hu1 : s.onlyLane u l.val := by rw [← hu]; exact ht.1.trans (State.onlyLane.set _ l.val _)
  have hu2 : u.lane l.val = { (s.lane l.val).setPorts r.ports with
        seq := s.nextSeq l.val
        flagSeq := 64 * s.nextSeq l.val
        flags := { (s.lane l.val).flags with
          z := r.z, n := r.n, c := r.c, v := r.v
          dz := (s.lane l.val).flags.dz || r.dz, sat := (s.lane l.val).flags.sat || r.sat } } := by
    rw [← hu]
    simp only [State.modLane, State.lane_setLane, hl2, Lane.setPorts_eq]
    rw [← hP]
    simp [h8, h3, Flags.setArith]
  have h9 := u.settle_nil l.val (by rw [hu1.side, h1]) (by rw [hu2]; simp only [Lane.setPorts_eq]; exact h6)
    (by rw [hu2]; simp only [Lane.setPorts_eq]; exact h2)
  exact ⟨hu1.trans h9.1, h9.2.trans hu2⟩

end Sys2Proof.Machine
end

