-- ==== Sys2Proof/Laws/State.lean ====
section
/-! SUPPORT. What each update of the state leaves as it was: State.<update>_<field>, one lemma for each field that the update
does not write, so that no proof unfolds a record update. What an update writes is said by Laws/SMap.lean. -/

namespace Sys2Proof.Machine

section
variable (s : State) (l : Nat) (x : Lane)

@[simp] theorem State.setLane_time : (s.setLane l x).time = s.time := rfl
@[simp] theorem State.setLane_warm : (s.setLane l x).warm = s.warm := rfl
@[simp] theorem State.setLane_econ : (s.setLane l x).econ = s.econ := rfl
@[simp] theorem State.setLane_econNext : (s.setLane l x).econNext = s.econNext := rfl
@[simp] theorem State.setLane_boot : (s.setLane l x).boot = s.boot := rfl
@[simp] theorem State.setLane_halted : (s.setLane l x).halted = s.halted := rfl
@[simp] theorem State.setLane_resetReq : (s.setLane l x).resetReq = s.resetReq := rfl
@[simp] theorem State.setLane_lps : (s.setLane l x).lps = s.lps := rfl
@[simp] theorem State.setLane_tasks : (s.setLane l x).tasks = s.tasks := rfl
@[simp] theorem State.setLane_regions : (s.setLane l x).regions = s.regions := rfl
@[simp] theorem State.setLane_code : (s.setLane l x).code = s.code := rfl
@[simp] theorem State.setLane_mem : (s.setLane l x).mem = s.mem := rfl
@[simp] theorem State.setLane_prog : (s.setLane l x).prog = s.prog := rfl
@[simp] theorem State.setLane_sinks : (s.setLane l x).sinks = s.sinks := rfl
@[simp] theorem State.setLane_mram : (s.setLane l x).mram = s.mram := rfl
@[simp] theorem State.setLane_mports : (s.setLane l x).mports = s.mports := rfl
@[simp] theorem State.setLane_sports : (s.setLane l x).sports = s.sports := rfl
@[simp] theorem State.setLane_force : (s.setLane l x).force = s.force := rfl
@[simp] theorem State.setLane_wlog : (s.setLane l x).wlog = s.wlog := rfl
@[simp] theorem State.setLane_srcs : (s.setLane l x).srcs = s.srcs := rfl
@[simp] theorem State.setLane_hold : (s.setLane l x).hold = s.hold := rfl
@[simp] theorem State.setLane_hcLevels : (s.setLane l x).hcLevels = s.hcLevels := rfl
@[simp] theorem State.setLane_hcThr : (s.setLane l x).hcThr = s.hcThr := rfl
@[simp] theorem State.setLane_hcErr : (s.setLane l x).hcErr = s.hcErr := rfl
@[simp] theorem State.setLane_hcEcnt : (s.setLane l x).hcEcnt = s.hcEcnt := rfl
@[simp] theorem State.setLane_mrDi : (s.setLane l x).mrDi = s.mrDi := rfl
@[simp] theorem State.setLane_mrTs : (s.setLane l x).mrTs = s.mrTs := rfl
@[simp] theorem State.setLane_mrFseq : (s.setLane l x).mrFseq = s.mrFseq := rfl
@[simp] theorem State.setLane_mrDiSeq : (s.setLane l x).mrDiSeq = s.mrDiSeq := rfl
@[simp] theorem State.setLane_mrStat : (s.setLane l x).mrStat = s.mrStat := rfl
@[simp] theorem State.setLane_mrCtr : (s.setLane l x).mrCtr = s.mrCtr := rfl
@[simp] theorem State.setLane_mrAx : (s.setLane l x).mrAx = s.mrAx := rfl
@[simp] theorem State.setLane_mrObj : (s.setLane l x).mrObj = s.mrObj := rfl
@[simp] theorem State.setLane_mrSts : (s.setLane l x).mrSts = s.mrSts := rfl
@[simp] theorem State.setLane_mrFb : (s.setLane l x).mrFb = s.mrFb := rfl
@[simp] theorem State.setLane_mrSett : (s.setLane l x).mrSett = s.mrSett := rfl
@[simp] theorem State.setLane_outForced : (s.setLane l x).outForced = s.outForced := rfl
@[simp] theorem State.setLane_flost : (s.setLane l x).flost = s.flost := rfl
@[simp] theorem State.setLane_slost : (s.setLane l x).slost = s.slost := rfl
@[simp] theorem State.setLane_psrc : (s.setLane l x).psrc = s.psrc := rfl
@[simp] theorem State.setLane_txSeq : (s.setLane l x).txSeq = s.txSeq := rfl
@[simp] theorem State.setLane_hframe : (s.setLane l x).hframe = s.hframe := rfl
@[simp] theorem State.setLane_hrx : (s.setLane l x).hrx = s.hrx := rfl
@[simp] theorem State.setLane_hrxMsgs : (s.setLane l x).hrxMsgs = s.hrxMsgs := rfl
@[simp] theorem State.setLane_lbp : (s.setLane l x).lbp = s.lbp := rfl
@[simp] theorem State.setLane_lbpPrev : (s.setLane l x).lbpPrev = s.lbpPrev := rfl
@[simp] theorem State.setLane_fdIn : (s.setLane l x).fdIn = s.fdIn := rfl
@[simp] theorem State.setLane_fdLs : (s.setLane l x).fdLs = s.fdLs := rfl
@[simp] theorem State.setLane_fdLplus : (s.setLane l x).fdLplus = s.fdLplus := rfl
@[simp] theorem State.setLane_fdDovf : (s.setLane l x).fdDovf = s.fdDovf := rfl
@[simp] theorem State.setLane_fdDiag : (s.setLane l x).fdDiag = s.fdDiag := rfl
@[simp] theorem State.setLane_ssackn : (s.setLane l x).ssackn = s.ssackn := rfl
@[simp] theorem State.setLane_safeAt : (s.setLane l x).safeAt = s.safeAt := rfl
@[simp] theorem State.setLane_reqn : (s.setLane l x).reqn = s.reqn := rfl
@[simp] theorem State.setLane_reqNow : (s.setLane l x).reqNow = s.reqNow := rfl
@[simp] theorem State.setLane_reqNext : (s.setLane l x).reqNext = s.reqNext := rfl
@[simp] theorem State.setLane_fdStage : (s.setLane l x).fdStage = s.fdStage := rfl
@[simp] theorem State.setLane_cfgDue : (s.setLane l x).cfgDue = s.cfgDue := rfl
@[simp] theorem State.setLane_cfgQ : (s.setLane l x).cfgQ = s.cfgQ := rfl
@[simp] theorem State.setLane_schedOut : (s.setLane l x).schedOut = s.schedOut := rfl
@[simp] theorem State.setLane_busOut : (s.setLane l x).busOut = s.busOut := rfl
@[simp] theorem State.setLane_ptStage : (s.setLane l x).ptStage = s.ptStage := rfl
@[simp] theorem State.setLane_ptHost : (s.setLane l x).ptHost = s.ptHost := rfl
@[simp] theorem State.setLane_ptGen : (s.setLane l x).ptGen = s.ptGen := rfl
@[simp] theorem State.setLane_ptLost : (s.setLane l x).ptLost = s.ptLost := rfl
@[simp] theorem State.setLane_fbStage : (s.setLane l x).fbStage = s.fbStage := rfl
@[simp] theorem State.setLane_fbSent : (s.setLane l x).fbSent = s.fbSent := rfl
@[simp] theorem State.setLane_fbLast : (s.setLane l x).fbLast = s.fbLast := rfl
@[simp] theorem State.setLane_fbSout : (s.setLane l x).fbSout = s.fbSout := rfl
@[simp] theorem State.setLane_fbTxs : (s.setLane l x).fbTxs = s.fbTxs := rfl
@[simp] theorem State.setLane_fbRun : (s.setLane l x).fbRun = s.fbRun := rfl
@[simp] theorem State.setLane_stCmds : (s.setLane l x).stCmds = s.stCmds := rfl
@[simp] theorem State.setLane_stOut : (s.setLane l x).stOut = s.stOut := rfl
@[simp] theorem State.setLane_stTag : (s.setLane l x).stTag = s.stTag := rfl
@[simp] theorem State.setLane_stSeq : (s.setLane l x).stSeq = s.stSeq := rfl
@[simp] theorem State.setLane_srx : (s.setLane l x).srx = s.srx := rfl
@[simp] theorem State.setLane_bd : (s.setLane l x).bd = s.bd := rfl
@[simp] theorem State.setLane_rtc : (s.setLane l x).rtc = s.rtc := rfl
@[simp] theorem State.setLane_er : (s.setLane l x).er = s.er := rfl
@[simp] theorem State.setLane_rk : (s.setLane l x).rk = s.rk := rfl
@[simp] theorem State.setLane_hc : (s.setLane l x).hc = s.hc := rfl
@[simp] theorem State.setLane_pl : (s.setLane l x).pl = s.pl := rfl
@[simp] theorem State.setLane_ks : (s.setLane l x).ks = s.ks := rfl
@[simp] theorem State.setLane_field : (s.setLane l x).field = s.field := rfl
@[simp] theorem State.setLane_sett : (s.setLane l x).sett = s.sett := rfl
@[simp] theorem State.setLane_free : (s.setLane l x).free = s.free := rfl
@[simp] theorem State.setLane_pending : (s.setLane l x).pending = s.pending := rfl

end

section
variable (s : State) (l : Nat) (f : Lane → Lane)

@[simp] theorem State.modLane_time : (s.modLane l f).time = s.time := rfl
@[simp] theorem State.modLane_warm : (s.modLane l f).warm = s.warm := rfl
@[simp] theorem State.modLane_econ : (s.modLane l f).econ = s.econ := rfl
@[simp] theorem State.modLane_econNext : (s.modLane l f).econNext = s.econNext := rfl
@[simp] theorem State.modLane_boot : (s.modLane l f).boot = s.boot := rfl
@[simp] theorem State.modLane_halted : (s.modLane l f).halted = s.halted := rfl
@[simp] theorem State.modLane_resetReq : (s.modLane l f).resetReq = s.resetReq := rfl
@[simp] theorem State.modLane_lps : (s.modLane l f).lps = s.lps := rfl
@[simp] theorem State.modLane_tasks : (s.modLane l f).tasks = s.tasks := rfl
@[simp] theorem State.modLane_regions : (s.modLane l f).regions = s.regions := rfl
@[simp] theorem State.modLane_code : (s.modLane l f).code = s.code := rfl
@[simp] theorem State.modLane_mem : (s.modLane l f).mem = s.mem := rfl
@[simp] theorem State.modLane_prog : (s.modLane l f).prog = s.prog := rfl
@[simp] theorem State.modLane_sinks : (s.modLane l f).sinks = s.sinks := rfl
@[simp] theorem State.modLane_mram : (s.modLane l f).mram = s.mram := rfl
@[simp] theorem State.modLane_mports : (s.modLane l f).mports = s.mports := rfl
@[simp] theorem State.modLane_sports : (s.modLane l f).sports = s.sports := rfl
@[simp] theorem State.modLane_force : (s.modLane l f).force = s.force := rfl
@[simp] theorem State.modLane_wlog : (s.modLane l f).wlog = s.wlog := rfl
@[simp] theorem State.modLane_srcs : (s.modLane l f).srcs = s.srcs := rfl
@[simp] theorem State.modLane_hold : (s.modLane l f).hold = s.hold := rfl
@[simp] theorem State.modLane_hcLevels : (s.modLane l f).hcLevels = s.hcLevels := rfl
@[simp] theorem State.modLane_hcThr : (s.modLane l f).hcThr = s.hcThr := rfl
@[simp] theorem State.modLane_hcErr : (s.modLane l f).hcErr = s.hcErr := rfl
@[simp] theorem State.modLane_hcEcnt : (s.modLane l f).hcEcnt = s.hcEcnt := rfl
@[simp] theorem State.modLane_mrDi : (s.modLane l f).mrDi = s.mrDi := rfl
@[simp] theorem State.modLane_mrTs : (s.modLane l f).mrTs = s.mrTs := rfl
@[simp] theorem State.modLane_mrFseq : (s.modLane l f).mrFseq = s.mrFseq := rfl
@[simp] theorem State.modLane_mrDiSeq : (s.modLane l f).mrDiSeq = s.mrDiSeq := rfl
@[simp] theorem State.modLane_mrStat : (s.modLane l f).mrStat = s.mrStat := rfl
@[simp] theorem State.modLane_mrCtr : (s.modLane l f).mrCtr = s.mrCtr := rfl
@[simp] theorem State.modLane_mrAx : (s.modLane l f).mrAx = s.mrAx := rfl
@[simp] theorem State.modLane_mrObj : (s.modLane l f).mrObj = s.mrObj := rfl
@[simp] theorem State.modLane_mrSts : (s.modLane l f).mrSts = s.mrSts := rfl
@[simp] theorem State.modLane_mrFb : (s.modLane l f).mrFb = s.mrFb := rfl
@[simp] theorem State.modLane_mrSett : (s.modLane l f).mrSett = s.mrSett := rfl
@[simp] theorem State.modLane_outForced : (s.modLane l f).outForced = s.outForced := rfl
@[simp] theorem State.modLane_flost : (s.modLane l f).flost = s.flost := rfl
@[simp] theorem State.modLane_slost : (s.modLane l f).slost = s.slost := rfl
@[simp] theorem State.modLane_psrc : (s.modLane l f).psrc = s.psrc := rfl
@[simp] theorem State.modLane_txSeq : (s.modLane l f).txSeq = s.txSeq := rfl
@[simp] theorem State.modLane_hframe : (s.modLane l f).hframe = s.hframe := rfl
@[simp] theorem State.modLane_hrx : (s.modLane l f).hrx = s.hrx := rfl
@[simp] theorem State.modLane_hrxMsgs : (s.modLane l f).hrxMsgs = s.hrxMsgs := rfl
@[simp] theorem State.modLane_lbp : (s.modLane l f).lbp = s.lbp := rfl
@[simp] theorem State.modLane_lbpPrev : (s.modLane l f).lbpPrev = s.lbpPrev := rfl
@[simp] theorem State.modLane_fdIn : (s.modLane l f).fdIn = s.fdIn := rfl
@[simp] theorem State.modLane_fdLs : (s.modLane l f).fdLs = s.fdLs := rfl
@[simp] theorem State.modLane_fdLplus : (s.modLane l f).fdLplus = s.fdLplus := rfl
@[simp] theorem State.modLane_fdDovf : (s.modLane l f).fdDovf = s.fdDovf := rfl
@[simp] theorem State.modLane_fdDiag : (s.modLane l f).fdDiag = s.fdDiag := rfl
@[simp] theorem State.modLane_ssackn : (s.modLane l f).ssackn = s.ssackn := rfl
@[simp] theorem State.modLane_safeAt : (s.modLane l f).safeAt = s.safeAt := rfl
@[simp] theorem State.modLane_reqn : (s.modLane l f).reqn = s.reqn := rfl
@[simp] theorem State.modLane_reqNow : (s.modLane l f).reqNow = s.reqNow := rfl
@[simp] theorem State.modLane_reqNext : (s.modLane l f).reqNext = s.reqNext := rfl
@[simp] theorem State.modLane_fdStage : (s.modLane l f).fdStage = s.fdStage := rfl
@[simp] theorem State.modLane_cfgDue : (s.modLane l f).cfgDue = s.cfgDue := rfl
@[simp] theorem State.modLane_cfgQ : (s.modLane l f).cfgQ = s.cfgQ := rfl
@[simp] theorem State.modLane_schedOut : (s.modLane l f).schedOut = s.schedOut := rfl
@[simp] theorem State.modLane_busOut : (s.modLane l f).busOut = s.busOut := rfl
@[simp] theorem State.modLane_ptStage : (s.modLane l f).ptStage = s.ptStage := rfl
@[simp] theorem State.modLane_ptHost : (s.modLane l f).ptHost = s.ptHost := rfl
@[simp] theorem State.modLane_ptGen : (s.modLane l f).ptGen = s.ptGen := rfl
@[simp] theorem State.modLane_ptLost : (s.modLane l f).ptLost = s.ptLost := rfl
@[simp] theorem State.modLane_fbStage : (s.modLane l f).fbStage = s.fbStage := rfl
@[simp] theorem State.modLane_fbSent : (s.modLane l f).fbSent = s.fbSent := rfl
@[simp] theorem State.modLane_fbLast : (s.modLane l f).fbLast = s.fbLast := rfl
@[simp] theorem State.modLane_fbSout : (s.modLane l f).fbSout = s.fbSout := rfl
@[simp] theorem State.modLane_fbTxs : (s.modLane l f).fbTxs = s.fbTxs := rfl
@[simp] theorem State.modLane_fbRun : (s.modLane l f).fbRun = s.fbRun := rfl
@[simp] theorem State.modLane_stCmds : (s.modLane l f).stCmds = s.stCmds := rfl
@[simp] theorem State.modLane_stOut : (s.modLane l f).stOut = s.stOut := rfl
@[simp] theorem State.modLane_stTag : (s.modLane l f).stTag = s.stTag := rfl
@[simp] theorem State.modLane_stSeq : (s.modLane l f).stSeq = s.stSeq := rfl
@[simp] theorem State.modLane_srx : (s.modLane l f).srx = s.srx := rfl
@[simp] theorem State.modLane_bd : (s.modLane l f).bd = s.bd := rfl
@[simp] theorem State.modLane_rtc : (s.modLane l f).rtc = s.rtc := rfl
@[simp] theorem State.modLane_er : (s.modLane l f).er = s.er := rfl
@[simp] theorem State.modLane_rk : (s.modLane l f).rk = s.rk := rfl
@[simp] theorem State.modLane_hc : (s.modLane l f).hc = s.hc := rfl
@[simp] theorem State.modLane_pl : (s.modLane l f).pl = s.pl := rfl
@[simp] theorem State.modLane_ks : (s.modLane l f).ks = s.ks := rfl
@[simp] theorem State.modLane_field : (s.modLane l f).field = s.field := rfl
@[simp] theorem State.modLane_sett : (s.modLane l f).sett = s.sett := rfl
@[simp] theorem State.modLane_free : (s.modLane l f).free = s.free := rfl
@[simp] theorem State.modLane_pending : (s.modLane l f).pending = s.pending := rfl

end

section
variable (s : State) (p : Nat) (x : Lp)

@[simp] theorem State.setLp_time : (s.setLp p x).time = s.time := rfl
@[simp] theorem State.setLp_warm : (s.setLp p x).warm = s.warm := rfl
@[simp] theorem State.setLp_econ : (s.setLp p x).econ = s.econ := rfl
@[simp] theorem State.setLp_econNext : (s.setLp p x).econNext = s.econNext := rfl
@[simp] theorem State.setLp_boot : (s.setLp p x).boot = s.boot := rfl
@[simp] theorem State.setLp_halted : (s.setLp p x).halted = s.halted := rfl
@[simp] theorem State.setLp_resetReq : (s.setLp p x).resetReq = s.resetReq := rfl
@[simp] theorem State.setLp_lanes : (s.setLp p x).lanes = s.lanes := rfl
@[simp] theorem State.setLp_tasks : (s.setLp p x).tasks = s.tasks := rfl
@[simp] theorem State.setLp_regions : (s.setLp p x).regions = s.regions := rfl
@[simp] theorem State.setLp_code : (s.setLp p x).code = s.code := rfl
@[simp] theorem State.setLp_mem : (s.setLp p x).mem = s.mem := rfl
@[simp] theorem State.setLp_prog : (s.setLp p x).prog = s.prog := rfl
@[simp] theorem State.setLp_sinks : (s.setLp p x).sinks = s.sinks := rfl
@[simp] theorem State.setLp_mram : (s.setLp p x).mram = s.mram := rfl
@[simp] theorem State.setLp_mports : (s.setLp p x).mports = s.mports := rfl
@[simp] theorem State.setLp_sports : (s.setLp p x).sports = s.sports := rfl
@[simp] theorem State.setLp_force : (s.setLp p x).force = s.force := rfl
@[simp] theorem State.setLp_wlog : (s.setLp p x).wlog = s.wlog := rfl
@[simp] theorem State.setLp_srcs : (s.setLp p x).srcs = s.srcs := rfl
@[simp] theorem State.setLp_hold : (s.setLp p x).hold = s.hold := rfl
@[simp] theorem State.setLp_hcLevels : (s.setLp p x).hcLevels = s.hcLevels := rfl
@[simp] theorem State.setLp_hcThr : (s.setLp p x).hcThr = s.hcThr := rfl
@[simp] theorem State.setLp_hcErr : (s.setLp p x).hcErr = s.hcErr := rfl
@[simp] theorem State.setLp_hcEcnt : (s.setLp p x).hcEcnt = s.hcEcnt := rfl
@[simp] theorem State.setLp_mrDi : (s.setLp p x).mrDi = s.mrDi := rfl
@[simp] theorem State.setLp_mrTs : (s.setLp p x).mrTs = s.mrTs := rfl
@[simp] theorem State.setLp_mrFseq : (s.setLp p x).mrFseq = s.mrFseq := rfl
@[simp] theorem State.setLp_mrDiSeq : (s.setLp p x).mrDiSeq = s.mrDiSeq := rfl
@[simp] theorem State.setLp_mrStat : (s.setLp p x).mrStat = s.mrStat := rfl
@[simp] theorem State.setLp_mrCtr : (s.setLp p x).mrCtr = s.mrCtr := rfl
@[simp] theorem State.setLp_mrAx : (s.setLp p x).mrAx = s.mrAx := rfl
@[simp] theorem State.setLp_mrObj : (s.setLp p x).mrObj = s.mrObj := rfl
@[simp] theorem State.setLp_mrSts : (s.setLp p x).mrSts = s.mrSts := rfl
@[simp] theorem State.setLp_mrFb : (s.setLp p x).mrFb = s.mrFb := rfl
@[simp] theorem State.setLp_mrSett : (s.setLp p x).mrSett = s.mrSett := rfl
@[simp] theorem State.setLp_outForced : (s.setLp p x).outForced = s.outForced := rfl
@[simp] theorem State.setLp_flost : (s.setLp p x).flost = s.flost := rfl
@[simp] theorem State.setLp_slost : (s.setLp p x).slost = s.slost := rfl
@[simp] theorem State.setLp_psrc : (s.setLp p x).psrc = s.psrc := rfl
@[simp] theorem State.setLp_txSeq : (s.setLp p x).txSeq = s.txSeq := rfl
@[simp] theorem State.setLp_hframe : (s.setLp p x).hframe = s.hframe := rfl
@[simp] theorem State.setLp_hrx : (s.setLp p x).hrx = s.hrx := rfl
@[simp] theorem State.setLp_hrxMsgs : (s.setLp p x).hrxMsgs = s.hrxMsgs := rfl
@[simp] theorem State.setLp_lbp : (s.setLp p x).lbp = s.lbp := rfl
@[simp] theorem State.setLp_lbpPrev : (s.setLp p x).lbpPrev = s.lbpPrev := rfl
@[simp] theorem State.setLp_fdIn : (s.setLp p x).fdIn = s.fdIn := rfl
@[simp] theorem State.setLp_fdLs : (s.setLp p x).fdLs = s.fdLs := rfl
@[simp] theorem State.setLp_fdLplus : (s.setLp p x).fdLplus = s.fdLplus := rfl
@[simp] theorem State.setLp_fdDovf : (s.setLp p x).fdDovf = s.fdDovf := rfl
@[simp] theorem State.setLp_fdDiag : (s.setLp p x).fdDiag = s.fdDiag := rfl
@[simp] theorem State.setLp_ssackn : (s.setLp p x).ssackn = s.ssackn := rfl
@[simp] theorem State.setLp_safeAt : (s.setLp p x).safeAt = s.safeAt := rfl
@[simp] theorem State.setLp_reqn : (s.setLp p x).reqn = s.reqn := rfl
@[simp] theorem State.setLp_reqNow : (s.setLp p x).reqNow = s.reqNow := rfl
@[simp] theorem State.setLp_reqNext : (s.setLp p x).reqNext = s.reqNext := rfl
@[simp] theorem State.setLp_fdStage : (s.setLp p x).fdStage = s.fdStage := rfl
@[simp] theorem State.setLp_cfgDue : (s.setLp p x).cfgDue = s.cfgDue := rfl
@[simp] theorem State.setLp_cfgQ : (s.setLp p x).cfgQ = s.cfgQ := rfl
@[simp] theorem State.setLp_schedOut : (s.setLp p x).schedOut = s.schedOut := rfl
@[simp] theorem State.setLp_busOut : (s.setLp p x).busOut = s.busOut := rfl
@[simp] theorem State.setLp_ptStage : (s.setLp p x).ptStage = s.ptStage := rfl
@[simp] theorem State.setLp_ptHost : (s.setLp p x).ptHost = s.ptHost := rfl
@[simp] theorem State.setLp_ptGen : (s.setLp p x).ptGen = s.ptGen := rfl
@[simp] theorem State.setLp_ptLost : (s.setLp p x).ptLost = s.ptLost := rfl
@[simp] theorem State.setLp_fbStage : (s.setLp p x).fbStage = s.fbStage := rfl
@[simp] theorem State.setLp_fbSent : (s.setLp p x).fbSent = s.fbSent := rfl
@[simp] theorem State.setLp_fbLast : (s.setLp p x).fbLast = s.fbLast := rfl
@[simp] theorem State.setLp_fbSout : (s.setLp p x).fbSout = s.fbSout := rfl
@[simp] theorem State.setLp_fbTxs : (s.setLp p x).fbTxs = s.fbTxs := rfl
@[simp] theorem State.setLp_fbRun : (s.setLp p x).fbRun = s.fbRun := rfl
@[simp] theorem State.setLp_stCmds : (s.setLp p x).stCmds = s.stCmds := rfl
@[simp] theorem State.setLp_stOut : (s.setLp p x).stOut = s.stOut := rfl
@[simp] theorem State.setLp_stTag : (s.setLp p x).stTag = s.stTag := rfl
@[simp] theorem State.setLp_stSeq : (s.setLp p x).stSeq = s.stSeq := rfl
@[simp] theorem State.setLp_srx : (s.setLp p x).srx = s.srx := rfl
@[simp] theorem State.setLp_bd : (s.setLp p x).bd = s.bd := rfl
@[simp] theorem State.setLp_rtc : (s.setLp p x).rtc = s.rtc := rfl
@[simp] theorem State.setLp_er : (s.setLp p x).er = s.er := rfl
@[simp] theorem State.setLp_rk : (s.setLp p x).rk = s.rk := rfl
@[simp] theorem State.setLp_hc : (s.setLp p x).hc = s.hc := rfl
@[simp] theorem State.setLp_pl : (s.setLp p x).pl = s.pl := rfl
@[simp] theorem State.setLp_ks : (s.setLp p x).ks = s.ks := rfl
@[simp] theorem State.setLp_field : (s.setLp p x).field = s.field := rfl
@[simp] theorem State.setLp_sett : (s.setLp p x).sett = s.sett := rfl
@[simp] theorem State.setLp_free : (s.setLp p x).free = s.free := rfl
@[simp] theorem State.setLp_pending : (s.setLp p x).pending = s.pending := rfl

end

section
variable (s : State) (p : Nat) (f : Lp → Lp)

@[simp] theorem State.modLp_time : (s.modLp p f).time = s.time := rfl
@[simp] theorem State.modLp_warm : (s.modLp p f).warm = s.warm := rfl
@[simp] theorem State.modLp_econ : (s.modLp p f).econ = s.econ := rfl
@[simp] theorem State.modLp_econNext : (s.modLp p f).econNext = s.econNext := rfl
@[simp] theorem State.modLp_boot : (s.modLp p f).boot = s.boot := rfl
@[simp] theorem State.modLp_halted : (s.modLp p f).halted = s.halted := rfl
@[simp] theorem State.modLp_resetReq : (s.modLp p f).resetReq = s.resetReq := rfl
@[simp] theorem State.modLp_lanes : (s.modLp p f).lanes = s.lanes := rfl
@[simp] theorem State.modLp_tasks : (s.modLp p f).tasks = s.tasks := rfl
@[simp] theorem State.modLp_regions : (s.modLp p f).regions = s.regions := rfl
@[simp] theorem State.modLp_code : (s.modLp p f).code = s.code := rfl
@[simp] theorem State.modLp_mem : (s.modLp p f).mem = s.mem := rfl
@[simp] theorem State.modLp_prog : (s.modLp p f).prog = s.prog := rfl
@[simp] theorem State.modLp_sinks : (s.modLp p f).sinks = s.sinks := rfl
@[simp] theorem State.modLp_mram : (s.modLp p f).mram = s.mram := rfl
@[simp] theorem State.modLp_mports : (s.modLp p f).mports = s.mports := rfl
@[simp] theorem State.modLp_sports : (s.modLp p f).sports = s.sports := rfl
@[simp] theorem State.modLp_force : (s.modLp p f).force = s.force := rfl
@[simp] theorem State.modLp_wlog : (s.modLp p f).wlog = s.wlog := rfl
@[simp] theorem State.modLp_srcs : (s.modLp p f).srcs = s.srcs := rfl
@[simp] theorem State.modLp_hold : (s.modLp p f).hold = s.hold := rfl
@[simp] theorem State.modLp_hcLevels : (s.modLp p f).hcLevels = s.hcLevels := rfl
@[simp] theorem State.modLp_hcThr : (s.modLp p f).hcThr = s.hcThr := rfl
@[simp] theorem State.modLp_hcErr : (s.modLp p f).hcErr = s.hcErr := rfl
@[simp] theorem State.modLp_hcEcnt : (s.modLp p f).hcEcnt = s.hcEcnt := rfl
@[simp] theorem State.modLp_mrDi : (s.modLp p f).mrDi = s.mrDi := rfl
@[simp] theorem State.modLp_mrTs : (s.modLp p f).mrTs = s.mrTs := rfl
@[simp] theorem State.modLp_mrFseq : (s.modLp p f).mrFseq = s.mrFseq := rfl
@[simp] theorem State.modLp_mrDiSeq : (s.modLp p f).mrDiSeq = s.mrDiSeq := rfl
@[simp] theorem State.modLp_mrStat : (s.modLp p f).mrStat = s.mrStat := rfl
@[simp] theorem State.modLp_mrCtr : (s.modLp p f).mrCtr = s.mrCtr := rfl
@[simp] theorem State.modLp_mrAx : (s.modLp p f).mrAx = s.mrAx := rfl
@[simp] theorem State.modLp_mrObj : (s.modLp p f).mrObj = s.mrObj := rfl
@[simp] theorem State.modLp_mrSts : (s.modLp p f).mrSts = s.mrSts := rfl
@[simp] theorem State.modLp_mrFb : (s.modLp p f).mrFb = s.mrFb := rfl
@[simp] theorem State.modLp_mrSett : (s.modLp p f).mrSett = s.mrSett := rfl
@[simp] theorem State.modLp_outForced : (s.modLp p f).outForced = s.outForced := rfl
@[simp] theorem State.modLp_flost : (s.modLp p f).flost = s.flost := rfl
@[simp] theorem State.modLp_slost : (s.modLp p f).slost = s.slost := rfl
@[simp] theorem State.modLp_psrc : (s.modLp p f).psrc = s.psrc := rfl
@[simp] theorem State.modLp_txSeq : (s.modLp p f).txSeq = s.txSeq := rfl
@[simp] theorem State.modLp_hframe : (s.modLp p f).hframe = s.hframe := rfl
@[simp] theorem State.modLp_hrx : (s.modLp p f).hrx = s.hrx := rfl
@[simp] theorem State.modLp_hrxMsgs : (s.modLp p f).hrxMsgs = s.hrxMsgs := rfl
@[simp] theorem State.modLp_lbp : (s.modLp p f).lbp = s.lbp := rfl
@[simp] theorem State.modLp_lbpPrev : (s.modLp p f).lbpPrev = s.lbpPrev := rfl
@[simp] theorem State.modLp_fdIn : (s.modLp p f).fdIn = s.fdIn := rfl
@[simp] theorem State.modLp_fdLs : (s.modLp p f).fdLs = s.fdLs := rfl
@[simp] theorem State.modLp_fdLplus : (s.modLp p f).fdLplus = s.fdLplus := rfl
@[simp] theorem State.modLp_fdDovf : (s.modLp p f).fdDovf = s.fdDovf := rfl
@[simp] theorem State.modLp_fdDiag : (s.modLp p f).fdDiag = s.fdDiag := rfl
@[simp] theorem State.modLp_ssackn : (s.modLp p f).ssackn = s.ssackn := rfl
@[simp] theorem State.modLp_safeAt : (s.modLp p f).safeAt = s.safeAt := rfl
@[simp] theorem State.modLp_reqn : (s.modLp p f).reqn = s.reqn := rfl
@[simp] theorem State.modLp_reqNow : (s.modLp p f).reqNow = s.reqNow := rfl
@[simp] theorem State.modLp_reqNext : (s.modLp p f).reqNext = s.reqNext := rfl
@[simp] theorem State.modLp_fdStage : (s.modLp p f).fdStage = s.fdStage := rfl
@[simp] theorem State.modLp_cfgDue : (s.modLp p f).cfgDue = s.cfgDue := rfl
@[simp] theorem State.modLp_cfgQ : (s.modLp p f).cfgQ = s.cfgQ := rfl
@[simp] theorem State.modLp_schedOut : (s.modLp p f).schedOut = s.schedOut := rfl
@[simp] theorem State.modLp_busOut : (s.modLp p f).busOut = s.busOut := rfl
@[simp] theorem State.modLp_ptStage : (s.modLp p f).ptStage = s.ptStage := rfl
@[simp] theorem State.modLp_ptHost : (s.modLp p f).ptHost = s.ptHost := rfl
@[simp] theorem State.modLp_ptGen : (s.modLp p f).ptGen = s.ptGen := rfl
@[simp] theorem State.modLp_ptLost : (s.modLp p f).ptLost = s.ptLost := rfl
@[simp] theorem State.modLp_fbStage : (s.modLp p f).fbStage = s.fbStage := rfl
@[simp] theorem State.modLp_fbSent : (s.modLp p f).fbSent = s.fbSent := rfl
@[simp] theorem State.modLp_fbLast : (s.modLp p f).fbLast = s.fbLast := rfl
@[simp] theorem State.modLp_fbSout : (s.modLp p f).fbSout = s.fbSout := rfl
@[simp] theorem State.modLp_fbTxs : (s.modLp p f).fbTxs = s.fbTxs := rfl
@[simp] theorem State.modLp_fbRun : (s.modLp p f).fbRun = s.fbRun := rfl
@[simp] theorem State.modLp_stCmds : (s.modLp p f).stCmds = s.stCmds := rfl
@[simp] theorem State.modLp_stOut : (s.modLp p f).stOut = s.stOut := rfl
@[simp] theorem State.modLp_stTag : (s.modLp p f).stTag = s.stTag := rfl
@[simp] theorem State.modLp_stSeq : (s.modLp p f).stSeq = s.stSeq := rfl
@[simp] theorem State.modLp_srx : (s.modLp p f).srx = s.srx := rfl
@[simp] theorem State.modLp_bd : (s.modLp p f).bd = s.bd := rfl
@[simp] theorem State.modLp_rtc : (s.modLp p f).rtc = s.rtc := rfl
@[simp] theorem State.modLp_er : (s.modLp p f).er = s.er := rfl
@[simp] theorem State.modLp_rk : (s.modLp p f).rk = s.rk := rfl
@[simp] theorem State.modLp_hc : (s.modLp p f).hc = s.hc := rfl
@[simp] theorem State.modLp_pl : (s.modLp p f).pl = s.pl := rfl
@[simp] theorem State.modLp_ks : (s.modLp p f).ks = s.ks := rfl
@[simp] theorem State.modLp_field : (s.modLp p f).field = s.field := rfl
@[simp] theorem State.modLp_sett : (s.modLp p f).sett = s.sett := rfl
@[simp] theorem State.modLp_free : (s.modLp p f).free = s.free := rfl
@[simp] theorem State.modLp_pending : (s.modLp p f).pending = s.pending := rfl

end

section
variable (s : State) (p t : Nat) (f : TaskSt → TaskSt)

@[simp] theorem State.modTask_time : (s.modTask p t f).time = s.time := rfl
@[simp] theorem State.modTask_warm : (s.modTask p t f).warm = s.warm := rfl
@[simp] theorem State.modTask_econ : (s.modTask p t f).econ = s.econ := rfl
@[simp] theorem State.modTask_econNext : (s.modTask p t f).econNext = s.econNext := rfl
@[simp] theorem State.modTask_boot : (s.modTask p t f).boot = s.boot := rfl
@[simp] theorem State.modTask_halted : (s.modTask p t f).halted = s.halted := rfl
@[simp] theorem State.modTask_resetReq : (s.modTask p t f).resetReq = s.resetReq := rfl
@[simp] theorem State.modTask_lanes : (s.modTask p t f).lanes = s.lanes := rfl
@[simp] theorem State.modTask_lps : (s.modTask p t f).lps = s.lps := rfl
@[simp] theorem State.modTask_regions : (s.modTask p t f).regions = s.regions := rfl
@[simp] theorem State.modTask_code : (s.modTask p t f).code = s.code := rfl
@[simp] theorem State.modTask_mem : (s.modTask p t f).mem = s.mem := rfl
@[simp] theorem State.modTask_prog : (s.modTask p t f).prog = s.prog := rfl
@[simp] theorem State.modTask_sinks : (s.modTask p t f).sinks = s.sinks := rfl
@[simp] theorem State.modTask_mram : (s.modTask p t f).mram = s.mram := rfl
@[simp] theorem State.modTask_mports : (s.modTask p t f).mports = s.mports := rfl
@[simp] theorem State.modTask_sports : (s.modTask p t f).sports = s.sports := rfl
@[simp] theorem State.modTask_force : (s.modTask p t f).force = s.force := rfl
@[simp] theorem State.modTask_wlog : (s.modTask p t f).wlog = s.wlog := rfl
@[simp] theorem State.modTask_srcs : (s.modTask p t f).srcs = s.srcs := rfl
@[simp] theorem State.modTask_hold : (s.modTask p t f).hold = s.hold := rfl
@[simp] theorem State.modTask_hcLevels : (s.modTask p t f).hcLevels = s.hcLevels := rfl
@[simp] theorem State.modTask_hcThr : (s.modTask p t f).hcThr = s.hcThr := rfl
@[simp] theorem State.modTask_hcErr : (s.modTask p t f).hcErr = s.hcErr := rfl
@[simp] theorem State.modTask_hcEcnt : (s.modTask p t f).hcEcnt = s.hcEcnt := rfl
@[simp] theorem State.modTask_mrDi : (s.modTask p t f).mrDi = s.mrDi := rfl
@[simp] theorem State.modTask_mrTs : (s.modTask p t f).mrTs = s.mrTs := rfl
@[simp] theorem State.modTask_mrFseq : (s.modTask p t f).mrFseq = s.mrFseq := rfl
@[simp] theorem State.modTask_mrDiSeq : (s.modTask p t f).mrDiSeq = s.mrDiSeq := rfl
@[simp] theorem State.modTask_mrStat : (s.modTask p t f).mrStat = s.mrStat := rfl
@[simp] theorem State.modTask_mrCtr : (s.modTask p t f).mrCtr = s.mrCtr := rfl
@[simp] theorem State.modTask_mrAx : (s.modTask p t f).mrAx = s.mrAx := rfl
@[simp] theorem State.modTask_mrObj : (s.modTask p t f).mrObj = s.mrObj := rfl
@[simp] theorem State.modTask_mrSts : (s.modTask p t f).mrSts = s.mrSts := rfl
@[simp] theorem State.modTask_mrFb : (s.modTask p t f).mrFb = s.mrFb := rfl
@[simp] theorem State.modTask_mrSett : (s.modTask p t f).mrSett = s.mrSett := rfl
@[simp] theorem State.modTask_outForced : (s.modTask p t f).outForced = s.outForced := rfl
@[simp] theorem State.modTask_flost : (s.modTask p t f).flost = s.flost := rfl
@[simp] theorem State.modTask_slost : (s.modTask p t f).slost = s.slost := rfl
@[simp] theorem State.modTask_psrc : (s.modTask p t f).psrc = s.psrc := rfl
@[simp] theorem State.modTask_txSeq : (s.modTask p t f).txSeq = s.txSeq := rfl
@[simp] theorem State.modTask_hframe : (s.modTask p t f).hframe = s.hframe := rfl
@[simp] theorem State.modTask_hrx : (s.modTask p t f).hrx = s.hrx := rfl
@[simp] theorem State.modTask_hrxMsgs : (s.modTask p t f).hrxMsgs = s.hrxMsgs := rfl
@[simp] theorem State.modTask_lbp : (s.modTask p t f).lbp = s.lbp := rfl
@[simp] theorem State.modTask_lbpPrev : (s.modTask p t f).lbpPrev = s.lbpPrev := rfl
@[simp] theorem State.modTask_fdIn : (s.modTask p t f).fdIn = s.fdIn := rfl
@[simp] theorem State.modTask_fdLs : (s.modTask p t f).fdLs = s.fdLs := rfl
@[simp] theorem State.modTask_fdLplus : (s.modTask p t f).fdLplus = s.fdLplus := rfl
@[simp] theorem State.modTask_fdDovf : (s.modTask p t f).fdDovf = s.fdDovf := rfl
@[simp] theorem State.modTask_fdDiag : (s.modTask p t f).fdDiag = s.fdDiag := rfl
@[simp] theorem State.modTask_ssackn : (s.modTask p t f).ssackn = s.ssackn := rfl
@[simp] theorem State.modTask_safeAt : (s.modTask p t f).safeAt = s.safeAt := rfl
@[simp] theorem State.modTask_reqn : (s.modTask p t f).reqn = s.reqn := rfl
@[simp] theorem State.modTask_reqNow : (s.modTask p t f).reqNow = s.reqNow := rfl
@[simp] theorem State.modTask_reqNext : (s.modTask p t f).reqNext = s.reqNext := rfl
@[simp] theorem State.modTask_fdStage : (s.modTask p t f).fdStage = s.fdStage := rfl
@[simp] theorem State.modTask_cfgDue : (s.modTask p t f).cfgDue = s.cfgDue := rfl
@[simp] theorem State.modTask_cfgQ : (s.modTask p t f).cfgQ = s.cfgQ := rfl
@[simp] theorem State.modTask_schedOut : (s.modTask p t f).schedOut = s.schedOut := rfl
@[simp] theorem State.modTask_busOut : (s.modTask p t f).busOut = s.busOut := rfl
@[simp] theorem State.modTask_ptStage : (s.modTask p t f).ptStage = s.ptStage := rfl
@[simp] theorem State.modTask_ptHost : (s.modTask p t f).ptHost = s.ptHost := rfl
@[simp] theorem State.modTask_ptGen : (s.modTask p t f).ptGen = s.ptGen := rfl
@[simp] theorem State.modTask_ptLost : (s.modTask p t f).ptLost = s.ptLost := rfl
@[simp] theorem State.modTask_fbStage : (s.modTask p t f).fbStage = s.fbStage := rfl
@[simp] theorem State.modTask_fbSent : (s.modTask p t f).fbSent = s.fbSent := rfl
@[simp] theorem State.modTask_fbLast : (s.modTask p t f).fbLast = s.fbLast := rfl
@[simp] theorem State.modTask_fbSout : (s.modTask p t f).fbSout = s.fbSout := rfl
@[simp] theorem State.modTask_fbTxs : (s.modTask p t f).fbTxs = s.fbTxs := rfl
@[simp] theorem State.modTask_fbRun : (s.modTask p t f).fbRun = s.fbRun := rfl
@[simp] theorem State.modTask_stCmds : (s.modTask p t f).stCmds = s.stCmds := rfl
@[simp] theorem State.modTask_stOut : (s.modTask p t f).stOut = s.stOut := rfl
@[simp] theorem State.modTask_stTag : (s.modTask p t f).stTag = s.stTag := rfl
@[simp] theorem State.modTask_stSeq : (s.modTask p t f).stSeq = s.stSeq := rfl
@[simp] theorem State.modTask_srx : (s.modTask p t f).srx = s.srx := rfl
@[simp] theorem State.modTask_bd : (s.modTask p t f).bd = s.bd := rfl
@[simp] theorem State.modTask_rtc : (s.modTask p t f).rtc = s.rtc := rfl
@[simp] theorem State.modTask_er : (s.modTask p t f).er = s.er := rfl
@[simp] theorem State.modTask_rk : (s.modTask p t f).rk = s.rk := rfl
@[simp] theorem State.modTask_hc : (s.modTask p t f).hc = s.hc := rfl
@[simp] theorem State.modTask_pl : (s.modTask p t f).pl = s.pl := rfl
@[simp] theorem State.modTask_ks : (s.modTask p t f).ks = s.ks := rfl
@[simp] theorem State.modTask_field : (s.modTask p t f).field = s.field := rfl
@[simp] theorem State.modTask_sett : (s.modTask p t f).sett = s.sett := rfl
@[simp] theorem State.modTask_free : (s.modTask p t f).free = s.free := rfl
@[simp] theorem State.modTask_pending : (s.modTask p t f).pending = s.pending := rfl

end

section
variable (s : State) (r : Nat) (x : Region)

@[simp] theorem State.setRegion_time : (s.setRegion r x).time = s.time := rfl
@[simp] theorem State.setRegion_warm : (s.setRegion r x).warm = s.warm := rfl
@[simp] theorem State.setRegion_econ : (s.setRegion r x).econ = s.econ := rfl
@[simp] theorem State.setRegion_econNext : (s.setRegion r x).econNext = s.econNext := rfl
@[simp] theorem State.setRegion_boot : (s.setRegion r x).boot = s.boot := rfl
@[simp] theorem State.setRegion_halted : (s.setRegion r x).halted = s.halted := rfl
@[simp] theorem State.setRegion_resetReq : (s.setRegion r x).resetReq = s.resetReq := rfl
@[simp] theorem State.setRegion_lanes : (s.setRegion r x).lanes = s.lanes := rfl
@[simp] theorem State.setRegion_lps : (s.setRegion r x).lps = s.lps := rfl
@[simp] theorem State.setRegion_tasks : (s.setRegion r x).tasks = s.tasks := rfl
@[simp] theorem State.setRegion_code : (s.setRegion r x).code = s.code := rfl
@[simp] theorem State.setRegion_mem : (s.setRegion r x).mem = s.mem := rfl
@[simp] theorem State.setRegion_prog : (s.setRegion r x).prog = s.prog := rfl
@[simp] theorem State.setRegion_sinks : (s.setRegion r x).sinks = s.sinks := rfl
@[simp] theorem State.setRegion_mram : (s.setRegion r x).mram = s.mram := rfl
@[simp] theorem State.setRegion_mports : (s.setRegion r x).mports = s.mports := rfl
@[simp] theorem State.setRegion_sports : (s.setRegion r x).sports = s.sports := rfl
@[simp] theorem State.setRegion_force : (s.setRegion r x).force = s.force := rfl
@[simp] theorem State.setRegion_wlog : (s.setRegion r x).wlog = s.wlog := rfl
@[simp] theorem State.setRegion_srcs : (s.setRegion r x).srcs = s.srcs := rfl
@[simp] theorem State.setRegion_hold : (s.setRegion r x).hold = s.hold := rfl
@[simp] theorem State.setRegion_hcLevels : (s.setRegion r x).hcLevels = s.hcLevels := rfl
@[simp] theorem State.setRegion_hcThr : (s.setRegion r x).hcThr = s.hcThr := rfl
@[simp] theorem State.setRegion_hcErr : (s.setRegion r x).hcErr = s.hcErr := rfl
@[simp] theorem State.setRegion_hcEcnt : (s.setRegion r x).hcEcnt = s.hcEcnt := rfl
@[simp] theorem State.setRegion_mrDi : (s.setRegion r x).mrDi = s.mrDi := rfl
@[simp] theorem State.setRegion_mrTs : (s.setRegion r x).mrTs = s.mrTs := rfl
@[simp] theorem State.setRegion_mrFseq : (s.setRegion r x).mrFseq = s.mrFseq := rfl
@[simp] theorem State.setRegion_mrDiSeq : (s.setRegion r x).mrDiSeq = s.mrDiSeq := rfl
@[simp] theorem State.setRegion_mrStat : (s.setRegion r x).mrStat = s.mrStat := rfl
@[simp] theorem State.setRegion_mrCtr : (s.setRegion r x).mrCtr = s.mrCtr := rfl
@[simp] theorem State.setRegion_mrAx : (s.setRegion r x).mrAx = s.mrAx := rfl
@[simp] theorem State.setRegion_mrObj : (s.setRegion r x).mrObj = s.mrObj := rfl
@[simp] theorem State.setRegion_mrSts : (s.setRegion r x).mrSts = s.mrSts := rfl
@[simp] theorem State.setRegion_mrFb : (s.setRegion r x).mrFb = s.mrFb := rfl
@[simp] theorem State.setRegion_mrSett : (s.setRegion r x).mrSett = s.mrSett := rfl
@[simp] theorem State.setRegion_outForced : (s.setRegion r x).outForced = s.outForced := rfl
@[simp] theorem State.setRegion_flost : (s.setRegion r x).flost = s.flost := rfl
@[simp] theorem State.setRegion_slost : (s.setRegion r x).slost = s.slost := rfl
@[simp] theorem State.setRegion_psrc : (s.setRegion r x).psrc = s.psrc := rfl
@[simp] theorem State.setRegion_txSeq : (s.setRegion r x).txSeq = s.txSeq := rfl
@[simp] theorem State.setRegion_hframe : (s.setRegion r x).hframe = s.hframe := rfl
@[simp] theorem State.setRegion_hrx : (s.setRegion r x).hrx = s.hrx := rfl
@[simp] theorem State.setRegion_hrxMsgs : (s.setRegion r x).hrxMsgs = s.hrxMsgs := rfl
@[simp] theorem State.setRegion_lbp : (s.setRegion r x).lbp = s.lbp := rfl
@[simp] theorem State.setRegion_lbpPrev : (s.setRegion r x).lbpPrev = s.lbpPrev := rfl
@[simp] theorem State.setRegion_fdIn : (s.setRegion r x).fdIn = s.fdIn := rfl
@[simp] theorem State.setRegion_fdLs : (s.setRegion r x).fdLs = s.fdLs := rfl
@[simp] theorem State.setRegion_fdLplus : (s.setRegion r x).fdLplus = s.fdLplus := rfl
@[simp] theorem State.setRegion_fdDovf : (s.setRegion r x).fdDovf = s.fdDovf := rfl
@[simp] theorem State.setRegion_fdDiag : (s.setRegion r x).fdDiag = s.fdDiag := rfl
@[simp] theorem State.setRegion_ssackn : (s.setRegion r x).ssackn = s.ssackn := rfl
@[simp] theorem State.setRegion_safeAt : (s.setRegion r x).safeAt = s.safeAt := rfl
@[simp] theorem State.setRegion_reqn : (s.setRegion r x).reqn = s.reqn := rfl
@[simp] theorem State.setRegion_reqNow : (s.setRegion r x).reqNow = s.reqNow := rfl
@[simp] theorem State.setRegion_reqNext : (s.setRegion r x).reqNext = s.reqNext := rfl
@[simp] theorem State.setRegion_fdStage : (s.setRegion r x).fdStage = s.fdStage := rfl
@[simp] theorem State.setRegion_cfgDue : (s.setRegion r x).cfgDue = s.cfgDue := rfl
@[simp] theorem State.setRegion_cfgQ : (s.setRegion r x).cfgQ = s.cfgQ := rfl
@[simp] theorem State.setRegion_schedOut : (s.setRegion r x).schedOut = s.schedOut := rfl
@[simp] theorem State.setRegion_busOut : (s.setRegion r x).busOut = s.busOut := rfl
@[simp] theorem State.setRegion_ptStage : (s.setRegion r x).ptStage = s.ptStage := rfl
@[simp] theorem State.setRegion_ptHost : (s.setRegion r x).ptHost = s.ptHost := rfl
@[simp] theorem State.setRegion_ptGen : (s.setRegion r x).ptGen = s.ptGen := rfl
@[simp] theorem State.setRegion_ptLost : (s.setRegion r x).ptLost = s.ptLost := rfl
@[simp] theorem State.setRegion_fbStage : (s.setRegion r x).fbStage = s.fbStage := rfl
@[simp] theorem State.setRegion_fbSent : (s.setRegion r x).fbSent = s.fbSent := rfl
@[simp] theorem State.setRegion_fbLast : (s.setRegion r x).fbLast = s.fbLast := rfl
@[simp] theorem State.setRegion_fbSout : (s.setRegion r x).fbSout = s.fbSout := rfl
@[simp] theorem State.setRegion_fbTxs : (s.setRegion r x).fbTxs = s.fbTxs := rfl
@[simp] theorem State.setRegion_fbRun : (s.setRegion r x).fbRun = s.fbRun := rfl
@[simp] theorem State.setRegion_stCmds : (s.setRegion r x).stCmds = s.stCmds := rfl
@[simp] theorem State.setRegion_stOut : (s.setRegion r x).stOut = s.stOut := rfl
@[simp] theorem State.setRegion_stTag : (s.setRegion r x).stTag = s.stTag := rfl
@[simp] theorem State.setRegion_stSeq : (s.setRegion r x).stSeq = s.stSeq := rfl
@[simp] theorem State.setRegion_srx : (s.setRegion r x).srx = s.srx := rfl
@[simp] theorem State.setRegion_bd : (s.setRegion r x).bd = s.bd := rfl
@[simp] theorem State.setRegion_rtc : (s.setRegion r x).rtc = s.rtc := rfl
@[simp] theorem State.setRegion_er : (s.setRegion r x).er = s.er := rfl
@[simp] theorem State.setRegion_rk : (s.setRegion r x).rk = s.rk := rfl
@[simp] theorem State.setRegion_hc : (s.setRegion r x).hc = s.hc := rfl
@[simp] theorem State.setRegion_pl : (s.setRegion r x).pl = s.pl := rfl
@[simp] theorem State.setRegion_ks : (s.setRegion r x).ks = s.ks := rfl
@[simp] theorem State.setRegion_field : (s.setRegion r x).field = s.field := rfl
@[simp] theorem State.setRegion_sett : (s.setRegion r x).sett = s.sett := rfl
@[simp] theorem State.setRegion_free : (s.setRegion r x).free = s.free := rfl
@[simp] theorem State.setRegion_pending : (s.setRegion r x).pending = s.pending := rfl

end

section
variable (s : State) (r : Nat) (f : Region → Region)

@[simp] theorem State.modRegion_time : (s.modRegion r f).time = s.time := rfl
@[simp] theorem State.modRegion_warm : (s.modRegion r f).warm = s.warm := rfl
@[simp] theorem State.modRegion_econ : (s.modRegion r f).econ = s.econ := rfl
@[simp] theorem State.modRegion_econNext : (s.modRegion r f).econNext = s.econNext := rfl
@[simp] theorem State.modRegion_boot : (s.modRegion r f).boot = s.boot := rfl
@[simp] theorem State.modRegion_halted : (s.modRegion r f).halted = s.halted := rfl
@[simp] theorem State.modRegion_resetReq : (s.modRegion r f).resetReq = s.resetReq := rfl
@[simp] theorem State.modRegion_lanes : (s.modRegion r f).lanes = s.lanes := rfl
@[simp] theorem State.modRegion_lps : (s.modRegion r f).lps = s.lps := rfl
@[simp] theorem State.modRegion_tasks : (s.modRegion r f).tasks = s.tasks := rfl
@[simp] theorem State.modRegion_code : (s.modRegion r f).code = s.code := rfl
@[simp] theorem State.modRegion_mem : (s.modRegion r f).mem = s.mem := rfl
@[simp] theorem State.modRegion_prog : (s.modRegion r f).prog = s.prog := rfl
@[simp] theorem State.modRegion_sinks : (s.modRegion r f).sinks = s.sinks := rfl
@[simp] theorem State.modRegion_mram : (s.modRegion r f).mram = s.mram := rfl
@[simp] theorem State.modRegion_mports : (s.modRegion r f).mports = s.mports := rfl
@[simp] theorem State.modRegion_sports : (s.modRegion r f).sports = s.sports := rfl
@[simp] theorem State.modRegion_force : (s.modRegion r f).force = s.force := rfl
@[simp] theorem State.modRegion_wlog : (s.modRegion r f).wlog = s.wlog := rfl
@[simp] theorem State.modRegion_srcs : (s.modRegion r f).srcs = s.srcs := rfl
@[simp] theorem State.modRegion_hold : (s.modRegion r f).hold = s.hold := rfl
@[simp] theorem State.modRegion_hcLevels : (s.modRegion r f).hcLevels = s.hcLevels := rfl
@[simp] theorem State.modRegion_hcThr : (s.modRegion r f).hcThr = s.hcThr := rfl
@[simp] theorem State.modRegion_hcErr : (s.modRegion r f).hcErr = s.hcErr := rfl
@[simp] theorem State.modRegion_hcEcnt : (s.modRegion r f).hcEcnt = s.hcEcnt := rfl
@[simp] theorem State.modRegion_mrDi : (s.modRegion r f).mrDi = s.mrDi := rfl
@[simp] theorem State.modRegion_mrTs : (s.modRegion r f).mrTs = s.mrTs := rfl
@[simp] theorem State.modRegion_mrFseq : (s.modRegion r f).mrFseq = s.mrFseq := rfl
@[simp] theorem State.modRegion_mrDiSeq : (s.modRegion r f).mrDiSeq = s.mrDiSeq := rfl
@[simp] theorem State.modRegion_mrStat : (s.modRegion r f).mrStat = s.mrStat := rfl
@[simp] theorem State.modRegion_mrCtr : (s.modRegion r f).mrCtr = s.mrCtr := rfl
@[simp] theorem State.modRegion_mrAx : (s.modRegion r f).mrAx = s.mrAx := rfl
@[simp] theorem State.modRegion_mrObj : (s.modRegion r f).mrObj = s.mrObj := rfl
@[simp] theorem State.modRegion_mrSts : (s.modRegion r f).mrSts = s.mrSts := rfl
@[simp] theorem State.modRegion_mrFb : (s.modRegion r f).mrFb = s.mrFb := rfl
@[simp] theorem State.modRegion_mrSett : (s.modRegion r f).mrSett = s.mrSett := rfl
@[simp] theorem State.modRegion_outForced : (s.modRegion r f).outForced = s.outForced := rfl
@[simp] theorem State.modRegion_flost : (s.modRegion r f).flost = s.flost := rfl
@[simp] theorem State.modRegion_slost : (s.modRegion r f).slost = s.slost := rfl
@[simp] theorem State.modRegion_psrc : (s.modRegion r f).psrc = s.psrc := rfl
@[simp] theorem State.modRegion_txSeq : (s.modRegion r f).txSeq = s.txSeq := rfl
@[simp] theorem State.modRegion_hframe : (s.modRegion r f).hframe = s.hframe := rfl
@[simp] theorem State.modRegion_hrx : (s.modRegion r f).hrx = s.hrx := rfl
@[simp] theorem State.modRegion_hrxMsgs : (s.modRegion r f).hrxMsgs = s.hrxMsgs := rfl
@[simp] theorem State.modRegion_lbp : (s.modRegion r f).lbp = s.lbp := rfl
@[simp] theorem State.modRegion_lbpPrev : (s.modRegion r f).lbpPrev = s.lbpPrev := rfl
@[simp] theorem State.modRegion_fdIn : (s.modRegion r f).fdIn = s.fdIn := rfl
@[simp] theorem State.modRegion_fdLs : (s.modRegion r f).fdLs = s.fdLs := rfl
@[simp] theorem State.modRegion_fdLplus : (s.modRegion r f).fdLplus = s.fdLplus := rfl
@[simp] theorem State.modRegion_fdDovf : (s.modRegion r f).fdDovf = s.fdDovf := rfl
@[simp] theorem State.modRegion_fdDiag : (s.modRegion r f).fdDiag = s.fdDiag := rfl
@[simp] theorem State.modRegion_ssackn : (s.modRegion r f).ssackn = s.ssackn := rfl
@[simp] theorem State.modRegion_safeAt : (s.modRegion r f).safeAt = s.safeAt := rfl
@[simp] theorem State.modRegion_reqn : (s.modRegion r f).reqn = s.reqn := rfl
@[simp] theorem State.modRegion_reqNow : (s.modRegion r f).reqNow = s.reqNow := rfl
@[simp] theorem State.modRegion_reqNext : (s.modRegion r f).reqNext = s.reqNext := rfl
@[simp] theorem State.modRegion_fdStage : (s.modRegion r f).fdStage = s.fdStage := rfl
@[simp] theorem State.modRegion_cfgDue : (s.modRegion r f).cfgDue = s.cfgDue := rfl
@[simp] theorem State.modRegion_cfgQ : (s.modRegion r f).cfgQ = s.cfgQ := rfl
@[simp] theorem State.modRegion_schedOut : (s.modRegion r f).schedOut = s.schedOut := rfl
@[simp] theorem State.modRegion_busOut : (s.modRegion r f).busOut = s.busOut := rfl
@[simp] theorem State.modRegion_ptStage : (s.modRegion r f).ptStage = s.ptStage := rfl
@[simp] theorem State.modRegion_ptHost : (s.modRegion r f).ptHost = s.ptHost := rfl
@[simp] theorem State.modRegion_ptGen : (s.modRegion r f).ptGen = s.ptGen := rfl
@[simp] theorem State.modRegion_ptLost : (s.modRegion r f).ptLost = s.ptLost := rfl
@[simp] theorem State.modRegion_fbStage : (s.modRegion r f).fbStage = s.fbStage := rfl
@[simp] theorem State.modRegion_fbSent : (s.modRegion r f).fbSent = s.fbSent := rfl
@[simp] theorem State.modRegion_fbLast : (s.modRegion r f).fbLast = s.fbLast := rfl
@[simp] theorem State.modRegion_fbSout : (s.modRegion r f).fbSout = s.fbSout := rfl
@[simp] theorem State.modRegion_fbTxs : (s.modRegion r f).fbTxs = s.fbTxs := rfl
@[simp] theorem State.modRegion_fbRun : (s.modRegion r f).fbRun = s.fbRun := rfl
@[simp] theorem State.modRegion_stCmds : (s.modRegion r f).stCmds = s.stCmds := rfl
@[simp] theorem State.modRegion_stOut : (s.modRegion r f).stOut = s.stOut := rfl
@[simp] theorem State.modRegion_stTag : (s.modRegion r f).stTag = s.stTag := rfl
@[simp] theorem State.modRegion_stSeq : (s.modRegion r f).stSeq = s.stSeq := rfl
@[simp] theorem State.modRegion_srx : (s.modRegion r f).srx = s.srx := rfl
@[simp] theorem State.modRegion_bd : (s.modRegion r f).bd = s.bd := rfl
@[simp] theorem State.modRegion_rtc : (s.modRegion r f).rtc = s.rtc := rfl
@[simp] theorem State.modRegion_er : (s.modRegion r f).er = s.er := rfl
@[simp] theorem State.modRegion_rk : (s.modRegion r f).rk = s.rk := rfl
@[simp] theorem State.modRegion_hc : (s.modRegion r f).hc = s.hc := rfl
@[simp] theorem State.modRegion_pl : (s.modRegion r f).pl = s.pl := rfl
@[simp] theorem State.modRegion_ks : (s.modRegion r f).ks = s.ks := rfl
@[simp] theorem State.modRegion_field : (s.modRegion r f).field = s.field := rfl
@[simp] theorem State.modRegion_sett : (s.modRegion r f).sett = s.sett := rfl
@[simp] theorem State.modRegion_free : (s.modRegion r f).free = s.free := rfl
@[simp] theorem State.modRegion_pending : (s.modRegion r f).pending = s.pending := rfl

end

section
variable (s : State) (q : Nat) (f : Source → Source)

@[simp] theorem State.modSrc_time : (s.modSrc q f).time = s.time := rfl
@[simp] theorem State.modSrc_warm : (s.modSrc q f).warm = s.warm := rfl
@[simp] theorem State.modSrc_econ : (s.modSrc q f).econ = s.econ := rfl
@[simp] theorem State.modSrc_econNext : (s.modSrc q f).econNext = s.econNext := rfl
@[simp] theorem State.modSrc_boot : (s.modSrc q f).boot = s.boot := rfl
@[simp] theorem State.modSrc_halted : (s.modSrc q f).halted = s.halted := rfl
@[simp] theorem State.modSrc_resetReq : (s.modSrc q f).resetReq = s.resetReq := rfl
@[simp] theorem State.modSrc_lanes : (s.modSrc q f).lanes = s.lanes := rfl
@[simp] theorem State.modSrc_lps : (s.modSrc q f).lps = s.lps := rfl
@[simp] theorem State.modSrc_tasks : (s.modSrc q f).tasks = s.tasks := rfl
@[simp] theorem State.modSrc_regions : (s.modSrc q f).regions = s.regions := rfl
@[simp] theorem State.modSrc_code : (s.modSrc q f).code = s.code := rfl
@[simp] theorem State.modSrc_mem : (s.modSrc q f).mem = s.mem := rfl
@[simp] theorem State.modSrc_prog : (s.modSrc q f).prog = s.prog := rfl
@[simp] theorem State.modSrc_sinks : (s.modSrc q f).sinks = s.sinks := rfl
@[simp] theorem State.modSrc_mram : (s.modSrc q f).mram = s.mram := rfl
@[simp] theorem State.modSrc_mports : (s.modSrc q f).mports = s.mports := rfl
@[simp] theorem State.modSrc_sports : (s.modSrc q f).sports = s.sports := rfl
@[simp] theorem State.modSrc_force : (s.modSrc q f).force = s.force := rfl
@[simp] theorem State.modSrc_wlog : (s.modSrc q f).wlog = s.wlog := rfl
@[simp] theorem State.modSrc_hold : (s.modSrc q f).hold = s.hold := rfl
@[simp] theorem State.modSrc_hcLevels : (s.modSrc q f).hcLevels = s.hcLevels := rfl
@[simp] theorem State.modSrc_hcThr : (s.modSrc q f).hcThr = s.hcThr := rfl
@[simp] theorem State.modSrc_hcErr : (s.modSrc q f).hcErr = s.hcErr := rfl
@[simp] theorem State.modSrc_hcEcnt : (s.modSrc q f).hcEcnt = s.hcEcnt := rfl
@[simp] theorem State.modSrc_mrDi : (s.modSrc q f).mrDi = s.mrDi := rfl
@[simp] theorem State.modSrc_mrTs : (s.modSrc q f).mrTs = s.mrTs := rfl
@[simp] theorem State.modSrc_mrFseq : (s.modSrc q f).mrFseq = s.mrFseq := rfl
@[simp] theorem State.modSrc_mrDiSeq : (s.modSrc q f).mrDiSeq = s.mrDiSeq := rfl
@[simp] theorem State.modSrc_mrStat : (s.modSrc q f).mrStat = s.mrStat := rfl
@[simp] theorem State.modSrc_mrCtr : (s.modSrc q f).mrCtr = s.mrCtr := rfl
@[simp] theorem State.modSrc_mrAx : (s.modSrc q f).mrAx = s.mrAx := rfl
@[simp] theorem State.modSrc_mrObj : (s.modSrc q f).mrObj = s.mrObj := rfl
@[simp] theorem State.modSrc_mrSts : (s.modSrc q f).mrSts = s.mrSts := rfl
@[simp] theorem State.modSrc_mrFb : (s.modSrc q f).mrFb = s.mrFb := rfl
@[simp] theorem State.modSrc_mrSett : (s.modSrc q f).mrSett = s.mrSett := rfl
@[simp] theorem State.modSrc_outForced : (s.modSrc q f).outForced = s.outForced := rfl
@[simp] theorem State.modSrc_flost : (s.modSrc q f).flost = s.flost := rfl
@[simp] theorem State.modSrc_slost : (s.modSrc q f).slost = s.slost := rfl
@[simp] theorem State.modSrc_psrc : (s.modSrc q f).psrc = s.psrc := rfl
@[simp] theorem State.modSrc_txSeq : (s.modSrc q f).txSeq = s.txSeq := rfl
@[simp] theorem State.modSrc_hframe : (s.modSrc q f).hframe = s.hframe := rfl
@[simp] theorem State.modSrc_hrx : (s.modSrc q f).hrx = s.hrx := rfl
@[simp] theorem State.modSrc_hrxMsgs : (s.modSrc q f).hrxMsgs = s.hrxMsgs := rfl
@[simp] theorem State.modSrc_lbp : (s.modSrc q f).lbp = s.lbp := rfl
@[simp] theorem State.modSrc_lbpPrev : (s.modSrc q f).lbpPrev = s.lbpPrev := rfl
@[simp] theorem State.modSrc_fdIn : (s.modSrc q f).fdIn = s.fdIn := rfl
@[simp] theorem State.modSrc_fdLs : (s.modSrc q f).fdLs = s.fdLs := rfl
@[simp] theorem State.modSrc_fdLplus : (s.modSrc q f).fdLplus = s.fdLplus := rfl
@[simp] theorem State.modSrc_fdDovf : (s.modSrc q f).fdDovf = s.fdDovf := rfl
@[simp] theorem State.modSrc_fdDiag : (s.modSrc q f).fdDiag = s.fdDiag := rfl
@[simp] theorem State.modSrc_ssackn : (s.modSrc q f).ssackn = s.ssackn := rfl
@[simp] theorem State.modSrc_safeAt : (s.modSrc q f).safeAt = s.safeAt := rfl
@[simp] theorem State.modSrc_reqn : (s.modSrc q f).reqn = s.reqn := rfl
@[simp] theorem State.modSrc_reqNow : (s.modSrc q f).reqNow = s.reqNow := rfl
@[simp] theorem State.modSrc_reqNext : (s.modSrc q f).reqNext = s.reqNext := rfl
@[simp] theorem State.modSrc_fdStage : (s.modSrc q f).fdStage = s.fdStage := rfl
@[simp] theorem State.modSrc_cfgDue : (s.modSrc q f).cfgDue = s.cfgDue := rfl
@[simp] theorem State.modSrc_cfgQ : (s.modSrc q f).cfgQ = s.cfgQ := rfl
@[simp] theorem State.modSrc_schedOut : (s.modSrc q f).schedOut = s.schedOut := rfl
@[simp] theorem State.modSrc_busOut : (s.modSrc q f).busOut = s.busOut := rfl
@[simp] theorem State.modSrc_ptStage : (s.modSrc q f).ptStage = s.ptStage := rfl
@[simp] theorem State.modSrc_ptHost : (s.modSrc q f).ptHost = s.ptHost := rfl
@[simp] theorem State.modSrc_ptGen : (s.modSrc q f).ptGen = s.ptGen := rfl
@[simp] theorem State.modSrc_ptLost : (s.modSrc q f).ptLost = s.ptLost := rfl
@[simp] theorem State.modSrc_fbStage : (s.modSrc q f).fbStage = s.fbStage := rfl
@[simp] theorem State.modSrc_fbSent : (s.modSrc q f).fbSent = s.fbSent := rfl
@[simp] theorem State.modSrc_fbLast : (s.modSrc q f).fbLast = s.fbLast := rfl
@[simp] theorem State.modSrc_fbSout : (s.modSrc q f).fbSout = s.fbSout := rfl
@[simp] theorem State.modSrc_fbTxs : (s.modSrc q f).fbTxs = s.fbTxs := rfl
@[simp] theorem State.modSrc_fbRun : (s.modSrc q f).fbRun = s.fbRun := rfl
@[simp] theorem State.modSrc_stCmds : (s.modSrc q f).stCmds = s.stCmds := rfl
@[simp] theorem State.modSrc_stOut : (s.modSrc q f).stOut = s.stOut := rfl
@[simp] theorem State.modSrc_stTag : (s.modSrc q f).stTag = s.stTag := rfl
@[simp] theorem State.modSrc_stSeq : (s.modSrc q f).stSeq = s.stSeq := rfl
@[simp] theorem State.modSrc_srx : (s.modSrc q f).srx = s.srx := rfl
@[simp] theorem State.modSrc_bd : (s.modSrc q f).bd = s.bd := rfl
@[simp] theorem State.modSrc_rtc : (s.modSrc q f).rtc = s.rtc := rfl
@[simp] theorem State.modSrc_er : (s.modSrc q f).er = s.er := rfl
@[simp] theorem State.modSrc_rk : (s.modSrc q f).rk = s.rk := rfl
@[simp] theorem State.modSrc_hc : (s.modSrc q f).hc = s.hc := rfl
@[simp] theorem State.modSrc_pl : (s.modSrc q f).pl = s.pl := rfl
@[simp] theorem State.modSrc_ks : (s.modSrc q f).ks = s.ks := rfl
@[simp] theorem State.modSrc_field : (s.modSrc q f).field = s.field := rfl
@[simp] theorem State.modSrc_sett : (s.modSrc q f).sett = s.sett := rfl
@[simp] theorem State.modSrc_free : (s.modSrc q f).free = s.free := rfl
@[simp] theorem State.modSrc_pending : (s.modSrc q f).pending = s.pending := rfl

end

section
variable (s : State) (m : Master) (a : Nat) (v : Word)

@[simp] theorem State.setMport_time : (s.setMport m a v).time = s.time := rfl
@[simp] theorem State.setMport_warm : (s.setMport m a v).warm = s.warm := rfl
@[simp] theorem State.setMport_econ : (s.setMport m a v).econ = s.econ := rfl
@[simp] theorem State.setMport_econNext : (s.setMport m a v).econNext = s.econNext := rfl
@[simp] theorem State.setMport_boot : (s.setMport m a v).boot = s.boot := rfl
@[simp] theorem State.setMport_halted : (s.setMport m a v).halted = s.halted := rfl
@[simp] theorem State.setMport_resetReq : (s.setMport m a v).resetReq = s.resetReq := rfl
@[simp] theorem State.setMport_lanes : (s.setMport m a v).lanes = s.lanes := rfl
@[simp] theorem State.setMport_lps : (s.setMport m a v).lps = s.lps := rfl
@[simp] theorem State.setMport_tasks : (s.setMport m a v).tasks = s.tasks := rfl
@[simp] theorem State.setMport_regions : (s.setMport m a v).regions = s.regions := rfl
@[simp] theorem State.setMport_code : (s.setMport m a v).code = s.code := rfl
@[simp] theorem State.setMport_mem : (s.setMport m a v).mem = s.mem := rfl
@[simp] theorem State.setMport_prog : (s.setMport m a v).prog = s.prog := rfl
@[simp] theorem State.setMport_sinks : (s.setMport m a v).sinks = s.sinks := rfl
@[simp] theorem State.setMport_mram : (s.setMport m a v).mram = s.mram := rfl
@[simp] theorem State.setMport_sports : (s.setMport m a v).sports = s.sports := rfl
@[simp] theorem State.setMport_force : (s.setMport m a v).force = s.force := rfl
@[simp] theorem State.setMport_wlog : (s.setMport m a v).wlog = s.wlog := rfl
@[simp] theorem State.setMport_srcs : (s.setMport m a v).srcs = s.srcs := rfl
@[simp] theorem State.setMport_hold : (s.setMport m a v).hold = s.hold := rfl
@[simp] theorem State.setMport_hcLevels : (s.setMport m a v).hcLevels = s.hcLevels := rfl
@[simp] theorem State.setMport_hcThr : (s.setMport m a v).hcThr = s.hcThr := rfl
@[simp] theorem State.setMport_hcErr : (s.setMport m a v).hcErr = s.hcErr := rfl
@[simp] theorem State.setMport_hcEcnt : (s.setMport m a v).hcEcnt = s.hcEcnt := rfl
@[simp] theorem State.setMport_mrDi : (s.setMport m a v).mrDi = s.mrDi := rfl
@[simp] theorem State.setMport_mrTs : (s.setMport m a v).mrTs = s.mrTs := rfl
@[simp] theorem State.setMport_mrFseq : (s.setMport m a v).mrFseq = s.mrFseq := rfl
@[simp] theorem State.setMport_mrDiSeq : (s.setMport m a v).mrDiSeq = s.mrDiSeq := rfl
@[simp] theorem State.setMport_mrStat : (s.setMport m a v).mrStat = s.mrStat := rfl
@[simp] theorem State.setMport_mrCtr : (s.setMport m a v).mrCtr = s.mrCtr := rfl
@[simp] theorem State.setMport_mrAx : (s.setMport m a v).mrAx = s.mrAx := rfl
@[simp] theorem State.setMport_mrObj : (s.setMport m a v).mrObj = s.mrObj := rfl
@[simp] theorem State.setMport_mrSts : (s.setMport m a v).mrSts = s.mrSts := rfl
@[simp] theorem State.setMport_mrFb : (s.setMport m a v).mrFb = s.mrFb := rfl
@[simp] theorem State.setMport_mrSett : (s.setMport m a v).mrSett = s.mrSett := rfl
@[simp] theorem State.setMport_outForced : (s.setMport m a v).outForced = s.outForced := rfl
@[simp] theorem State.setMport_flost : (s.setMport m a v).flost = s.flost := rfl
@[simp] theorem State.setMport_slost : (s.setMport m a v).slost = s.slost := rfl
@[simp] theorem State.setMport_psrc : (s.setMport m a v).psrc = s.psrc := rfl
@[simp] theorem State.setMport_txSeq : (s.setMport m a v).txSeq = s.txSeq := rfl
@[simp] theorem State.setMport_hframe : (s.setMport m a v).hframe = s.hframe := rfl
@[simp] theorem State.setMport_hrx : (s.setMport m a v).hrx = s.hrx := rfl
@[simp] theorem State.setMport_hrxMsgs : (s.setMport m a v).hrxMsgs = s.hrxMsgs := rfl
@[simp] theorem State.setMport_lbp : (s.setMport m a v).lbp = s.lbp := rfl
@[simp] theorem State.setMport_lbpPrev : (s.setMport m a v).lbpPrev = s.lbpPrev := rfl
@[simp] theorem State.setMport_fdIn : (s.setMport m a v).fdIn = s.fdIn := rfl
@[simp] theorem State.setMport_fdLs : (s.setMport m a v).fdLs = s.fdLs := rfl
@[simp] theorem State.setMport_fdLplus : (s.setMport m a v).fdLplus = s.fdLplus := rfl
@[simp] theorem State.setMport_fdDovf : (s.setMport m a v).fdDovf = s.fdDovf := rfl
@[simp] theorem State.setMport_fdDiag : (s.setMport m a v).fdDiag = s.fdDiag := rfl
@[simp] theorem State.setMport_ssackn : (s.setMport m a v).ssackn = s.ssackn := rfl
@[simp] theorem State.setMport_safeAt : (s.setMport m a v).safeAt = s.safeAt := rfl
@[simp] theorem State.setMport_reqn : (s.setMport m a v).reqn = s.reqn := rfl
@[simp] theorem State.setMport_reqNow : (s.setMport m a v).reqNow = s.reqNow := rfl
@[simp] theorem State.setMport_reqNext : (s.setMport m a v).reqNext = s.reqNext := rfl
@[simp] theorem State.setMport_fdStage : (s.setMport m a v).fdStage = s.fdStage := rfl
@[simp] theorem State.setMport_cfgDue : (s.setMport m a v).cfgDue = s.cfgDue := rfl
@[simp] theorem State.setMport_cfgQ : (s.setMport m a v).cfgQ = s.cfgQ := rfl
@[simp] theorem State.setMport_schedOut : (s.setMport m a v).schedOut = s.schedOut := rfl
@[simp] theorem State.setMport_busOut : (s.setMport m a v).busOut = s.busOut := rfl
@[simp] theorem State.setMport_ptStage : (s.setMport m a v).ptStage = s.ptStage := rfl
@[simp] theorem State.setMport_ptHost : (s.setMport m a v).ptHost = s.ptHost := rfl
@[simp] theorem State.setMport_ptGen : (s.setMport m a v).ptGen = s.ptGen := rfl
@[simp] theorem State.setMport_ptLost : (s.setMport m a v).ptLost = s.ptLost := rfl
@[simp] theorem State.setMport_fbStage : (s.setMport m a v).fbStage = s.fbStage := rfl
@[simp] theorem State.setMport_fbSent : (s.setMport m a v).fbSent = s.fbSent := rfl
@[simp] theorem State.setMport_fbLast : (s.setMport m a v).fbLast = s.fbLast := rfl
@[simp] theorem State.setMport_fbSout : (s.setMport m a v).fbSout = s.fbSout := rfl
@[simp] theorem State.setMport_fbTxs : (s.setMport m a v).fbTxs = s.fbTxs := rfl
@[simp] theorem State.setMport_fbRun : (s.setMport m a v).fbRun = s.fbRun := rfl
@[simp] theorem State.setMport_stCmds : (s.setMport m a v).stCmds = s.stCmds := rfl
@[simp] theorem State.setMport_stOut : (s.setMport m a v).stOut = s.stOut := rfl
@[simp] theorem State.setMport_stTag : (s.setMport m a v).stTag = s.stTag := rfl
@[simp] theorem State.setMport_stSeq : (s.setMport m a v).stSeq = s.stSeq := rfl
@[simp] theorem State.setMport_srx : (s.setMport m a v).srx = s.srx := rfl
@[simp] theorem State.setMport_bd : (s.setMport m a v).bd = s.bd := rfl
@[simp] theorem State.setMport_rtc : (s.setMport m a v).rtc = s.rtc := rfl
@[simp] theorem State.setMport_er : (s.setMport m a v).er = s.er := rfl
@[simp] theorem State.setMport_rk : (s.setMport m a v).rk = s.rk := rfl
@[simp] theorem State.setMport_hc : (s.setMport m a v).hc = s.hc := rfl
@[simp] theorem State.setMport_pl : (s.setMport m a v).pl = s.pl := rfl
@[simp] theorem State.setMport_ks : (s.setMport m a v).ks = s.ks := rfl
@[simp] theorem State.setMport_field : (s.setMport m a v).field = s.field := rfl
@[simp] theorem State.setMport_sett : (s.setMport m a v).sett = s.sett := rfl
@[simp] theorem State.setMport_free : (s.setMport m a v).free = s.free := rfl
@[simp] theorem State.setMport_pending : (s.setMport m a v).pending = s.pending := rfl

end

section
variable (s : State) (a : Nat) (v : Word)

@[simp] theorem State.setSport_time : (s.setSport a v).time = s.time := rfl
@[simp] theorem State.setSport_warm : (s.setSport a v).warm = s.warm := rfl
@[simp] theorem State.setSport_econ : (s.setSport a v).econ = s.econ := rfl
@[simp] theorem State.setSport_econNext : (s.setSport a v).econNext = s.econNext := rfl
@[simp] theorem State.setSport_boot : (s.setSport a v).boot = s.boot := rfl
@[simp] theorem State.setSport_halted : (s.setSport a v).halted = s.halted := rfl
@[simp] theorem State.setSport_resetReq : (s.setSport a v).resetReq = s.resetReq := rfl
@[simp] theorem State.setSport_lanes : (s.setSport a v).lanes = s.lanes := rfl
@[simp] theorem State.setSport_lps : (s.setSport a v).lps = s.lps := rfl
@[simp] theorem State.setSport_tasks : (s.setSport a v).tasks = s.tasks := rfl
@[simp] theorem State.setSport_regions : (s.setSport a v).regions = s.regions := rfl
@[simp] theorem State.setSport_code : (s.setSport a v).code = s.code := rfl
@[simp] theorem State.setSport_mem : (s.setSport a v).mem = s.mem := rfl
@[simp] theorem State.setSport_prog : (s.setSport a v).prog = s.prog := rfl
@[simp] theorem State.setSport_sinks : (s.setSport a v).sinks = s.sinks := rfl
@[simp] theorem State.setSport_mram : (s.setSport a v).mram = s.mram := rfl
@[simp] theorem State.setSport_mports : (s.setSport a v).mports = s.mports := rfl
@[simp] theorem State.setSport_force : (s.setSport a v).force = s.force := rfl
@[simp] theorem State.setSport_wlog : (s.setSport a v).wlog = s.wlog := rfl
@[simp] theorem State.setSport_srcs : (s.setSport a v).srcs = s.srcs := rfl
@[simp] theorem State.setSport_hold : (s.setSport a v).hold = s.hold := rfl
@[simp] theorem State.setSport_hcLevels : (s.setSport a v).hcLevels = s.hcLevels := rfl
@[simp] theorem State.setSport_hcThr : (s.setSport a v).hcThr = s.hcThr := rfl
@[simp] theorem State.setSport_hcErr : (s.setSport a v).hcErr = s.hcErr := rfl
@[simp] theorem State.setSport_hcEcnt : (s.setSport a v).hcEcnt = s.hcEcnt := rfl
@[simp] theorem State.setSport_mrDi : (s.setSport a v).mrDi = s.mrDi := rfl
@[simp] theorem State.setSport_mrTs : (s.setSport a v).mrTs = s.mrTs := rfl
@[simp] theorem State.setSport_mrFseq : (s.setSport a v).mrFseq = s.mrFseq := rfl
@[simp] theorem State.setSport_mrDiSeq : (s.setSport a v).mrDiSeq = s.mrDiSeq := rfl
@[simp] theorem State.setSport_mrStat : (s.setSport a v).mrStat = s.mrStat := rfl
@[simp] theorem State.setSport_mrCtr : (s.setSport a v).mrCtr = s.mrCtr := rfl
@[simp] theorem State.setSport_mrAx : (s.setSport a v).mrAx = s.mrAx := rfl
@[simp] theorem State.setSport_mrObj : (s.setSport a v).mrObj = s.mrObj := rfl
@[simp] theorem State.setSport_mrSts : (s.setSport a v).mrSts = s.mrSts := rfl
@[simp] theorem State.setSport_mrFb : (s.setSport a v).mrFb = s.mrFb := rfl
@[simp] theorem State.setSport_mrSett : (s.setSport a v).mrSett = s.mrSett := rfl
@[simp] theorem State.setSport_outForced : (s.setSport a v).outForced = s.outForced := rfl
@[simp] theorem State.setSport_flost : (s.setSport a v).flost = s.flost := rfl
@[simp] theorem State.setSport_slost : (s.setSport a v).slost = s.slost := rfl
@[simp] theorem State.setSport_psrc : (s.setSport a v).psrc = s.psrc := rfl
@[simp] theorem State.setSport_txSeq : (s.setSport a v).txSeq = s.txSeq := rfl
@[simp] theorem State.setSport_hframe : (s.setSport a v).hframe = s.hframe := rfl
@[simp] theorem State.setSport_hrx : (s.setSport a v).hrx = s.hrx := rfl
@[simp] theorem State.setSport_hrxMsgs : (s.setSport a v).hrxMsgs = s.hrxMsgs := rfl
@[simp] theorem State.setSport_lbp : (s.setSport a v).lbp = s.lbp := rfl
@[simp] theorem State.setSport_lbpPrev : (s.setSport a v).lbpPrev = s.lbpPrev := rfl
@[simp] theorem State.setSport_fdIn : (s.setSport a v).fdIn = s.fdIn := rfl
@[simp] theorem State.setSport_fdLs : (s.setSport a v).fdLs = s.fdLs := rfl
@[simp] theorem State.setSport_fdLplus : (s.setSport a v).fdLplus = s.fdLplus := rfl
@[simp] theorem State.setSport_fdDovf : (s.setSport a v).fdDovf = s.fdDovf := rfl
@[simp] theorem State.setSport_fdDiag : (s.setSport a v).fdDiag = s.fdDiag := rfl
@[simp] theorem State.setSport_ssackn : (s.setSport a v).ssackn = s.ssackn := rfl
@[simp] theorem State.setSport_safeAt : (s.setSport a v).safeAt = s.safeAt := rfl
@[simp] theorem State.setSport_reqn : (s.setSport a v).reqn = s.reqn := rfl
@[simp] theorem State.setSport_reqNow : (s.setSport a v).reqNow = s.reqNow := rfl
@[simp] theorem State.setSport_reqNext : (s.setSport a v).reqNext = s.reqNext := rfl
@[simp] theorem State.setSport_fdStage : (s.setSport a v).fdStage = s.fdStage := rfl
@[simp] theorem State.setSport_cfgDue : (s.setSport a v).cfgDue = s.cfgDue := rfl
@[simp] theorem State.setSport_cfgQ : (s.setSport a v).cfgQ = s.cfgQ := rfl
@[simp] theorem State.setSport_schedOut : (s.setSport a v).schedOut = s.schedOut := rfl
@[simp] theorem State.setSport_busOut : (s.setSport a v).busOut = s.busOut := rfl
@[simp] theorem State.setSport_ptStage : (s.setSport a v).ptStage = s.ptStage := rfl
@[simp] theorem State.setSport_ptHost : (s.setSport a v).ptHost = s.ptHost := rfl
@[simp] theorem State.setSport_ptGen : (s.setSport a v).ptGen = s.ptGen := rfl
@[simp] theorem State.setSport_ptLost : (s.setSport a v).ptLost = s.ptLost := rfl
@[simp] theorem State.setSport_fbStage : (s.setSport a v).fbStage = s.fbStage := rfl
@[simp] theorem State.setSport_fbSent : (s.setSport a v).fbSent = s.fbSent := rfl
@[simp] theorem State.setSport_fbLast : (s.setSport a v).fbLast = s.fbLast := rfl
@[simp] theorem State.setSport_fbSout : (s.setSport a v).fbSout = s.fbSout := rfl
@[simp] theorem State.setSport_fbTxs : (s.setSport a v).fbTxs = s.fbTxs := rfl
@[simp] theorem State.setSport_fbRun : (s.setSport a v).fbRun = s.fbRun := rfl
@[simp] theorem State.setSport_stCmds : (s.setSport a v).stCmds = s.stCmds := rfl
@[simp] theorem State.setSport_stOut : (s.setSport a v).stOut = s.stOut := rfl
@[simp] theorem State.setSport_stTag : (s.setSport a v).stTag = s.stTag := rfl
@[simp] theorem State.setSport_stSeq : (s.setSport a v).stSeq = s.stSeq := rfl
@[simp] theorem State.setSport_srx : (s.setSport a v).srx = s.srx := rfl
@[simp] theorem State.setSport_bd : (s.setSport a v).bd = s.bd := rfl
@[simp] theorem State.setSport_rtc : (s.setSport a v).rtc = s.rtc := rfl
@[simp] theorem State.setSport_er : (s.setSport a v).er = s.er := rfl
@[simp] theorem State.setSport_rk : (s.setSport a v).rk = s.rk := rfl
@[simp] theorem State.setSport_hc : (s.setSport a v).hc = s.hc := rfl
@[simp] theorem State.setSport_pl : (s.setSport a v).pl = s.pl := rfl
@[simp] theorem State.setSport_ks : (s.setSport a v).ks = s.ks := rfl
@[simp] theorem State.setSport_field : (s.setSport a v).field = s.field := rfl
@[simp] theorem State.setSport_sett : (s.setSport a v).sett = s.sett := rfl
@[simp] theorem State.setSport_free : (s.setSport a v).free = s.free := rfl
@[simp] theorem State.setSport_pending : (s.setSport a v).pending = s.pending := rfl

end

section
variable (s : State)

@[simp] theorem State.draw_time : s.draw.time = s.time := rfl
@[simp] theorem State.draw_warm : s.draw.warm = s.warm := rfl
@[simp] theorem State.draw_econ : s.draw.econ = s.econ := rfl
@[simp] theorem State.draw_econNext : s.draw.econNext = s.econNext := rfl
@[simp] theorem State.draw_boot : s.draw.boot = s.boot := rfl
@[simp] theorem State.draw_halted : s.draw.halted = s.halted := rfl
@[simp] theorem State.draw_resetReq : s.draw.resetReq = s.resetReq := rfl
@[simp] theorem State.draw_lanes : s.draw.lanes = s.lanes := rfl
@[simp] theorem State.draw_lps : s.draw.lps = s.lps := rfl
@[simp] theorem State.draw_tasks : s.draw.tasks = s.tasks := rfl
@[simp] theorem State.draw_regions : s.draw.regions = s.regions := rfl
@[simp] theorem State.draw_code : s.draw.code = s.code := rfl
@[simp] theorem State.draw_mem : s.draw.mem = s.mem := rfl
@[simp] theorem State.draw_prog : s.draw.prog = s.prog := rfl
@[simp] theorem State.draw_sinks : s.draw.sinks = s.sinks := rfl
@[simp] theorem State.draw_mram : s.draw.mram = s.mram := rfl
@[simp] theorem State.draw_mports : s.draw.mports = s.mports := rfl
@[simp] theorem State.draw_sports : s.draw.sports = s.sports := rfl
@[simp] theorem State.draw_force : s.draw.force = s.force := rfl
@[simp] theorem State.draw_wlog : s.draw.wlog = s.wlog := rfl
@[simp] theorem State.draw_srcs : s.draw.srcs = s.srcs := rfl
@[simp] theorem State.draw_hold : s.draw.hold = s.hold := rfl
@[simp] theorem State.draw_hcLevels : s.draw.hcLevels = s.hcLevels := rfl
@[simp] theorem State.draw_hcThr : s.draw.hcThr = s.hcThr := rfl
@[simp] theorem State.draw_hcErr : s.draw.hcErr = s.hcErr := rfl
@[simp] theorem State.draw_hcEcnt : s.draw.hcEcnt = s.hcEcnt := rfl
@[simp] theorem State.draw_mrDi : s.draw.mrDi = s.mrDi := rfl
@[simp] theorem State.draw_mrTs : s.draw.mrTs = s.mrTs := rfl
@[simp] theorem State.draw_mrFseq : s.draw.mrFseq = s.mrFseq := rfl
@[simp] theorem State.draw_mrDiSeq : s.draw.mrDiSeq = s.mrDiSeq := rfl
@[simp] theorem State.draw_mrStat : s.draw.mrStat = s.mrStat := rfl
@[simp] theorem State.draw_mrCtr : s.draw.mrCtr = s.mrCtr := rfl
@[simp] theorem State.draw_mrAx : s.draw.mrAx = s.mrAx := rfl
@[simp] theorem State.draw_mrObj : s.draw.mrObj = s.mrObj := rfl
@[simp] theorem State.draw_mrSts : s.draw.mrSts = s.mrSts := rfl
@[simp] theorem State.draw_mrFb : s.draw.mrFb = s.mrFb := rfl
@[simp] theorem State.draw_mrSett : s.draw.mrSett = s.mrSett := rfl
@[simp] theorem State.draw_outForced : s.draw.outForced = s.outForced := rfl
@[simp] theorem State.draw_flost : s.draw.flost = s.flost := rfl
@[simp] theorem State.draw_slost : s.draw.slost = s.slost := rfl
@[simp] theorem State.draw_psrc : s.draw.psrc = s.psrc := rfl
@[simp] theorem State.draw_txSeq : s.draw.txSeq = s.txSeq := rfl
@[simp] theorem State.draw_hframe : s.draw.hframe = s.hframe := rfl
@[simp] theorem State.draw_hrx : s.draw.hrx = s.hrx := rfl
@[simp] theorem State.draw_hrxMsgs : s.draw.hrxMsgs = s.hrxMsgs := rfl
@[simp] theorem State.draw_lbp : s.draw.lbp = s.lbp := rfl
@[simp] theorem State.draw_lbpPrev : s.draw.lbpPrev = s.lbpPrev := rfl
@[simp] theorem State.draw_fdIn : s.draw.fdIn = s.fdIn := rfl
@[simp] theorem State.draw_fdLs : s.draw.fdLs = s.fdLs := rfl
@[simp] theorem State.draw_fdLplus : s.draw.fdLplus = s.fdLplus := rfl
@[simp] theorem State.draw_fdDovf : s.draw.fdDovf = s.fdDovf := rfl
@[simp] theorem State.draw_fdDiag : s.draw.fdDiag = s.fdDiag := rfl
@[simp] theorem State.draw_ssackn : s.draw.ssackn = s.ssackn := rfl
@[simp] theorem State.draw_safeAt : s.draw.safeAt = s.safeAt := rfl
@[simp] theorem State.draw_reqn : s.draw.reqn = s.reqn := rfl
@[simp] theorem State.draw_reqNow : s.draw.reqNow = s.reqNow := rfl
@[simp] theorem State.draw_reqNext : s.draw.reqNext = s.reqNext := rfl
@[simp] theorem State.draw_fdStage : s.draw.fdStage = s.fdStage := rfl
@[simp] theorem State.draw_cfgDue : s.draw.cfgDue = s.cfgDue := rfl
@[simp] theorem State.draw_cfgQ : s.draw.cfgQ = s.cfgQ := rfl
@[simp] theorem State.draw_schedOut : s.draw.schedOut = s.schedOut := rfl
@[simp] theorem State.draw_busOut : s.draw.busOut = s.busOut := rfl
@[simp] theorem State.draw_ptStage : s.draw.ptStage = s.ptStage := rfl
@[simp] theorem State.draw_ptHost : s.draw.ptHost = s.ptHost := rfl
@[simp] theorem State.draw_ptGen : s.draw.ptGen = s.ptGen := rfl
@[simp] theorem State.draw_ptLost : s.draw.ptLost = s.ptLost := rfl
@[simp] theorem State.draw_fbStage : s.draw.fbStage = s.fbStage := rfl
@[simp] theorem State.draw_fbSent : s.draw.fbSent = s.fbSent := rfl
@[simp] theorem State.draw_fbLast : s.draw.fbLast = s.fbLast := rfl
@[simp] theorem State.draw_fbSout : s.draw.fbSout = s.fbSout := rfl
@[simp] theorem State.draw_fbTxs : s.draw.fbTxs = s.fbTxs := rfl
@[simp] theorem State.draw_fbRun : s.draw.fbRun = s.fbRun := rfl
@[simp] theorem State.draw_stCmds : s.draw.stCmds = s.stCmds := rfl
@[simp] theorem State.draw_stOut : s.draw.stOut = s.stOut := rfl
@[simp] theorem State.draw_stTag : s.draw.stTag = s.stTag := rfl
@[simp] theorem State.draw_stSeq : s.draw.stSeq = s.stSeq := rfl
@[simp] theorem State.draw_srx : s.draw.srx = s.srx := rfl
@[simp] theorem State.draw_bd : s.draw.bd = s.bd := rfl
@[simp] theorem State.draw_rtc : s.draw.rtc = s.rtc := rfl
@[simp] theorem State.draw_er : s.draw.er = s.er := rfl
@[simp] theorem State.draw_rk : s.draw.rk = s.rk := rfl
@[simp] theorem State.draw_hc : s.draw.hc = s.hc := rfl
@[simp] theorem State.draw_pl : s.draw.pl = s.pl := rfl
@[simp] theorem State.draw_ks : s.draw.ks = s.ks := rfl
@[simp] theorem State.draw_field : s.draw.field = s.field := rfl
@[simp] theorem State.draw_sett : s.draw.sett = s.sett := rfl
@[simp] theorem State.draw_pending : s.draw.pending = s.pending := rfl

end

section
variable (s : State) (a : Nat) (v : Word)

@[simp] theorem State.memSet_time : (s.memSet a v).time = s.time := rfl
@[simp] theorem State.memSet_warm : (s.memSet a v).warm = s.warm := rfl
@[simp] theorem State.memSet_econ : (s.memSet a v).econ = s.econ := rfl
@[simp] theorem State.memSet_econNext : (s.memSet a v).econNext = s.econNext := rfl
@[simp] theorem State.memSet_boot : (s.memSet a v).boot = s.boot := rfl
@[simp] theorem State.memSet_halted : (s.memSet a v).halted = s.halted := rfl
@[simp] theorem State.memSet_resetReq : (s.memSet a v).resetReq = s.resetReq := rfl
@[simp] theorem State.memSet_lanes : (s.memSet a v).lanes = s.lanes := rfl
@[simp] theorem State.memSet_lps : (s.memSet a v).lps = s.lps := rfl
@[simp] theorem State.memSet_tasks : (s.memSet a v).tasks = s.tasks := rfl
@[simp] theorem State.memSet_regions : (s.memSet a v).regions = s.regions := rfl
@[simp] theorem State.memSet_code : (s.memSet a v).code = s.code := rfl
@[simp] theorem State.memSet_prog : (s.memSet a v).prog = s.prog := rfl
@[simp] theorem State.memSet_sinks : (s.memSet a v).sinks = s.sinks := rfl
@[simp] theorem State.memSet_mram : (s.memSet a v).mram = s.mram := rfl
@[simp] theorem State.memSet_mports : (s.memSet a v).mports = s.mports := rfl
@[simp] theorem State.memSet_sports : (s.memSet a v).sports = s.sports := rfl
@[simp] theorem State.memSet_force : (s.memSet a v).force = s.force := rfl
@[simp] theorem State.memSet_wlog : (s.memSet a v).wlog = s.wlog := rfl
@[simp] theorem State.memSet_srcs : (s.memSet a v).srcs = s.srcs := rfl
@[simp] theorem State.memSet_hold : (s.memSet a v).hold = s.hold := rfl
@[simp] theorem State.memSet_hcLevels : (s.memSet a v).hcLevels = s.hcLevels := rfl
@[simp] theorem State.memSet_hcThr : (s.memSet a v).hcThr = s.hcThr := rfl
@[simp] theorem State.memSet_hcErr : (s.memSet a v).hcErr = s.hcErr := rfl
@[simp] theorem State.memSet_hcEcnt : (s.memSet a v).hcEcnt = s.hcEcnt := rfl
@[simp] theorem State.memSet_mrDi : (s.memSet a v).mrDi = s.mrDi := rfl
@[simp] theorem State.memSet_mrTs : (s.memSet a v).mrTs = s.mrTs := rfl
@[simp] theorem State.memSet_mrFseq : (s.memSet a v).mrFseq = s.mrFseq := rfl
@[simp] theorem State.memSet_mrDiSeq : (s.memSet a v).mrDiSeq = s.mrDiSeq := rfl
@[simp] theorem State.memSet_mrStat : (s.memSet a v).mrStat = s.mrStat := rfl
@[simp] theorem State.memSet_mrCtr : (s.memSet a v).mrCtr = s.mrCtr := rfl
@[simp] theorem State.memSet_mrAx : (s.memSet a v).mrAx = s.mrAx := rfl
@[simp] theorem State.memSet_mrObj : (s.memSet a v).mrObj = s.mrObj := rfl
@[simp] theorem State.memSet_mrSts : (s.memSet a v).mrSts = s.mrSts := rfl
@[simp] theorem State.memSet_mrFb : (s.memSet a v).mrFb = s.mrFb := rfl
@[simp] theorem State.memSet_mrSett : (s.memSet a v).mrSett = s.mrSett := rfl
@[simp] theorem State.memSet_outForced : (s.memSet a v).outForced = s.outForced := rfl
@[simp] theorem State.memSet_flost : (s.memSet a v).flost = s.flost := rfl
@[simp] theorem State.memSet_slost : (s.memSet a v).slost = s.slost := rfl
@[simp] theorem State.memSet_psrc : (s.memSet a v).psrc = s.psrc := rfl
@[simp] theorem State.memSet_txSeq : (s.memSet a v).txSeq = s.txSeq := rfl
@[simp] theorem State.memSet_hframe : (s.memSet a v).hframe = s.hframe := rfl
@[simp] theorem State.memSet_hrx : (s.memSet a v).hrx = s.hrx := rfl
@[simp] theorem State.memSet_hrxMsgs : (s.memSet a v).hrxMsgs = s.hrxMsgs := rfl
@[simp] theorem State.memSet_lbp : (s.memSet a v).lbp = s.lbp := rfl
@[simp] theorem State.memSet_lbpPrev : (s.memSet a v).lbpPrev = s.lbpPrev := rfl
@[simp] theorem State.memSet_fdIn : (s.memSet a v).fdIn = s.fdIn := rfl
@[simp] theorem State.memSet_fdLs : (s.memSet a v).fdLs = s.fdLs := rfl
@[simp] theorem State.memSet_fdLplus : (s.memSet a v).fdLplus = s.fdLplus := rfl
@[simp] theorem State.memSet_fdDovf : (s.memSet a v).fdDovf = s.fdDovf := rfl
@[simp] theorem State.memSet_fdDiag : (s.memSet a v).fdDiag = s.fdDiag := rfl
@[simp] theorem State.memSet_ssackn : (s.memSet a v).ssackn = s.ssackn := rfl
@[simp] theorem State.memSet_safeAt : (s.memSet a v).safeAt = s.safeAt := rfl
@[simp] theorem State.memSet_reqn : (s.memSet a v).reqn = s.reqn := rfl
@[simp] theorem State.memSet_reqNow : (s.memSet a v).reqNow = s.reqNow := rfl
@[simp] theorem State.memSet_reqNext : (s.memSet a v).reqNext = s.reqNext := rfl
@[simp] theorem State.memSet_fdStage : (s.memSet a v).fdStage = s.fdStage := rfl
@[simp] theorem State.memSet_cfgDue : (s.memSet a v).cfgDue = s.cfgDue := rfl
@[simp] theorem State.memSet_cfgQ : (s.memSet a v).cfgQ = s.cfgQ := rfl
@[simp] theorem State.memSet_schedOut : (s.memSet a v).schedOut = s.schedOut := rfl
@[simp] theorem State.memSet_busOut : (s.memSet a v).busOut = s.busOut := rfl
@[simp] theorem State.memSet_ptStage : (s.memSet a v).ptStage = s.ptStage := rfl
@[simp] theorem State.memSet_ptHost : (s.memSet a v).ptHost = s.ptHost := rfl
@[simp] theorem State.memSet_ptGen : (s.memSet a v).ptGen = s.ptGen := rfl
@[simp] theorem State.memSet_ptLost : (s.memSet a v).ptLost = s.ptLost := rfl
@[simp] theorem State.memSet_fbStage : (s.memSet a v).fbStage = s.fbStage := rfl
@[simp] theorem State.memSet_fbSent : (s.memSet a v).fbSent = s.fbSent := rfl
@[simp] theorem State.memSet_fbLast : (s.memSet a v).fbLast = s.fbLast := rfl
@[simp] theorem State.memSet_fbSout : (s.memSet a v).fbSout = s.fbSout := rfl
@[simp] theorem State.memSet_fbTxs : (s.memSet a v).fbTxs = s.fbTxs := rfl
@[simp] theorem State.memSet_fbRun : (s.memSet a v).fbRun = s.fbRun := rfl
@[simp] theorem State.memSet_stCmds : (s.memSet a v).stCmds = s.stCmds := rfl
@[simp] theorem State.memSet_stOut : (s.memSet a v).stOut = s.stOut := rfl
@[simp] theorem State.memSet_stTag : (s.memSet a v).stTag = s.stTag := rfl
@[simp] theorem State.memSet_stSeq : (s.memSet a v).stSeq = s.stSeq := rfl
@[simp] theorem State.memSet_srx : (s.memSet a v).srx = s.srx := rfl
@[simp] theorem State.memSet_bd : (s.memSet a v).bd = s.bd := rfl
@[simp] theorem State.memSet_rtc : (s.memSet a v).rtc = s.rtc := rfl
@[simp] theorem State.memSet_er : (s.memSet a v).er = s.er := rfl
@[simp] theorem State.memSet_rk : (s.memSet a v).rk = s.rk := rfl
@[simp] theorem State.memSet_hc : (s.memSet a v).hc = s.hc := rfl
@[simp] theorem State.memSet_pl : (s.memSet a v).pl = s.pl := rfl
@[simp] theorem State.memSet_ks : (s.memSet a v).ks = s.ks := rfl
@[simp] theorem State.memSet_field : (s.memSet a v).field = s.field := rfl
@[simp] theorem State.memSet_sett : (s.memSet a v).sett = s.sett := rfl
@[simp] theorem State.memSet_free : (s.memSet a v).free = s.free := rfl
@[simp] theorem State.memSet_pending : (s.memSet a v).pending = s.pending := rfl

end

end Sys2Proof.Machine
end

