-- ==== Sys2Proof/Tests/Slice0.lean ====
section
/-! SUPPORT. Tests of the model: ill-formed operands are refused, worked values of the spec come out, and for the hypotheses
of every statement a state and operands meet them all together (`¬ (hypotheses → False)`). -/

set_option linter.unusedVariables false

namespace Sys2Proof.Tests

open Sys2Proof Sys2Proof.Machine

/-- After boot, with nothing else. -/
def s0 : State := { State.reset with boot := .done }

/-- No region holds a bit error where no listed one does. -/
theorem errs_nil (s : State) (h : s.regions.all (fun e => decide (e.2.errs = [])) = true) (r : Nat) : (s.region r).errs = [] := by
  unfold State.region
  revert h
  generalize s.regions = m
  intro h
  induction m with
  | nil => rfl
  | cons e t ih =>
    simp only [List.all_cons, Bool.and_eq_true, decide_eq_true_eq] at h
    unfold SMap.get
    split
    · exact h.1
    · exact ih h.2

/-- No logical processor in RUN, and so none that exists. -/
theorem anyRun_none (s : State) (h : ∀ p, p < 8 → (s.lp p).st ≠ .run) : s.anyRun = false := by
  unfold State.anyRun
  rw [List.any_eq_false]
  intro p hp
  simp [h p (List.mem_range.mp hp)]

theorem slots_123 {P : Nat → Prop} (h1 : P 1) (h2 : P 2) (h3 : P 3) : ∀ k, 1 ≤ k → k ≤ 3 → P k := by
  intro k a b
  have e : k = 1 ∨ k = 2 ∨ k = 3 := by omega
  rcases e with rfl | rfl | rfl <;> assumption

end Sys2Proof.Tests

/-! ### Ill-formed operands: each condition of Instr.wf refuses a command, and the command stops under operandRange -/

namespace Sys2Proof.Tests

open Sys2Proof Sys2Proof.Machine

/-- A classical frame of two bytes with identifier 5. -/
def can0 : CanFrame := ⟨false, false, false, false, false, 5, 2, [1, 2], 0⟩

theorem test_wf_can : can0.wf = true := by decide
theorem test_wf_can_data : ({ can0 with data := [1] } : CanFrame).wf = false := by decide
theorem test_wf_can_len : ({ can0 with len := 9, data := List.replicate 9 0 } : CanFrame).wf = false := by decide
theorem test_wf_can_fd_len : ({ can0 with fdf := true, len := 9, data := List.replicate 9 0 } : CanFrame).wf = false := by decide
theorem test_wf_can_fd_12 : ({ can0 with fdf := true, len := 12, data := List.replicate 12 0 } : CanFrame).wf = true := by decide
theorem test_wf_can_remote : ({ can0 with rtr := true } : CanFrame).wf = false := by decide
theorem test_wf_can_fd_remote : ({ can0 with fdf := true, rtr := true, data := [] } : CanFrame).wf = false := by decide
theorem test_wf_can_id : ({ can0 with id := 2048 } : CanFrame).wf = false := by decide
theorem test_wf_station : (Instr.stationRequest 0 0).wf = false := by decide
theorem test_wf_rack : (Instr.rackInputPhaseEnd [⟨0, [], []⟩] 0).wf = false := by decide
theorem test_wf_probe : (Instr.identityProbe 0 none).wf = false := by decide
theorem test_ill_formed_stops : exec (.canFrameReceive 0 { can0 with len := 9 }) s0 = .fault .operandRange := rfl

/-- The table gives its rows no bits, so no word spells a command. -/
theorem test_no_word : decodeTableWord 32 0 = none := rfl

/-! ### Values that the spec's worked examples give -/

/-- 00_scope and 14_badger: the tokens of 0x1234, 0x091A and 0x848D, and the questions that follow. -/
theorem test_badger_tokens : bdToken 0x1234 = 0xCB0D ∧ bdToken 0x091A = 0x12A4 ∧ bdToken 0x848D = 0x7A74 ∧
    bdNext 0x1234 = 0x091A ∧ bdNext 0x091A = 0x848D := by decide

/-- A bundle of four slots, slot 0 first. -/
def bundle (a b c d : BitVec 48) : BitVec 192 := d ++ c ++ b ++ a

/-- 02_move_set: the first slots of the nested rung. -/
theorem test_slots_rung : (decodeBundle (bundle 0x010000400040 0x01000080004D 0x040001C00052 0x010000C0005B)).map
    (fun m => (m.guard, m.src, m.dst)) =
    [(0, 0x040001, 0x40), (0, 0x040002, 0x4D), (0, 0x100007, 0x52), (0, 0x040003, 0x5B)] := by decide

/-- 02_move_set: the caller's bundle, whose slot 0 takes its source from slot 1. -/
def callBundle : BitVec 192 := bundle 0x0FFFFFC00002 0x000000001200 0x000601606F00 0x100000000000
theorem test_slots_call : (decodeBundle callBundle).map (fun m => (m.slot, m.guard, m.src, m.lit, m.dst)) =
    [(0, 0, 0x3FFFFF, some 0x1200, 2), (2, 0, 0x1805, none, 0x206F00), (3, 1, 0, none, 0)] := by decide

/-- 02_move_set, the subroutine call: before it, and its frame after the three posted stores. -/
def beforeCall : State :=
  { s0 with regions := [(0, { cov := .split })], lps := [(0, { st := .run, phase := .exec })],
            lanes := [(0, { pc := 0x400, ports := [(8, 0x208000), (9, 0x207000), (10, 0x208000)], bstk := [false], flags := { z := true, acc := true } })],
            code := [(0x400, callBundle)] }
def next (o : Host.Outcome State Fault Refusal) (f : State → Bool) : Bool := match o with | .next t => f t | _ => false
theorem test_call : next (exec (.bundleIssue 0) beforeCall) (fun t => decide ((t.lane 0).pc = 0x1200) && decide ((t.lane 0).port 8 = 0x207FFE)) =
    true := by decide +kernel
theorem test_call_frame : (beforeCall.lane 0).flagsWord = 0x00010081 := by decide

/-- 03_function_units, the filter loop: 33,587,200 in the accumulator, 1,025 in mac.rs, mac.px at 0x104. -/
def taps : SMap Word := [(0, 1024), (1, 3072), (2, 5120), (3, 7168), (4, 7168), (5, 5120), (6, 3072), (7, 1024)]
def samples : SMap Word := [(0x100, 1000), (0x101, 1000), (0x102, 1000), (0x103, 1800), (0x104, 1000), (0x105, 1000), (0x106, 1000), (0x107, 1000)]
theorem test_filter : let r := macRun ⟨0, 0, 1, 1, 0x100, 8, 7, 15, 0x104⟩ samples taps 5 8
    r.2 = 33587200 ∧ r.1.ports.lookup 0x1A0 = some 1025 ∧ r.1.ports.lookup 0x1A2 = some 0x104 ∧ (r.1.z, r.1.n, r.1.v, r.1.sat) = (false, false, false, false) := by
  decide +kernel

/-- 03_function_units, the distance-bound on-delay: the record after the nip closes, at 20 mm and at 40 mm. -/
def nip : IRec := { (IRec.ofWords []) with pt := 0x0000002800000000 }
theorem test_on_delay : let a := nip.ton true 0x0000100000000000
    let b := a.ton true (0x0000100000000000 + 20 * 65536 * 65536)
    let c := b.ton true (0x0000100000000000 + 40 * 65536 * 65536)
    (a.run, a.q, a.origin, a.et) = (true, false, 0x0000100000000000, 0) ∧ (b.q, b.et) = (false, 0x0000001400000000) ∧
    (c.q, c.et) = (true, 0x0000002800000000) := by decide

/-- 08_interrupts, nesting: decision D1 enters RIRQ2 at level 3, and D2 enters CARRY4 above it. -/
def palletiser (srcs : SMap Source) (ls : List Level) (pc sp : Nat) : State :=
  { s0 with regions := [(0, { cov := .split })], srcs := srcs, lps := [(1, { st := .run, phase := .exec, levels := ls })],
            lanes := [(1, { pc := pc, bcnt := 2, flags := { z := true }, ports := [(8, BitVec.ofNat 32 sp), (9, 0x200000), (10, 0x208000)] })] }
theorem test_nesting_d1 : next (exec (.handlerDelivery 1) (palletiser [(0x22, { cnt := 1, cfg := 0x31003000 })] [] 0x802 0x208000))
    (fun t => decide ((t.lane 1).pc = 0x3000) && decide ((t.lane 1).port 8 = 0x207FFE) &&
      decide ((t.lane 1).items.map (fun i => (i.dst, i.val)) = [(0x207FFF, some 1), (0x207FFE, some 0x802)]) &&
      decide ((t.lp 1).levels = [⟨3, 0x22, 1⟩])) = true := by decide +kernel
theorem test_nesting_d2 : next (exec (.handlerDelivery 1)
    (palletiser [(0x22, { active := true, cfg := 0x31003000 }), (0x34, { cnt := 1, cfg := 0x91003100 })] [⟨3, 0x22, 1⟩] 0x3000 0x207FFE))
    (fun t => decide ((t.lane 1).pc = 0x3100) && decide ((t.lane 1).port 8 = 0x207FFC) && decide (runningLevel (t.lp 1).levels = 9)) =
    true := by decide +kernel

/-- 05_axes_and_positions, the rotary knife: word 0 of entries 100 to 102. -/
theorem test_knife_entries : [0x2C400003, 0x2C800003, 0x2D800000].map
    (fun w => (entryAxis w, entryFwd w, entryRev w, entryRearm w, entryAction w, entryTarget w)) =
    [(1, true, false, true, 1, 3), (1, true, false, true, 2, 3), (1, true, false, true, 6, 0)] := by decide
/-- 05_axes_and_positions: task 1 of the knife. -/
theorem test_knife_task : let d := taskDescOf (List.replicate 8 0xA1000066) 0
    (d.en, d.trig, d.prio, d.arg) = (true, 1, 1, 102) := by decide

/-- 15 R509, R512: 2000 begins on a Saturday and has a 29 February; 2100 has none. -/
theorem test_calendar : (calOf 0).wday = 6 ∧ ((calOf (59 * 86400)).mon, (calOf (59 * 86400)).day) = (2, 29) ∧
    leap 100 = false ∧ leap 0 = true := by decide +kernel

/-- 03 R114: a sum that wraps sets C and Z; the most negative number minus one sets V. -/
theorem test_add_wraps : let r := iaResult .add 0xFFFFFFFF 0 0 1 false
    (r.z, r.n, r.c, r.v) = (true, false, true, false) := by decide
theorem test_sub_overflows : let r := iaResult .sub 0x80000000 0 0 1 false
    (r.z, r.n, r.c, r.v) = (false, false, false, true) := by decide

/-- 15 R512: the second after the last. -/
theorem test_rollover : next (exec .secondIncrement { s0 with rtc := { secs := secondsIn400 - 1 } }) (fun t => t.rtc.invalid && decide (t.rtc.secs % secondsIn400 = 0)) =
    true := by decide +kernel

end Sys2Proof.Tests

namespace Sys2Proof.Tests.Lanes

open Sys2Proof Sys2Proof.Machine Sys2Proof.Tests

def lvs (n : Nat) : List Level := (List.range n).map (fun k => ⟨3 + k, 0x20 + k, 1⟩)
def sp1 : SMap Region := [(0, { cov := .split })]
def lane1 (ps : List (Nat × Word)) : Lane := { pc := 100, bcnt := 4, ports := ps, bstk := [true, false] }
def ready1 (x : Lane) : State := { State.reset with boot := .done, regions := sp1, lps := [(0, { st := .run, phase := .exec })], lanes := [(0, x)] }
def stk : List (Nat × Word) := [(0x08, 0x200100), (0x09, 0x200000), (0x0A, 0x200200)]
def inst (ty : Nat) : State := { ready1 (lane1 [(0x200, 0x200010)]) with mem := [(0x200010, BitVec.ofNat 32 (ty * 2 ^ 24 + 7 * 2 ^ 20))] }
def bun : BitVec 192 := (0x100000000000 : BitVec 48) ++ (0x100000000000 : BitVec 48) ++ (0x100000000000 : BitVec 48) ++
    ((0 : BitVec 4) ++ (0x1805 : BitVec 22) ++ (0x187 : BitVec 22))
def calls : State := { ready1 (lane1 stk) with mem := [(0x200100, 0x155), (0x200101, 0x20083)], code := [(100, bun)] }
def handler : State := { calls with lps := [(0, { st := .run, phase := .exec, levels := lvs 2 })] }
def item (i : Item) (x : Lane) : State := ready1 { x with items := [i] }
def items1 : List Item := [⟨1, 0, 0, 0x80, none, some ⟨0x200000, some 5⟩, false, [], false⟩,
    ⟨1, 0, 0, 0x200000, some 5, none, false, [], false⟩, ⟨1, 0, 0, 0x18D, some 5, none, false, [], false⟩]
def pend1 : Pend := ⟨.ia, 0, 9, [(0xA0, 7)], some (true, false, true, false), false, false, false, false, none⟩
def states : List State :=
  [ { ready1 (lane1 []) with lanes := [(0, lane1 []), (1, { seq := 5, items := [⟨64, 0, 0, 0x200000, some 5, none, false, [], false⟩] })] },
       ready1 (lane1 []), ready1 {}, ready1 { bstk := List.replicate 16 true, flags := {acc := true} },
      ready1 (lane1 [(0xE0, 1)]), ready1 (lane1 [(0x1C0, 0x200000)]), ready1 (lane1 [(0x1C0, 0x80000)]) ] ++
      [1,2,3,0x11,0x12,0x13,0x21,0x22].map inst ++ [calls, handler] ++ items1.map (fun i => item i { macBusy := 5 }) ++
      items1.map (fun i => item i { macBusy := 1 }) ++ [ready1 { pend := [pend1] }]
def st (n : Nat) : State := states.getD n State.reset

theorem witness_BundleMoves_lane :
    ¬ (∀ (s : State) (l : Fin 8) (a d : Nat) (r : PortRow), s.ready l.val → s.mayIssue l.val = true →
        (s.region (l.val / 2)).errs = [] → let x := s.lane l.val; let b := s.bundleAt l.val x.pc; x.pc ≤ lastBundle →
        0x1000 ≤ a → a < 0x2000 → portRow d = some r → r.dir = .op → d < 0x400 → slotBits b 0 = (0 : BitVec 4) ++
        BitVec.ofNat 22 a ++ BitVec.ofNat 22 d → (∀ k, 1 ≤ k → k ≤ 3 →
        (slotBits b k).extractLsb' 44 4 = 1 ∧ (slotBits b k).extractLsb' 22 22 ≠ 0x3FFFFF) → False) :=
  fun h => h (st 15) (0) (6149) (391) ({ lo := 391, hi := 391, dir := Sys2Proof.Machine.PortDir.op, width := 6, rd := [Sys2Proof.World.program], wr := [Sys2Proof.World.program] })
      (by unfold State.ready; decide) (by decide) (by decide) (by decide) (by decide) (by decide) (by decide) (by decide)
      (by decide) (by decide) (slots_123 (by decide) (by decide) (by decide))

theorem witness_LaneEvents :
    ¬ (∀ (s : State) (l : Fin 8) (i : Item) (v : Word), s.side l.val = .solo → (∀ r, (s.region r).errs = []) →
        let x := s.lane l.val; x.items = [i] → x.pend = [] → x.blq = [] → x.iuq = [] → x.evq = [] → ∀ (a : Nat),
        i.dst = 0x80 → i.val = none → i.ld = some ⟨a, some v⟩ → False) ∧
    ¬ (∀ (s : State) (l : Fin 8) (i : Item) (v : Word), s.side l.val = .solo → (∀ r, (s.region r).errs = []) →
        let x := s.lane l.val; x.items = [i] → x.pend = [] → x.blq = [] → x.iuq = [] → x.evq = [] →
        (place i.dst = .word ∨ place i.dst = .outBit ∨ place i.dst = .marker) → i.val = some v → i.ld = none →
        s.storeBefore l.val i.seq = false → False) ∧
    ¬ (∀ (s : State) (l : Fin 8) (i : Item) (v : Word), s.side l.val = .solo → (∀ r, (s.region r).errs = []) →
        let x := s.lane l.val; x.items = [i] → x.pend = [] → x.blq = [] → x.iuq = [] → x.evq = [] → i.dst = 0x18D →
        i.val = some v → i.ld = none → x.cyc + 1 < x.macBusy → False) ∧
    ¬ (∀ (s : State) (l : Fin 8) (i : Item) (v : Word), s.side l.val = .solo → (∀ r, (s.region r).errs = []) →
        let x := s.lane l.val; x.items = [i] → x.pend = [] → x.blq = [] → x.iuq = [] → x.evq = [] → i.dst = 0x18D →
        i.val = some v → i.ld = none → x.cyc + 1 = x.macBusy → False) ∧
    ¬ (∀ (s : State) (l : Fin 8) (r : Pend) (rest : List Pend) (z n c v : Bool), s.side l.val = .solo →
        let x := s.lane l.val; x.items = [] → x.evq = [] → x.pend = r :: rest → r.g ≠ .bl → r.g ≠ .ls → r.arith = false →
        r.fl = some (z, n, c, v) → r.acc = none → False) :=
  ⟨fun h => h (st 17) (0) ({ seq := 1, baddr := 0, slot := 0, dst := 128, val := none, ld := some { addr := 2097152, got := some 0x00000005#32 }, cin := false, replay := [], unit := false }) (0x00000005#32)
      (by decide) (errs_nil _ (by decide)) (by decide) (by decide) (by decide) (by decide) (by decide) (2097152) (by decide)
      (by decide) (by decide),
   fun h => h (st 18) (0) ({ seq := 1, baddr := 0, slot := 0, dst := 2097152, val := some 0x00000005#32, ld := none, cin := false, replay := [], unit := false }) (0x00000005#32)
       (by decide) (errs_nil _ (by decide)) (by decide) (by decide) (by decide) (by decide) (by decide) (by decide)
       (by decide) (by decide) (by decide),
   fun h => h (st 19) (0) ({ seq := 1, baddr := 0, slot := 0, dst := 397, val := some 0x00000005#32, ld := none, cin := false, replay := [], unit := false }) (0x00000005#32)
       (by decide) (errs_nil _ (by decide)) (by decide) (by decide) (by decide) (by decide) (by decide) (by decide)
       (by decide) (by decide) (by decide),
   fun h => h (st 22) (0) ({ seq := 1, baddr := 0, slot := 0, dst := 397, val := some 0x00000005#32, ld := none, cin := false, replay := [], unit := false }) (0x00000005#32)
       (by decide) (errs_nil _ (by decide)) (by decide) (by decide) (by decide) (by decide) (by decide) (by decide)
       (by decide) (by decide) (by decide),
   fun h => h (st 23) (0) ({ g := Sys2Proof.ResGroup.ia, seq := 0, due := 9, ports := [(160, 0x00000007#32)], fl := some (true, false, true, false), dz := false, sat := false, arith := false, busy := false, acc := none }) ([]) (true) (false) (true) (false)
       (by decide) (by decide) (by decide) (by decide) (by decide) (by decide) (by decide) (by decide) (by decide)⟩

theorem witness_RegisterWrites :
    ¬ (∀ (s : State) (n : Fin 8) (a : Addr) (v : Word) (r : PortRow), s.lpExists n.val = true → s.ready (s.laneOf n.val) →
        portRow a.toNat = some r → r.dir = .op → a.toNat < 0x400 → False) ∧
    ¬ (∀ (s : State) (m : Master) (v : Word), (∀ n, m ≠ .lp n) → m.world ≠ .sett → False) :=
  ⟨fun h => h (st 0) (0) (0x000187#22) (0x00000000#32) ({ lo := 391, hi := 391, dir := Sys2Proof.Machine.PortDir.op, width := 6, rd := [Sys2Proof.World.program], wr := [Sys2Proof.World.program] })
      (by decide) (by unfold State.ready; decide) (by decide) (by decide) (by decide),
   fun h => h (st 0) (Sys2Proof.Master.house) (0x00000000#32) (by decide) (by decide)⟩

theorem witness_SilentViolation :
    ¬ (∀ (s : State) (m : Master) (a : Addr) (v : Word), (∀ n, m ≠ .lp n) → place a.toNat = .shared →
        mayWrite m.world a.toNat = false → False) ∧
    ¬ (∀ (s : State) (c : Instr) (m : Master) (a : Nat), triggerOf c = some (m, a) → s.masterExists m = true →
        mayWrite m.world a = false → False) ∧
    ¬ (∀ (s : State) (c : Instr) (m : Master) (a : Nat), triggerOf c = some (m, a) → s.masterExists m = false → False) ∧
    ¬ (∀ (s : State) (l : Fin 8) (p : Nat), s.ready l.val → s.lpFor l.val = p → p < 8 → s.boot = .done →
        (s.lane l.val).port 0xE0 = 1 → (s.src (8 + p)).cnt ≠ 255 → False) :=
  ⟨fun h => h (st 0) (Sys2Proof.Master.house) (0x000880#22) (0x00000000#32) (by decide) (by decide) (by decide),
   fun h => h State.reset (.ftSet .sett 1) .sett 0xBC4 rfl rfl rfl,
   fun h => h State.reset (.ftSet (.lp 1) 1) (.lp 1) 0xBC4 rfl rfl,
   fun h => h (st 4) (0) (0) (by unfold State.ready; decide) (by decide) (by decide) (by decide) (by decide) (by decide)⟩

theorem witness_ControlFlow :
    ¬ (∀ (s : State) (l : Fin 8) (v : Word), s.ready l.val → s.mayIssue l.val = true → (s.region (l.val / 2)).errs = [] →
        let x := s.lane l.val; x.pc ≤ lastBundle → v.toNat ≤ lastBundle → False) ∧
    ¬ (∀ (s : State) (l : Fin 8) (v : Word), s.ready l.val → s.mayIssue l.val = true → (s.region (l.val / 2)).errs = [] →
        let x := s.lane l.val; x.pc ≤ lastBundle → (BitVec.ofNat 32 x.pc + v).toNat ≤ lastBundle → False) ∧
    ¬ (∀ (s : State) (l : Fin 8) (v : Word), s.ready l.val → s.mayIssue l.val = true → (s.region (l.val / 2)).errs = [] →
        regionPresent (l.val / 2) = true → let x := s.lane l.val; let sp := (x.port 0x008).toNat; x.pc ≤ lastBundle →
        x.stackOk (l.val / 2) = true → (x.port 0x009).toNat + 2 ≤ sp → s.storesBefore l.val → v.toNat ≤ lastBundle → False) ∧
    ¬ (∀ (s : State) (l : Fin 8) (v : Word), s.ready l.val → s.mayIssue l.val = true → (s.region (l.val / 2)).errs = [] →
        regionPresent (l.val / 2) = true → let x := s.lane l.val; let sp := (x.port 0x008).toNat; x.pc ≤ lastBundle →
        x.stackOk (l.val / 2) = true → let back := (s.memGet sp).toNat % 2 ^ 18; let saved := s.memGet (sp + 1);
        sp + 2 ≤ (x.port 0x00A).toNat → back ≤ lastBundle → saved.toNat / 2 ^ 16 % 32 ≤ x.bstk.length →
        saved.toNat / 2 ^ 16 % 32 ≤ 16 → False) ∧
    ¬ (∀ (s : State) (l : Fin 8) (v : Word) (p : Nat) (e : Level) (rest : List Level), s.ready l.val →
        s.mayIssue l.val = true → (s.region (l.val / 2)).errs = [] → s.lpOfLane l.val = some p → p < 8 →
        (s.lp p).levels = e :: rest → s.tailSource l.val ((s.lane l.val).bcnt + 1) = none → let x := s.lane l.val;
        let sp := (x.port 0x008).toNat; let back := (s.memGet sp).toNat % 2 ^ 18; let saved := s.memGet (sp + 1);
        x.pc ≤ lastBundle → x.stackOk (l.val / 2) = true → sp + 2 ≤ (x.port 0x00A).toNat → back ≤ lastBundle →
        saved.toNat / 2 ^ 16 % 32 ≤ x.bstk.length → saved.toNat / 2 ^ 16 % 32 ≤ 16 → False) ∧
    ¬ (∀ (s : State) (l : Fin 8) (v : Word) (p : Nat), s.ready l.val → s.mayIssue l.val = true →
        (s.region (l.val / 2)).errs = [] → s.lpOfLane l.val = some p → p < 8 → (s.lane l.val).idleH = false →
        (s.lane l.val).pc ≤ lastBundle → False) :=
  ⟨fun h => h (st 0) (0) (0x00000000#32) (by unfold State.ready; decide) (by decide) (by decide) (by decide) (by decide),
   fun h => h (st 0) (0) (0x00000000#32) (by unfold State.ready; decide) (by decide) (by decide) (by decide) (by decide),
   fun h => h (st 15) (0) (0x00000000#32) (by unfold State.ready; decide) (by decide) (by decide) (by decide) (by decide)
       (by decide) (by decide) (by unfold State.storesBefore; decide) (by decide),
   fun h => h (st 15) (0) (0x00000000#32) (by unfold State.ready; decide) (by decide) (by decide) (by decide) (by decide)
       (by decide) (by decide) (by decide) (by decide) (by decide),
   fun h => h (st 16) (0) (0x00000000#32) (0) ({ level := 3, src := 32, ecnt := 0x01#8 }) ([{ level := 4, src := 33, ecnt := 0x01#8 }])
       (by unfold State.ready; decide) (by decide) (by decide) (by decide) (by decide) (by decide) (by decide +kernel)
       (by decide) (by decide) (by decide) (by decide) (by decide) (by decide),
   fun h => h (st 0) (0) (0x00000000#32) (0) (by unfold State.ready; decide) (by decide) (by decide) (by decide) (by decide)
       (by decide) (by decide)⟩

theorem witness_Integer32 :
    ¬ (∀ (s : State) (l : Fin 8) (b : Word), s.ready l.val → False) ∧
    ¬ (∀ (s : State) (l : Fin 8) (b : Word), s.ready l.val → False) :=
  ⟨fun h => h (st 0) (0) (0x00000000#32) (by unfold State.ready; decide),
   fun h => h (st 0) (0) (0x00000000#32) (by unfold State.ready; decide)⟩

theorem witness_Integer64 :
    ¬ (∀ (s : State) (l : Fin 8) (b : Word), s.ready l.val → False) :=
  fun h => h (st 0) (0) (0x00000000#32) (by unfold State.ready; decide)

theorem witness_MultiplyDivide :
    ¬ (∀ (s : State) (l : Fin 8) (b : Word), s.ready l.val → False) ∧
    ¬ (∀ (s : State) (l : Fin 8) (b : Word), s.ready l.val → (s.lane l.val).port 0xE0 = 0 → b ≠ 0 → False) ∧
    ¬ (∀ (s : State) (l : Fin 8) (b : Word), s.ready l.val → (s.lane l.val).port 0xE0 = 0 → b = 0 → False) :=
  ⟨fun h => h (st 0) (0) (0x00000000#32) (by unfold State.ready; decide),
   fun h => h (st 0) (0) (0x00000001#32) (by unfold State.ready; decide) (by decide) (by decide),
   fun h => h (st 0) (0) (0x00000000#32) (by unfold State.ready; decide) (by decide) (by decide)⟩

theorem witness_Compares :
    ¬ (∀ (s : State) (l : Fin 8) (b : Word), s.ready l.val → False) :=
  fun h => h (st 0) (0) (0x00000000#32) (by unfold State.ready; decide)

theorem witness_FloatingPoint :
    ¬ (∀ (s : State) (l : Fin 8) (b : Word), s.ready l.val → False) ∧
    ¬ (∀ (s : State) (l : Fin 8) (b : Word), s.ready l.val → (s.lane l.val).port 0xE0 = 0 → False) ∧
    ¬ (∀ w : Word, (binary32.read w.toNat).isNan = false → False) ∧
    ¬ (∀ w : BitVec 64, (binary64.read w.toNat).isNan = false → False) :=
  ⟨fun h => h (st 0) (0) (0x00000000#32) (by unfold State.ready; decide),
   fun h => h (st 0) (0) (0x00000000#32) (by unfold State.ready; decide) (by decide),
   fun h => h (0x00000000#32) (by decide),
   fun h => h (0x0000000000000000#64) (by decide)⟩

theorem witness_MultiplyAccumulate :
    ¬ (∀ (s : State) (l : Fin 8) (b : Word), s.ready l.val → (s.region (l.val / 2)).errs = [] → False) ∧
    ¬ (∀ (p : MacPorts) (xm ym : SMap Word) (acc : BitVec 72) (n : Nat), p.xlen = 0 → p.sx = 1 → p.sy = 1 → p.mode = 0 →
        p.px < 8192 → p.py < 8192 →
        let term := fun (k : Nat) => (xm.get (fun _ => 0) ((p.px + k) % 8192)).toInt * (ym.get (fun _ => 0) ((p.py + k) % 8192)).toInt;
        let sum := fun (k : Nat) => ((List.range k).map term).foldl (· + ·) acc.toInt; (∀ k, k ≤ n →
        -2 ^ 71 ≤ sum k ∧ sum k < 2 ^ 71) → False) :=
  ⟨fun h => h (st 0) (0) (0x00000000#32) (by unfold State.ready; decide) (by decide),
   fun h => h ({ px := 5, py := 0, sx := 1, sy := 1, xlo := 0, xlen := 0, mode := 0x00000000#32, sh := 0, xa := 0 }) ([]) ([]) (0x000000000000000000#72) (0)
       (by decide) (by decide) (by decide) (by decide) (by decide) (by decide) (by decide)⟩

theorem witness_IndexedAccess :
    ¬ (∀ (s : State) (l : Fin 8) (b : Word), s.ready l.val → s.storesBefore l.val → (∀ r, (s.region r).errs = []) →
        let x := s.lane l.val; let ld := (x.port 0x1C0 + x.port 0x1C1 + b).toNat % 2 ^ 22; place ld = .word → False) ∧
    ¬ (∀ (s : State) (l : Fin 8) (b : Word), s.ready l.val → s.storesBefore l.val → (∀ r, (s.region r).errs = []) →
        let x := s.lane l.val; let ld := (x.port 0x1C0 + x.port 0x1C1 + b).toNat % 2 ^ 22; (place ld).isBit = true → False) ∧
    ¬ (∀ (s : State) (l : Fin 8) (b : Word), s.ready l.val → s.storesBefore l.val → (∀ r, (s.region r).errs = []) →
        let x := s.lane l.val; let st := (x.port 0x1C0 + x.port 0x1C1).toNat % 2 ^ 22; place st = .word → False) ∧
    ¬ (∀ (s : State) (l : Fin 8) (b : Word), s.ready l.val → s.storesBefore l.val → (∀ r, (s.region r).errs = []) →
        let x := s.lane l.val; let st := (x.port 0x1C0 + x.port 0x1C1).toNat % 2 ^ 22;
        (place st = .outBit ∨ place st = .marker) → False) :=
  ⟨fun h => h (st 1) (0) (0x00200000#32) (by unfold State.ready; decide) (by unfold State.storesBefore; decide) (errs_nil _
      (by decide)) (by decide),
   fun h => h (st 1) (0) (0x00080003#32) (by unfold State.ready; decide) (by unfold State.storesBefore; decide) (errs_nil _
       (by decide)) (by decide),
   fun h => h (st 5) (0) (0x00000000#32) (by unfold State.ready; decide) (by unfold State.storesBefore; decide) (errs_nil _
       (by decide)) (by decide),
   fun h => h (st 6) (0) (0x00000000#32) (by unfold State.ready; decide) (by unfold State.storesBefore; decide) (errs_nil _
       (by decide)) (by decide)⟩

theorem witness_BitUnit :
    ¬ (∀ (s : State) (l : Fin 8) (b : Word), s.ready l.val → False) ∧
    ¬ (∀ (s : State) (l : Fin 8) (b : Word), s.ready l.val → let x := s.lane l.val; x.bstk.length < 16 → False) ∧
    ¬ (∀ (s : State) (l : Fin 8) (b : Word), s.ready l.val → let x := s.lane l.val; ∀ (e : Bool) (rest : List Bool),
        x.bstk = e :: rest → False) ∧
    ¬ (∀ (s : State) (l : Fin 8) (b : Word), s.ready l.val → s.storesBefore l.val → let a := b.toNat % 2 ^ 22;
        place a = .outBit ∨ place a = .marker → False) ∧
    ¬ (∀ (s : State) (l : Fin 8) (b : Word), s.ready l.val → s.storesBefore l.val → let x := s.lane l.val;
        let a := b.toNat % 2 ^ 22; place a = .outBit ∨ place a = .marker → x.flags.acc = true → False) ∧
    ¬ (∀ (s : State) (l : Fin 8) (b : Word), s.ready l.val → s.storesBefore l.val → let x := s.lane l.val;
        let a := b.toNat % 2 ^ 22; place a = .outBit ∨ place a = .marker → x.flags.acc = false → False) ∧
    ¬ (∀ (s : State) (l : Fin 8) (b : Word), s.ready l.val → let x := s.lane l.val; x.bstk.length = 16 → False) ∧
    ¬ (∀ (s : State) (l : Fin 8) (b : Word), s.ready l.val → let x := s.lane l.val; x.bstk = [] → False) :=
  ⟨fun h => h (st 0) (0) (0x00000000#32) (by unfold State.ready; decide),
   fun h => h (st 0) (0) (0x00000000#32) (by unfold State.ready; decide) (by decide),
   fun h => h (st 0) (0) (0x00000000#32) (by unfold State.ready; decide) (true) ([false]) (by decide),
   fun h => h (st 1) (0) (0x00080003#32) (by unfold State.ready; decide) (by unfold State.storesBefore; decide) (by decide),
   fun h => h (st 3) (0) (0x00080003#32) (by unfold State.ready; decide) (by unfold State.storesBefore; decide) (by decide)
       (by decide),
   fun h => h (st 1) (0) (0x00080003#32) (by unfold State.ready; decide) (by unfold State.storesBefore; decide) (by decide)
       (by decide),
   fun h => h (st 3) (0) (0x00000000#32) (by unfold State.ready; decide) (by decide),
   fun h => h (st 2) (0) (0x00000000#32) (by unfold State.ready; decide) (by decide)⟩

theorem witness_InstanceUnit :
    ¬ (∀ (s : State) (l : Fin 8) (b : Word), s.ready l.val → s.storesBefore l.val → (s.region (l.val / 2)).errs = [] →
        let x := s.lane l.val; let ptr := (x.port 0x200).toNat; let r := IRec.ofWords (s.memGetList ptr 8); ptr % 8 = 0 →
        inSlice (l.val / 2) ptr = true → r.axis ≤ 7 → r.type = 0x01 → False) ∧
    ¬ (∀ (s : State) (l : Fin 8) (b : Word), s.ready l.val → s.storesBefore l.val → (s.region (l.val / 2)).errs = [] →
        let x := s.lane l.val; let ptr := (x.port 0x200).toNat; let r := IRec.ofWords (s.memGetList ptr 8); ptr % 8 = 0 →
        inSlice (l.val / 2) ptr = true → r.axis ≤ 7 → r.type = 0x02 → False) ∧
    ¬ (∀ (s : State) (l : Fin 8) (b : Word), s.ready l.val → s.storesBefore l.val → (s.region (l.val / 2)).errs = [] →
        let x := s.lane l.val; let ptr := (x.port 0x200).toNat; let r := IRec.ofWords (s.memGetList ptr 8); ptr % 8 = 0 →
        inSlice (l.val / 2) ptr = true → r.axis ≤ 7 → r.type = 0x03 → False) ∧
    ¬ (∀ (s : State) (l : Fin 8) (b : Word), s.ready l.val → s.storesBefore l.val → (s.region (l.val / 2)).errs = [] →
        let x := s.lane l.val; let ptr := (x.port 0x200).toNat; let r := IRec.ofWords (s.memGetList ptr 8); ptr % 8 = 0 →
        inSlice (l.val / 2) ptr = true → r.axis ≤ 7 → r.type = 0x11 → False) ∧
    ¬ (∀ (s : State) (l : Fin 8) (b : Word), s.ready l.val → s.storesBefore l.val → (s.region (l.val / 2)).errs = [] →
        let x := s.lane l.val; let ptr := (x.port 0x200).toNat; let r := IRec.ofWords (s.memGetList ptr 8); ptr % 8 = 0 →
        inSlice (l.val / 2) ptr = true → r.axis ≤ 7 → r.type = 0x12 → False) ∧
    ¬ (∀ (s : State) (l : Fin 8) (b : Word), s.ready l.val → s.storesBefore l.val → (s.region (l.val / 2)).errs = [] →
        let x := s.lane l.val; let ptr := (x.port 0x200).toNat; let r := IRec.ofWords (s.memGetList ptr 8); ptr % 8 = 0 →
        inSlice (l.val / 2) ptr = true → r.axis ≤ 7 → r.type = 0x13 → False) ∧
    ¬ (∀ (s : State) (l : Fin 8) (b : Word), s.ready l.val → s.storesBefore l.val → (s.region (l.val / 2)).errs = [] →
        let x := s.lane l.val; let ptr := (x.port 0x200).toNat; let r := IRec.ofWords (s.memGetList ptr 8); ptr % 8 = 0 →
        inSlice (l.val / 2) ptr = true → r.axis ≤ 7 → r.type = 0x21 → False) ∧
    ¬ (∀ (s : State) (l : Fin 8) (b : Word), s.ready l.val → s.storesBefore l.val → (s.region (l.val / 2)).errs = [] →
        let x := s.lane l.val; let ptr := (x.port 0x200).toNat; let r := IRec.ofWords (s.memGetList ptr 8); ptr % 8 = 0 →
        inSlice (l.val / 2) ptr = true → r.axis ≤ 7 → r.type = 0x22 → False) ∧
    ¬ (∀ (s : State) (l : Fin 8) (b : Word), s.ready l.val → s.storesBefore l.val → (s.region (l.val / 2)).errs = [] →
        let x := s.lane l.val; let ptr := (x.port 0x200).toNat; let r := IRec.ofWords (s.memGetList ptr 8); ptr % 8 = 0 →
        inSlice (l.val / 2) ptr = true → r.axis ≤ 7 → validType r.type = true → False) :=
  ⟨fun h => h (st 7) (0) (0x00000000#32) (by unfold State.ready; decide) (by unfold State.storesBefore; decide) (by decide)
      (by decide) (by decide) (by decide) (by decide),
   fun h => h (st 8) (0) (0x00000000#32) (by unfold State.ready; decide) (by unfold State.storesBefore; decide) (by decide)
       (by decide) (by decide) (by decide) (by decide),
   fun h => h (st 9) (0) (0x00000000#32) (by unfold State.ready; decide) (by unfold State.storesBefore; decide) (by decide)
       (by decide) (by decide) (by decide) (by decide),
   fun h => h (st 10) (0) (0x00000000#32) (by unfold State.ready; decide) (by unfold State.storesBefore; decide) (by decide)
       (by decide) (by decide) (by decide) (by decide),
   fun h => h (st 11) (0) (0x00000000#32) (by unfold State.ready; decide) (by unfold State.storesBefore; decide) (by decide)
       (by decide) (by decide) (by decide) (by decide),
   fun h => h (st 12) (0) (0x00000000#32) (by unfold State.ready; decide) (by unfold State.storesBefore; decide) (by decide)
       (by decide) (by decide) (by decide) (by decide),
   fun h => h (st 13) (0) (0x00000000#32) (by unfold State.ready; decide) (by unfold State.storesBefore; decide) (by decide)
       (by decide) (by decide) (by decide) (by decide),
   fun h => h (st 14) (0) (0x00000000#32) (by unfold State.ready; decide) (by unfold State.storesBefore; decide) (by decide)
       (by decide) (by decide) (by decide) (by decide),
   fun h => h (st 7) (0) (0x00000000#32) (by unfold State.ready; decide) (by unfold State.storesBefore; decide) (by decide)
       (by decide) (by decide) (by decide) (by decide)⟩

end Sys2Proof.Tests.Lanes

namespace Sys2Proof.Tests.Scans

open Sys2Proof Sys2Proof.Machine Sys2Proof.Tests

def tk : SMap TaskDesc := (List.range 8).flatMap (fun p => [(32*p, {en := true, trig := 1, prio := 3, entry := 55, stacktop := 0x200300, stacklim := 0x200200, outfirst := 0, outcnt := 1, incnt := 1, gap := 5, maxrun := 900}),
    (32*p+1, {en := true, trig := 0, prio := 1, entry := 77, outfirst := 1, outcnt := 1})])
def outs : SMap (List SetEntry) := (List.range 8).map (fun p => (p, [⟨8, 0, 4, 0x80000⟩, ⟨9, 0, 2, 0x2000⟩]))
def ins : SMap (List SetEntry) := (List.range 8).map (fun p => (p, [⟨0, 0, 4, 0⟩, ⟨1, 0, 2, 0x1000⟩]))
def pr : Prog := { inits := [(0, some {entry := 9, stacktop := 0x200300, stacklim := 0x200200, maxrun := 50})], valid := true, tasks := tk, outsets := outs, insets := ins }
def sp : SMap Region := (List.range 4).map (fun r => (r, {cov := .split}))
def lpsOf (x : Lp) : SMap Lp := (List.range 8).map (fun p => (p, x))
def mv (g a d : Nat) : BitVec 48 := BitVec.ofNat 4 g ++ BitVec.ofNat 22 a ++ BitVec.ofNat 22 d
def nop : BitVec 48 := 0x100000000000
def mkb (sl : List (BitVec 48)) : BitVec 192 := (sl.getD 3 0) ++ (sl.getD 2 0) ++ (sl.getD 1 0) ++ (sl.getD 0 0)
def cd : SMap (BitVec 192) := [(100, mkb [mv 0 0x1805 0x187, nop, nop, nop]),
    (2^19+100, mkb [mv 0 0x17FF 0x188, nop, nop, nop])]
def L : Lane := { pc := 100, ports := [(0x187, 9)], flags := {z := true}, wcnt := 7 }
def tsks (k : TaskSt) : SMap TaskSt := (List.range 8).flatMap (fun p => [(32*p, k), (32*p+1, {k with ovr := 3})])
def z1 : State := { s0 with prog := pr, regions := sp, lps := lpsOf {st := .run}, time := 100000, tasks := tsks {} }
def pz : Region := {cov := .paired}
def pai (f : Region →
    Region) (l : Lp) : State := { z1 with regions := (List.range 4).map (fun r => (r, f pz)), lps := lpsOf l, lanes := (List.range 8).map (fun k => (k, L)), code := cd }
def fm : SMap Word := (List.range 12).flatMap (fun k => [(4096*k+0xBC0, BitVec.ofNat 32 k), (4096*k+0xBC1, 0x80001),
    (4096*k+0xBC2, 1), (4096*k+0x888, 0xD0000003)])
def states : List State :=
  [ z1, { z1 with tasks := tsks {pend := true, ttf := 9} }, { z1 with tasks := tsks {gap := true} },
      { z1 with lps := lpsOf {st := .run, phase := .latch, task := 1} },
 { z1 with lps := lpsOf {st := .run, phase := .taskEnd} },
     { z1 with lps := lpsOf {st := .run, phase := .commit, task := 1, latchAt := 40}, mem := [(0x2000, 5), (0x2001, 6), (0x80000, 1)] },
     { z1 with lps := lpsOf {st := .run, phase := .commit, task := 0}, mem := [(0x80002, 1)], force := [(0, {addr := 0x80001, val := 1, en := true})] },
 { z1 with lps := lpsOf {st := .run, phase := .initEnd} },
     { z1 with lps := lpsOf {st := .run, phase := .exec, levels := [⟨3, 0x20, 1⟩]} },
     { z1 with lps := lpsOf {st := .run, phase := .exec} },
 { z1 with lps := lpsOf {st := .stop, hcause := 5, err := 3}, pl := {own := true}, mem := [(0x2000, 5)], ks := {lc := 3}, mports := fm },
     { z1 with lps := lpsOf {st := .halt, hcause := 5}, ks := {lc := 3}, mports := fm, force := [(0, {addr := 0x80002, en := true}), (5, {addr := 0x80001, en := true})] },
     { z1 with mports := fm, force := [(0, {addr := 0x80002, en := true}), (1, {addr := 0x80001, en := true, val := 7}), (2, {addr := 0x80005})], mrTs := 0x123456789A, mrFseq := 77, mrSett := [9,9,9,9], mram := {rwl := 0x1234567890} },
     {z1 with mports := fm.map (fun e => if e.1 % 4096 = 0xBC1 then (e.1, 0x90000) else e)},
 pai (fun r => {r with outstanding := [.bundle none false, .entry]}) {st := .run, phase := .exec},
     pai (fun r => {r with leadSigs := [⟨3,5,5,7⟩], trailSigs := [⟨3,6,6,7⟩], wins := 5}) {st := .run, phase := .exec},
     pai (fun r => {r with leadSigs := [⟨3,5,5,7⟩], trailSigs := [⟨3,5,5,7⟩, ⟨3,5,5,7⟩], wins := 5}) {st := .run},
 pai (fun r => {r with pendReq := some (true, false), cov := .splitPend, splitn := 3}) {st := .run},
     pai (fun r => {r with pendReq := some (false, false), cov := .split}) {st := .stop},
     pai (fun r => {r with cov := .rejoin, back := .split}) {st := .stop},
 pai (fun r => {r with cov := .exPrep, exStage := 2, exBytes := [1,2]}) {st := .run},
     pai (fun r => {r with cov := .exPrep, exStage := 3, exBytes := [1,2]}) {st := .run},
     pai (fun r => {r with cov := .handover, exStage := 3, exBytes := [1,2]}) {st := .run} , { z1 with tasks := tsks {pend := true, ttf := 9}, pl := {role := 1, link := true, lane0 := true}, mem := [(0x40000,1),(0x40002,1)] },
 { z1 with pl := {role := 2, ps := .sync, fwds := [⟨0, 0, false, 2, 8, 500, 77, [1,2,3,4,5,6,7], [3, 1, 2]⟩]} },
 { z1 with lps := lpsOf {st := .run, phase := .latch, task := 0, forces := [(0x40001, 1), (0x99, 3)]} },
 pai (fun r => r) {st := .run, phase := .latch, forces := [(0x40001, 1)]},
     pai (fun r => {r with outstanding := [.entry]}) {st := .run, phase := .latch},
 { z1 with lps := lpsOf {st := .run, phase := .commit, task := 0, stopReq := true}, ptStage := [(2, [⟨1, 2, 3, 4, 5, 6, 7, true⟩])] },
     { z1 with lps := lpsOf {st := .run, phase := .initEnd, stopReq := true} },
     { z1 with lps := lpsOf {st := .run, phase := .init} },
 pai (fun r => r) {st := .run, phase := .exec} ,
 pai (fun r => {r with leadSigs := [⟨3,5,5,7⟩], trailSigs := [⟨3,5,5,7⟩], leadFault := some 0, trailFault := some 0}) {st := .run, phase := .exec},
 pai (fun r => {r with leadSigs := [⟨3,5,5,7⟩], trailSigs := [⟨3,5,5,7⟩], leadFault := some 2, trailFault := some 2}) {st := .run, phase := .exec},
 { pai (fun r => {r with leadSigs := [⟨3,5,5,7⟩], trailSigs := [⟨3,6,6,7⟩], wins := 5}) {st := .run, phase := .exec} with pl := {role := 1, phealthAt := some 90000, phealth := 0x8000000000000000} },
 pai (fun r => {r with leadSigs := [⟨3,5,6,7⟩], trailSigs := [⟨3,5,5,7⟩], wins := 5}) {st := .run, phase := .exec},
 pai (fun r => {r with cov := .exRun, exStage := 4}) {st := .run},
     pai (fun r => {r with cov := .rejoin, back := .exRun, exStage := 4}) {st := .run},
 { z1 with lps := lpsOf {st := .stop, hcause := 5, err := 3}, pl := {role := 1, own := true, link := true, lane0 := true}, mports := fm, ks := {lc := 3} },
     { z1 with lps := lpsOf {st := .run, phase := .exec}, pl := {role := 1, own := true, link := true, lane0 := true}, mports := fm, ks := {lc := 3}, force := [(9, {addr := 0x80001, en := true})] },
 { z1 with lps := lpsOf {st := .stop}, halted := true },
 { z1 with lps := lpsOf {st := .stop}, pl := {role := 2}, ks := {lc := 3, slots := [(4, {attr0 := 0x80000000}), (5, {attr0 := 0x80000000})]} },
     { z1 with lps := lpsOf {st := .stop}, pl := {role := 2, sensed := true}, ks := {lc := 3, slots := [(4, {attr0 := 0x80000000}), (5, {attr0 := 0x80000000})]} },
 { z1 with lps := lpsOf {st := .stop}, pl := {role := 1, own := true, link := true}, ks := {lc := 3, slots := [(4, {attr0 := 0x80000000}), (5, {attr0 := 0x80000000})]} },
     { z1 with pl := {role := 2, ps := .sync} },
     pai (fun r => {r with pendReq := some (true, true), cov := .splitPend, splitn := 3}) {st := .run},
     pai (fun r => {r with pendReq := some (true, true), cov := .paired, splitn := 3}) {st := .run},
     pai (fun r => {r with pendReq := some (false, true), cov := .split}) {st := .stop} ]
def st (n : Nat) : State := states.getD n State.reset
/-- Region 0 prepares an exchange to the image. -/
def exState (img : List Byte) : State := pai (fun r => {r with cov := .exPrep, exStage := 2, exBytes := img}) {st := .run}

theorem witness_BundleMoves_scan :
    ¬ (∀ (s : State) (r : Fin 4) (a d : Nat) (w : PortRow) (rest : List Repeat), s.paired r.val = true →
        (s.region r.val).errs = [] → (s.region r.val).outstanding = .bundle none false :: rest → s.owlsAgree r.val →
        let l := 2 * r.val + 1; let x := s.lane l; let b := s.bundleAt l x.pc; x.items = [] → x.pend = [] → x.blq = [] →
        x.iuq = [] → x.evq = [] → x.wait = false → x.idleH = false → x.wcnt + 1 < (s.region r.val).window →
        x.pc ≤ lastBundle → 0x1000 ≤ a → a < 0x2000 → portRow d = some w → w.dir = .op → d < 0x400 →
        slotBits b 0 = (0 : BitVec 4) ++ BitVec.ofNat 22 a ++ BitVec.ofNat 22 d → (∀ k, 1 ≤ k → k ≤ 3 →
        (slotBits b k).extractLsb' 44 4 = 1 ∧ (slotBits b k).extractLsb' 22 22 ≠ 0x3FFFFF) → False) :=
  fun h => h (st 14) (0) (6149) (391) ({ lo := 391, hi := 391, dir := Sys2Proof.Machine.PortDir.op, width := 6, rd := [Sys2Proof.World.program], wr := [Sys2Proof.World.program] }) ([Sys2Proof.Machine.Repeat.entry])
      (by decide) (by decide) (by decide) (by unfold State.owlsAgree; decide) (by decide) (by decide) (by decide) (by decide)
      (by decide) (by decide) (by decide) (by decide) (by decide) (by decide) (by decide) (by decide) (by decide) (by decide)
      (by decide) (slots_123 (by decide) (by decide) (by decide))

theorem witness_TaskTriggers :
    ¬ (∀ (s : State) (p : Fin 8) (t : Fin 32), let k := s.task p.val t.val; let g := s.region (p.val / 2);
        let takes := (s.prog.task p.val t.val).en && decide ((s.lp p.val).st = .run) && s.lpExists p.val; takes = true →
        s.inStep = false → g.cov ≠ .handover → k.pend = false → False) ∧
    ¬ (∀ (s : State) (p : Fin 8) (t : Fin 32), let k := s.task p.val t.val; let g := s.region (p.val / 2);
        let takes := (s.prog.task p.val t.val).en && decide ((s.lp p.val).st = .run) && s.lpExists p.val; takes = true →
        s.inStep = false → g.cov ≠ .handover → k.pend = true → False) ∧
    ¬ (∀ (s : State) (p : Fin 8) (t : Fin 32), let k := s.task p.val t.val; let g := s.region (p.val / 2);
        let takes := (s.prog.task p.val t.val).en && decide ((s.lp p.val).st = .run) && s.lpExists p.val; takes = true →
        s.inStep = false → g.cov ≠ .handover → k.gap = true → k.pend = false → False) ∧
    ¬ (∀ (s : State) (p : Fin 8) (t : Fin 32),
        let takes := (s.prog.task p.val t.val).en && decide ((s.lp p.val).st = .run) && s.lpExists p.val; takes = true →
        s.inStep = true → False) ∧
    ¬ (∀ (s : State) (p : Fin 8) (t : Fin 32), let g := s.region (p.val / 2);
        let takes := (s.prog.task p.val t.val).en && decide ((s.lp p.val).st = .run) && s.lpExists p.val; takes = true →
        s.inStep = false → g.cov = .handover → False) ∧
    ¬ (∀ (s : State) (p : Fin 8) (t : Fin 32),
        let takes := (s.prog.task p.val t.val).en && decide ((s.lp p.val).st = .run) && s.lpExists p.val; takes = false →
        False) ∧
    ¬ (∀ (s : State) (p : Fin 8) (t : Fin 32), let k := s.task p.val t.val; k.gap = false → False) :=
  ⟨fun h => h (st 0) (0) (0) (by decide) (by decide) (by decide) (by decide),
   fun h => h (st 1) (0) (0) (by decide) (by decide) (by decide) (by decide),
   fun h => h (st 2) (0) (0) (by decide) (by decide) (by decide) (by decide) (by decide),
   fun h => h (st 24) (0) (0) (by decide) (by decide),
   fun h => h (st 22) (0) (0) (by decide) (by decide) (by decide),
   fun h => h (st 0) 7 31 (by decide),
   fun h => h (st 0) (0) (0) (by decide)⟩

theorem witness_Scans :
    ¬ (∀ (s : State) (p : Fin 8) (t : Nat), s.mayLatch p.val = true → (s.pl.fwds.find? (fun w => w.lp.val == p.val)) = none →
        s.inStep = false → s.nextTask p.val = some t → False) ∧
    ¬ (∀ (s : State) (p : Fin 8) (w : Fwd), s.mayLatch p.val = true →
        (s.pl.fwds.find? (fun w => w.lp.val == p.val)) = some w → w.init = false → s.pl.iarrs = [] → s.pl.cmds = [] → False) ∧
    ¬ (∀ (s : State) (p : Fin 8), (s.lp p.val).st = .run → (s.lp p.val).phase = .latch → False) ∧
    ¬ (∀ (s : State) (p : Fin 8), (s.lp p.val).st = .run → (s.lp p.val).phase = .taskEnd → s.storesDone p.val = true →
        s.owlPassed p.val = true → False) ∧
    ¬ (∀ (s : State) (p : Fin 8), (s.lp p.val).st = .run → (s.lp p.val).phase = .commit → False) ∧
    ¬ (∀ (s : State) (p : Fin 8), (s.lp p.val).st = .run → (s.lp p.val).phase = .initEnd → s.storesDone p.val = true →
        s.owlPassed p.val = true → False) ∧
    ¬ (∀ (s : State) (p : Fin 8), let x := s.lp p.val; let running := x.phase = .latch ∨ x.phase = .exec ∨ x.phase = .init;
        x.st = .run → running → s.maxrunOf p.val ≠ 0 → (s.region (p.val / 2)).leadFault = none →
        p.val % 2 = 1 ∨ s.paired (p.val / 2) = false ∨ x.phase = .latch → False) ∧
    ¬ (∀ (s : State) (p : Fin 8), let x := s.lp p.val; let running := x.phase = .latch ∨ x.phase = .exec ∨ x.phase = .init;
        x.st = .run → running → s.maxrunOf p.val ≠ 0 → (s.region (p.val / 2)).leadFault = none → p.val % 2 = 0 →
        s.paired (p.val / 2) = true → x.phase ≠ .latch → s.owlsAgree (p.val / 2) → False) ∧
    ¬ (∀ (s : State) (p : Fin 8), let x := s.lp p.val; let running := x.phase = .latch ∨ x.phase = .exec ∨ x.phase = .init;
        x.st ≠ .run ∨ ¬ running ∨ s.maxrunOf p.val = 0 → False) :=
  ⟨fun h => h (st 1) (0) (1) (by decide) (by decide) (by decide) (by decide),
   fun h => h (st 24) (0) ({ lp := 0, task := 0, init := false, nw := 2, lseq := 0x00000008#32, ltime := 0x00000000000001f4#64, ttf := 0x000000000000004d#64, axsnap := [0x0000000000000001#64, 0x0000000000000002#64, 0x0000000000000003#64, 0x0000000000000004#64, 0x0000000000000005#64, 0x0000000000000006#64, 0x0000000000000007#64], delta := [0x00000003#32, 0x00000001#32, 0x00000002#32] })
       (by decide) (by decide) (by decide) (by decide) (by decide),
   fun h => h (st 3) (0) (by decide) (by decide),
   fun h => h (st 4) (0) (by decide) (by decide) (by decide) (by decide),
   fun h => h (st 5) (0) (by decide) (by decide),
   fun h => h (st 7) (0) (by decide) (by decide) (by decide) (by decide),
   fun h => h (st 8) (0) (by decide) (by decide) (by decide) (by decide) (by decide),
   fun h => h (st 14) (0) (by decide) (by decide) (by decide) (by decide) (by decide) (by decide) (by decide)
       (by unfold State.owlsAgree; decide),
   fun h => h (st 0) (0) (by decide)⟩

theorem witness_StateAndForceCommands :
    ¬ (∀ (s : State) (m : Master) (mask : BitVec 8) (p : Fin 8), s.lets m 0x841 → mask.getLsbD p.val = true →
        let x := s.lp p.val; let runs := decide (s.boot = .done) && !s.halted && s.lcRuns && s.prog.valid; ∀ (cold : Bool),
        runs = true → s.provisioned = false ∨ s.pl.own = true → s.lpExists p.val = true → x.st = .stop →
        (s.region (p.val / 2)).cov ≠ .unavail → False) ∧
    ¬ (∀ (s : State) (m : Master) (mask : BitVec 8) (p : Fin 8), s.lets m 0x841 → mask.getLsbD p.val = true →
        let runs := decide (s.boot = .done) && !s.halted && s.lcRuns && s.prog.valid; ∀ (cold : Bool), runs = true →
        s.provisioned = true → s.pl.own = false → (s.anyRun = true ∨ s.pl.sensed = true) → False) ∧
    ¬ (∀ (s : State) (m : Master) (mask : BitVec 8) (p : Fin 8), s.lets m 0x841 → mask.getLsbD p.val = true →
        let runs := decide (s.boot = .done) && !s.halted && s.lcRuns && s.prog.valid; ∀ (cold : Bool), runs = true →
        s.provisioned = true → s.pl.own = false → s.anyRun = false → s.pl.sensed = false → False) ∧
    ¬ (∀ (s : State) (m : Master) (mask : BitVec 8) (p : Fin 8), s.lets m 0x841 → mask.getLsbD p.val = true →
        let runs := decide (s.boot = .done) && !s.halted && s.lcRuns && s.prog.valid; ∀ (cold : Bool), runs = false → False) ∧
    ¬ (∀ (s : State) (m : Master) (mask : BitVec 8) (p : Fin 8), s.lets m 0x841 → mask.getLsbD p.val = true →
        let x := s.lp p.val; s.lpExists p.val = true → x.st = .run → x.phase = .idle → x.levels = [] → False) ∧
    ¬ (∀ (s : State) (m : Master) (mask : BitVec 8) (p : Fin 8), s.lets m 0x841 → mask.getLsbD p.val = true →
        let x := s.lp p.val; s.lpExists p.val = true → x.st = .run → x.phase ≠ .idle ∨ x.levels ≠ [] → False) ∧
    ¬ (∀ (s : State) (m : Master) (mask : BitVec 8) (p : Fin 8), s.lets m 0x841 → mask.getLsbD p.val = true →
        let x := s.lp p.val; x.st ≠ .run → False) ∧
    ¬ (∀ (s : State) (m : Master) (mask : BitVec 8) (p : Fin 8), s.lets m 0x841 → mask.getLsbD p.val = true →
        let x := s.lp p.val; s.halted = false → s.lpExists p.val = true → x.st = .halt → x.unavail = false → False) ∧
    ¬ (∀ (s : State) (m : Master) (mask : BitVec 8) (p : Fin 8), s.lets m 0x841 → mask.getLsbD p.val = true →
        let x := s.lp p.val; s.halted = true ∨ x.st ≠ .halt → False) ∧
    ¬ (∀ (s : State) (m : Master) (v : Word), s.lets m 0xBC4 → let i := (s.mport m 0xBC0).toNat;
        let a := (s.mport m 0xBC1).toNat; i < 1024 → let taken := s.force.any (fun e => e.2.en && e.2.addr == a && e.1 != i);
        s.prog.forceTarget a = true → taken = false → False) ∧
    ¬ (∀ (s : State) (m : Master) (v : Word), s.lets m 0xBC4 → let i := (s.mport m 0xBC0).toNat;
        let a := (s.mport m 0xBC1).toNat; i < 1024 → let taken := s.force.any (fun e => e.2.en && e.2.addr == a && e.1 != i);
        s.prog.forceTarget a = false ∨ taken = true → False) ∧
    ¬ (∀ (s : State) (m : Master) (v : Word), s.lets m 0xBC4 → let i := (s.mport m 0xBC0).toNat; i < 1024 → False) :=
  ⟨fun h => h (st 10) (Sys2Proof.Master.house) (0x01#8) (0) (by unfold State.lets; decide) (by decide) (false) (by decide)
      (by decide) (by decide) (by decide) (by decide),
   fun h => h (st 42) (Sys2Proof.Master.house) (0x01#8) (0) (by unfold State.lets; decide) (by decide) (false) (by decide)
       (by decide) (by decide) (Or.inr (by decide)),
   fun h => h (st 41) (Sys2Proof.Master.house) (0x01#8) (0) (by unfold State.lets; decide) (by decide) (false) (by decide)
       (by decide) (by decide) (anyRun_none _ (by decide)) (by decide),
   fun h => h (st 0) (Sys2Proof.Master.house) (0x01#8) (0) (by unfold State.lets; decide) (by decide) (false) (by decide),
   fun h => h (st 0) (Sys2Proof.Master.house) (0x01#8) (0) (by unfold State.lets; decide) (by decide) (by decide) (by decide)
       (by decide) (by decide),
   fun h => h (st 3) (Sys2Proof.Master.house) (0x01#8) (0) (by unfold State.lets; decide) (by decide) (by decide) (by decide)
       (by decide),
   fun h => h (st 10) (Sys2Proof.Master.house) (0x01#8) (0) (by unfold State.lets; decide) (by decide) (by decide),
   fun h => h (st 11) (Sys2Proof.Master.house) (0x01#8) (0) (by unfold State.lets; decide) (by decide) (by decide)
       (by decide) (by decide) (by decide),
   fun h => h (st 0) (Sys2Proof.Master.house) (0x01#8) (0) (by unfold State.lets; decide) (by decide) (by decide),
   fun h => h (st 0) (Sys2Proof.Master.house) (0x00000000#32) (by unfold State.lets; decide) (by decide) (by decide)
       (by decide),
   fun h => h (st 11) (Sys2Proof.Master.house) (0x00000000#32) (by unfold State.lets; decide) (by decide) (by decide),
   fun h => h (st 0) (Sys2Proof.Master.house) (0x00000000#32) (by unfold State.lets; decide) (by decide)⟩

theorem witness_LatchingReads :
    ¬ (∀ (s : State) (m : Master) (v : Word), s.lets m 0x889 → False) ∧
    ¬ (∀ (s : State) (m : Master) (v : Word), mayRead m.world 0x880 = true → False) ∧
    ¬ (∀ (s : State) (m : Master) (v : Word), mayRead m.world 0x858 = true → False) :=
  ⟨fun h => h (st 0) (Sys2Proof.Master.house) (0x00000000#32) (by unfold State.lets; decide),
   fun h => h (st 0) (Sys2Proof.Master.house) (0x00000000#32) (by decide),
   fun h => h (st 0) (Sys2Proof.Master.house) (0x00000000#32) (by decide)⟩

theorem witness_Coverage :
    ¬ (∀ (s : State) (r : Fin 4) (runOdd : Bool), let g := s.region r.val; g.pendReq = some (true, runOdd) →
        g.cov = .splitPend → s.atBoundary r.val = true → s.owlPassed (2 * r.val) = true → g.outstanding = [] → False) ∧
    ¬ (∀ (s : State) (r : Fin 4) (runOdd : Bool), let g := s.region r.val; g.pendReq = some (true, runOdd) →
        g.cov ≠ .splitPend ∨ s.atBoundary r.val = false ∨ s.owlPassed (2 * r.val) = false ∨ g.outstanding ≠ [] → False) ∧
    ¬ (∀ (s : State) (r : Fin 4), (s.region r.val).cov = .split →
        ((s.region r.val).pendReq = some (false, false) ∨ (s.region r.val).pendReq = some (false, true)) →
        (s.lp (2 * r.val + 1)).st = .stop → s.atBoundary r.val = true → False) ∧
    ¬ (∀ (s : State) (r : Fin 4), (s.region r.val).cov = .exRun → (s.region r.val).exStage ≠ 9 → s.atBoundary r.val = true →
        False) ∧
    ¬ (∀ (s : State) (r : Fin 4) (wrong : List (Bool × Option (Fin 64))), (s.region r.val).cov = .rejoin → wrong = [] →
        False) ∧
    ¬ (∀ (s : State) (r : Fin 4) (wrong : List (Bool × Option (Fin 64))), (s.region r.val).cov = .rejoin → wrong ≠ [] →
        False) ∧
    ¬ (∀ (s : State) (r : Fin 4) (wrong : List (Bool × Option (Fin 64))), (s.region r.val).cov = .rejoin → False) ∧
    ¬ (∀ (s : State) (r : Fin 4) (a b : WinSig) (as bs : List WinSig), let g := s.region r.val; g.leadSigs = a :: as →
        g.trailSigs = b :: bs → let owlA : Prop := a.sig = b.sig ∧ a.win = b.win;
        let owlB : Prop := a.sig = a.sigB ∧ a.sigB = b.sigB ∧ a.win = b.win; owlA → owlB → g.leadFault = none → False) ∧
    ¬ (∀ (s : State) (r : Fin 4) (a b : WinSig) (as bs : List WinSig), let g := s.region r.val; g.leadSigs = a :: as →
        g.trailSigs = b :: bs → let owlA : Prop := a.sig = b.sig ∧ a.win = b.win;
        let owlB : Prop := a.sig = a.sigB ∧ a.sigB = b.sigB ∧ a.win = b.win; owlA → owlB → ∀ (c : BitVec 24),
        g.leadFault = some c → g.trailFault = some c → as = [] → bs = [] → (s.lp (2 * r.val)).st = .run → False) ∧
    ¬ (∀ (s : State) (r : Fin 4) (a b : WinSig) (as bs : List WinSig), let g := s.region r.val; g.leadSigs = a :: as →
        g.trailSigs = b :: bs → let owlA : Prop := a.sig = b.sig ∧ a.win = b.win; ¬ owlA → (s.lp (2 * r.val)).st = .run →
        False) ∧
    ¬ (∀ (s : State) (r : Fin 4) (a b : WinSig) (as bs : List WinSig), let g := s.region r.val; g.leadSigs = a :: as →
        g.trailSigs = b :: bs → let owlA : Prop := a.sig = b.sig ∧ a.win = b.win;
        let owlB : Prop := a.sig = a.sigB ∧ a.sigB = b.sigB ∧ a.win = b.win; owlA → ¬ owlB → g.leadFault = none →
        (s.lp (2 * r.val)).st = .run → False) :=
  ⟨fun h => h (st 17) (0) (false) (by decide) (by decide) (by decide) (by decide) (by decide),
   fun h => h (st 46) (0) (true) (by decide) (by decide),
   fun h => h (st 18) (0) (by decide) (by decide) (by decide) (by decide),
   fun h => h (st 36) (0) (by decide) (by decide) (by decide),
   fun h => h (st 19) (0) ([]) (by decide) (by decide),
   fun h => h (st 19) (0) ([(true, some 5)]) (by decide) (by decide),
   fun h => h (st 19) (0) ([]) (by decide),
   fun h => h (st 16) (0) ({ win := 3, sig := 0x0000000000000005#64, sigB := 0x0000000000000005#64, baddr := 7 }) ({ win := 3, sig := 0x0000000000000005#64, sigB := 0x0000000000000005#64, baddr := 7 }) ([]) ([{ win := 3, sig := 0x0000000000000005#64, sigB := 0x0000000000000005#64, baddr := 7 }])
       (by decide) (by decide) (by decide) (by decide) (by decide),
   fun h => h (st 32) (0) ({ win := 3, sig := 0x0000000000000005#64, sigB := 0x0000000000000005#64, baddr := 7 }) ({ win := 3, sig := 0x0000000000000005#64, sigB := 0x0000000000000005#64, baddr := 7 }) ([]) ([])
       (by decide) (by decide) (by decide) (by decide) (0x000000#24) (by decide) (by decide) (by decide) (by decide)
       (by decide),
   fun h => h (st 15) (0) ({ win := 3, sig := 0x0000000000000005#64, sigB := 0x0000000000000005#64, baddr := 7 }) ({ win := 3, sig := 0x0000000000000006#64, sigB := 0x0000000000000006#64, baddr := 7 }) ([]) ([])
       (by decide) (by decide) (by decide) (by decide),
   fun h => h (st 35) (0) ({ win := 3, sig := 0x0000000000000005#64, sigB := 0x0000000000000006#64, baddr := 7 }) ({ win := 3, sig := 0x0000000000000005#64, sigB := 0x0000000000000005#64, baddr := 7 }) ([]) ([])
       (by decide) (by decide) (by decide) (by decide) (by decide) (by decide)⟩

theorem witness_ProgramExchange :
    (∀ img : List Byte, (exState img).exchangeImage 0 img false = 0 → ¬ (∀ (s : State) (r : Fin 4),
        (s.region r.val).cov = .exPrep → (s.region r.val).exStage = 2 →
        s.exchangeImage r.val (s.region r.val).exBytes (s.region r.val).exForce = 0 → False)) ∧
    ¬ (∀ (s : State) (r : Fin 4), (s.region r.val).cov = .exPrep → (s.region r.val).exStage = 2 →
        s.exchangeImage r.val (s.region r.val).exBytes (s.region r.val).exForce ≠ 0 → False) ∧
    ¬ (∀ (s : State) (r : Fin 4), (s.region r.val).cov = .exPrep → (s.region r.val).exStage = 3 → s.atBoundary r.val = true →
        (s.lp (2 * r.val)).st = .run → s.owlPassed (2 * r.val) = true → False) ∧
    ¬ (∀ (s : State) (r : Fin 4), (s.region r.val).cov = .handover → False) :=
  ⟨fun img e h => h (exState img) 0 rfl rfl e,
   fun h => h (st 20) (0) (by decide) (by decide) (by decide),
   fun h => h (st 21) (0) (by decide) (by decide) (by decide) (by decide) (by decide),
   fun h => h (st 22) (0) (by decide)⟩

end Sys2Proof.Tests.Scans

namespace Sys2Proof.Tests.Irq

open Sys2Proof Sys2Proof.Machine Sys2Proof.Tests

def src1 : SMap Source := [(3, {cnt := 255, cfg := 0xFF00FFFF}), (7, {cnt := 3, cfg := 0x11000050, active := false}),
    (0x81, {cnt := 1, cfg := 0x40800000}), (0x84, {cnt := 9, cfg := 0x30000123}),
    (0x83, {cfg := 0x10000000, active := true}), (0x20, {cnt := 2, cfg := 0x18000000}),
    (0x85, {cnt := 2, cfg := 0x18800000}), (0x86, {cnt := 2, cfg := 0x18000000, active := true}),
    (0x2E, {cfg := 0x08000000}), (0x2F, {cfg := 0x08000000})]
def tk : SMap TaskDesc := [(1, {en := true, trig := 2, arg := 0x81})]
def states : List State :=
  [ { s0 with boot := .running },
       { s0 with srcs := src1, mports := [(4096+0x400, 7), (2*4096 + 0x400, 7), (3*4096+0x400, 0x83)] },
      { s0 with srcs := src1, prog := {tasks := tk}, lps := [(0, {st := .run, phase := .exec}), (1, {st := .run})], regions := [(0, {cov := .split})], lanes := [(0, {bcnt := 5, ports := [(8, 0x201000), (9, 0x200FFE)]})] },
 { s0 with hold := true, srcs := src1, mports := [(4096+0x400, 0x2E)] } , { s0 with srcs := src1, mports := [(4096+0x400, 0x83), (2*4096 + 0x400, 0x83)], prog := {tasks := tk, inits := [(0, some ⟨9, 0x200080, 0x200000, 50⟩)]}, lps := [(0, {st := .run, phase := .idle}), (1, {st := .run})], regions := [(0, {cov := .split})], lanes := [(0, {flags := {z:=true}})], tasks := [(1, {pend := true})] },
 { s0 with srcs := src1, lps := [(0, {st := .run, phase := .exec})], regions := [(0, {cov := .split})], lanes := [(0, {bcnt := 5, ports := [(8, 0x200FFF), (9, 0x200FFE)]})] },
 { s0 with srcs := src1, pl := {role := 1, link := true, lane0 := true}, lps := [(0, {st := .run, phase := .exec})], lanes := [(0, {bcnt := 5, ports := [(8, 0x201000), (9, 0x200FFE)], items := [⟨64, 0, 0, 0x200000, some 5, none, false, [], false⟩]})] } ]
def st (n : Nat) : State := states.getD n State.reset

theorem witness_InterruptCommands :
    ¬ (∀ (s : State) (q : Fin 256) (m : Master) (v : Word), m.world = .system ∨ m.world = .program →
        s.masterExists m = true → reservedSource q.val = false → s.boot = .done → False) ∧
    ¬ (∀ (s : State) (q : Fin 256) (m : Master) (v : Word), m.world = .system ∨ m.world = .program →
        s.masterExists m = true → reservedSource q.val = true ∨ s.boot ≠ .done → False) ∧
    ¬ (∀ (s : State) (q : Fin 256) (m : Master) (v : Word), m.world = .system ∨ m.world = .program →
        s.masterExists m = true → v = BitVec.ofNat 32 q.val → 0x80 ≤ q.val → s.boot = .done → False) ∧
    ¬ (∀ (s : State) (q : Fin 256) (m : Master) (v : Word), m.world = .system ∨ m.world = .program →
        s.masterExists m = true → v.toNat < 0x80 ∨ 0x100 ≤ v.toNat → False) ∧
    ¬ (∀ (s : State) (q : Fin 256) (m : Master) (v : Word), m.world = .system ∨ m.world = .program →
        s.masterExists m = true → v = BitVec.ofNat 32 q.val → False) ∧
    ¬ (∀ (s : State) (q : Fin 256) (m : Master) (v : Word), m.world = .system ∨ m.world = .program →
        s.masterExists m = true → 0x100 ≤ v.toNat → False) ∧
    ¬ (∀ (s : State) (q : Fin 256) (m : Master) (v : Word), m.world = .system ∨ m.world = .program →
        s.masterExists m = true → m.world = .system → False) ∧
    ¬ (∀ (s : State) (m : Master) (v : Word), let q := (s.mport m 0x400).toNat % 256; let x := s.src q;
        let fixed := decide (q = 0x2E ∨ q = 0x2F);
        let w : Word := if fixed then (v &&& 0xF083FFFF) ||| 0x08000000 else v &&& 0xFF83FFFF;
        let keeps := decide ((w.extractLsb' 24 4).toNat = x.target) && (w.getLsbD 23 == x.taskMode);
        (m.world = .system ∨ m.world = .boot) ∨ (∃ n, m = .lp n ∧ s.lpExists n.val = true ∧ x.target = n.val ∧ (w.extractLsb' 24 4).toNat = n.val) →
        reservedSource q = false → (x.active = false ∨ keeps = true) → False) ∧
    ¬ (∀ (s : State) (m : Master) (v : Word), let q := (s.mport m 0x400).toNat % 256; let x := s.src q;
        let fixed := decide (q = 0x2E ∨ q = 0x2F);
        let w : Word := if fixed then (v &&& 0xF083FFFF) ||| 0x08000000 else v &&& 0xFF83FFFF;
        let keeps := decide ((w.extractLsb' 24 4).toNat = x.target) && (w.getLsbD 23 == x.taskMode);
        (m.world = .system ∨ m.world = .boot) ∨ (∃ n, m = .lp n ∧ s.lpExists n.val = true ∧ x.target = n.val ∧ (w.extractLsb' 24 4).toNat = n.val) →
        reservedSource q = false → x.active = true → keeps = false → False) ∧
    ¬ (∀ (s : State) (m : Master) (v : Word), let q := (s.mport m 0x400).toNat % 256; let x := s.src q;
        let fixed := decide (q = 0x2E ∨ q = 0x2F);
        let w : Word := if fixed then (v &&& 0xF083FFFF) ||| 0x08000000 else v &&& 0xFF83FFFF; ∀ (n : Fin 8), m = .lp n →
        s.lpExists n.val = true → (x.target ≠ n.val ∨ (w.extractLsb' 24 4).toNat ≠ n.val) → False) ∧
    ¬ (∀ (s : State) (m : Master) (v : Word), m.world = .system ∨ m.world = .program → s.masterExists m = true →
        let q := v.toNat; let x := s.src q; q < 256 → x.active = true → x.target = m.target → False) ∧
    ¬ (∀ (s : State) (m : Master) (v : Word), m.world = .system ∨ m.world = .program → s.masterExists m = true →
        let q := v.toNat; let x := s.src q; (256 ≤ q ∨ x.active = false ∨ x.target ≠ m.target) → ∀ (n : Fin 8), m = .lp n →
        False) ∧
    ¬ (∀ (s : State) (m : Master) (v : Word), m.world = .system ∨ m.world = .program → s.masterExists m = true →
        let q := v.toNat; let x := s.src q; (256 ≤ q ∨ x.active = false ∨ x.target ≠ m.target) → m.world = .system → False) :=
  ⟨fun h => h (st 1) (0) (Sys2Proof.Master.house) (0x00000000#32) (by decide) (by decide) (by decide) (by decide),
   fun h => h (st 0) (0) (Sys2Proof.Master.house) (0x00000000#32) (by decide) (by decide) (by decide),
   fun h => h (st 1) (129) (Sys2Proof.Master.house) (0x00000081#32) (by decide) (by decide) (by decide) (by decide)
       (by decide),
   fun h => h (st 0) (0) (Sys2Proof.Master.house) (0x00000000#32) (by decide) (by decide) (by decide),
   fun h => h (st 0) (0) (Sys2Proof.Master.house) (0x00000000#32) (by decide) (by decide) (by decide),
   fun h => h (st 0) (0) (Sys2Proof.Master.house) (0xffffffff#32) (by decide) (by decide) (by decide),
   fun h => h (st 0) (0) (Sys2Proof.Master.house) (0x00000000#32) (by decide) (by decide) (by decide),
   fun h => h (st 0) (Sys2Proof.Master.house) (0x00000000#32) (by decide) (by decide) (by decide),
   fun h => h (st 4) (Sys2Proof.Master.house) (0xffffffff#32) (by decide) (by decide) (by decide) (by decide),
   fun h => h (st 0) (Sys2Proof.Master.lp 0) (0xffffffff#32) (0) (by decide) (by decide) (by decide),
   fun h => h (st 1) (Sys2Proof.Master.lp 0) (0x00000083#32) (by decide) (by decide) (by decide) (by decide) (by decide),
   fun h => h (st 0) (Sys2Proof.Master.lp 0) (0x00000000#32) (by decide) (by decide) (by decide +kernel) (0) (by decide),
   fun h => h (st 0) (Sys2Proof.Master.house) (0x00000000#32) (by decide) (by decide) (by decide +kernel) (by decide)⟩

theorem witness_InterruptDelivery :
    ¬ (∀ (s : State) (p : Fin 8) (q : Nat), s.inStep = false → s.entryPoint p.val = true → q < 256 →
        s.owlsAgree (p.val / 2) → s.bestSource p.val (runningLevel (s.levelsOf p.val)) = some q → let l := s.laneOf p.val;
        let x := s.lane l; let y := s.lp p.val; let idle := decide (y.phase = .idle) && !y.idleHandler;
        let d := (s.prog.init p.val).getD ⟨0, 0, 0, 0⟩; let top := if idle then d.stacktop else x.port 0x008;
        let lim := if idle then d.stacklim else x.port 0x009; let sp := top.toNat; lim.toNat + 2 ≤ sp → False) ∧
    ¬ (∀ (s : State) (p : Fin 8) (q : Nat), s.inStep = false → s.entryPoint p.val = true → q < 256 →
        s.owlsAgree (p.val / 2) → s.bestSource p.val (runningLevel (s.levelsOf p.val)) = some q → let l := s.laneOf p.val;
        let x := s.lane l; let y := s.lp p.val; let idle := decide (y.phase = .idle) && !y.idleHandler;
        let d := (s.prog.init p.val).getD ⟨0, 0, 0, 0⟩; let top := if idle then d.stacktop else x.port 0x008;
        let lim := if idle then d.stacklim else x.port 0x009; let sp := top.toNat; sp < lim.toNat + 2 → s.side l = .solo →
        False) ∧
    ¬ (∀ (s : State) (q : Nat), q < 256 → s.bestSource 8 (runningLevel s.hcLevels) = some q → False) ∧
    ¬ (∀ (s : State) (q : Fin 256) (p : Fin 8) (t : Fin 32), let x := s.src q.val; x.cnt ≠ 0 → s.hold = false →
        x.taskMode = true → x.level ≠ 0 → x.target = p.val → False) ∧
    ¬ (∀ (s : State) (q : Fin 256), let x := s.src q.val; x.cnt ≠ 0 → s.hold = false → x.taskMode = true → x.level ≠ 0 →
        x.target = 8 → False) :=
  ⟨fun h => h (st 2) (0) (132) (by decide) (by decide) (by decide) (by unfold State.owlsAgree; decide) (by decide +kernel)
      (by decide),
   fun h => h (st 5) (0) (132) (by decide) (by decide) (by decide) (by unfold State.owlsAgree; decide) (by decide +kernel)
       (by decide) (by decide),
   fun h => h (st 1) (32) (by decide) (by decide +kernel),
   fun h => h (st 1) (129) (0) (0) (by decide) (by decide) (by decide) (by decide) (by decide),
   fun h => h (st 1) (133) (by decide) (by decide) (by decide) (by decide) (by decide)⟩

end Sys2Proof.Tests.Irq

namespace Sys2Proof.Tests.Axes

open Sys2Proof Sys2Proof.Machine Sys2Proof.Tests

def d0 : AxDesc := { en := true }
def ax1 : SMap Axis := [(1, {desc := d0, lastA := true, pos := 65536*3, vel := ⟨5, 1⟩, base := ⟨5, 1⟩, homep := true, homeVal := 77}),
    (2, {desc := d0, stale := true, vel := ⟨0x10000, 1000⟩, base := ⟨0x10000,1000⟩, prev := 5}),
    (3, {desc := {d0 with inv := true}, lastB := true}), (4, {desc := {d0 with mod := 1000*65536}, pos := 65536}),
    (5, {desc := d0, vel := ⟨3, 1⟩}), (6, {desc := {d0 with zhome := true}, prev := 10})]
def ax2 : SMap Axis := [(1, {desc := d0, stale := true, openWire := true}), (2, {desc := d0, frozen := true}),
    (3, {desc := d0, frozen := true, overspeed := true, skipped := 65536}),
    (4, {desc := {d0 with mod := 1000*65536}, frozen := true, overspeed := true, skipped := 65536, hist := [5], pos := 65536}),
    (5, {desc := d0, vel := ⟨3, 1⟩, stale := true, goodRuns := 1}), (6, {desc := {d0 with zhome := true}, prev := 10})]
def mk (act tgt : Nat) (x : Nat) (dir : Nat) (re : Bool) : Word := BitVec.ofNat 32 (x * 2^29 + dir * 2^27 + (if re then 2^26 else 0) + act * 2^22) ||| BitVec.ofNat 32 (tgt)
def tbl : SMap Entry := (List.range 8).map (fun k => (k, {w0 := mk k (if k = 7 then 5 else 3) 6 3 (k % 2 = 0), posn := 15, armf := true, hyst := 1}))
def f1 : Field := { powered := true, axes := ax1, table := tbl, outs := [(3, {placed := true})], ax0set := true, syncT := [(100000000, true), (90000000, false)] }
def rcs : List Rec := [⟨1, 0, 9, mk 1 3 6 3 true, 1, 50, 5, false⟩, ⟨2,0,3,0,0,0,0,false⟩, ⟨3,4,0,0,0,5000*65536,0,false⟩,
    ⟨4,6,0,0,0,77,0,false⟩, ⟨3,0,0,0,0,5000*65536,0,false⟩, ⟨4,5,0,0,0,77,0,false⟩,
    ⟨1, 0, 9, mk 0 0 0 3 true, 1, 100000000, 5, false⟩, ⟨1, 0, 9, mk 0 0 0 3 true, 1, 100000000, 5, true⟩,
    ⟨1, 0, 9, mk 6 0 4 1 false, 0, 65536, 5, false⟩]
def dcs : List Decided := (List.range 8).map (fun k => ⟨k, mk k (if k = 7 then 5 else 3) 6 3 (k % 2 = 0),
    15, k % 2 = 1, 100 + k⟩)
def mps : SMap Word := [1,2,3].flatMap (fun k => [(4096*k+0x940, 9), (4096*k+0x941, mk 0 0 0 3 true), (4096*k+0x943, 9),
    (4096*k+0x94C, 6), (4096*k+0x94D, 6)])
def mps2 : SMap Word := [1,2,3].flatMap (fun k => [(4096*k+0x940, 9), (4096*k+0x941, mk 0 1 0 3 true), (4096*k+0x943, 9),
    (4096*k+0x94C, 5), (4096*k+0x94D, 6)])
def pg : Prog := {axes := (List.replicate 50 0) ++ [0xA0000000] ++ List.replicate 20 0 }
def r9 : Rec := ⟨2,0,3,0,0,0,0,false⟩
def states : List State :=
  [ { s0 with field := {f1 with axes := [(5, {desc := d0, vel := ⟨3, 1⟩, stale := true}), (3, {desc := d0, frozen := true, stale := true, overspeed := true, skipped := 65536})]}, time := 12 * 120000000 },
      { s0 with field := f1, time := 12 * 120000000 }, { s0 with field := {f1 with axes := ax2}, time := 12 * 120000000 },
      { s0 with field := f1, time := 12 * 300000000 },
      {s0 with mports := mps, ptHost := [(9, {w0 := 5, val := 7})], prog := pg }, {s0 with mports := mps2, prog := pg },
      {s0 with mports := mps, prog := pg, ptStage := (List.range 12).map (fun k => (k, List.replicate 256 r9)) } ] ++
      rcs.map (fun r => { s0 with field := {f1 with recq := [r], ax0off := 7}, time := 12*120000000 }) ++
      dcs.map (fun r => { s0 with field := {f1 with decided := [r], ax0off := 7}, time := 12*120000000 })
  ++ dcs.map (fun r => { s0 with field := {f1 with decided := [{ r with due := 10^10 }, ⟨9, 0, 0, false, 7⟩]}, time := 12*120000000 })
def st (n : Nat) : State := states.getD n State.reset

theorem witness_AxisInputs :
    ¬ (∀ (s : State) (x : Fin 4) (a b : Bool), s.field.powered = true → let n := x.val + 1; let y := s.field.axis n;
        let d := (quadrature a b + 4 - quadrature y.lastA y.lastB) % 4; y.desc.en = true → d = 1 ∨ d = 3 → y.stale = false →
        y.frozen = false → y.overspeed = false → False) ∧
    ¬ (∀ (s : State) (x : Fin 4) (a b : Bool), s.field.powered = true → let n := x.val + 1; let y := s.field.axis n;
        let d := (quadrature a b + 4 - quadrature y.lastA y.lastB) % 4; y.desc.en = true → d = 2 → False) ∧
    ¬ (∀ (s : State) (x : Fin 4) (a b : Bool), s.field.powered = true → let n := x.val + 1; let y := s.field.axis n;
        let d := (quadrature a b + 4 - quadrature y.lastA y.lastB) % 4;
        d = 0 ∨ y.desc.en = false ∨ (y.stale = true ∧ y.openWire = true ∧ d ≠ 2) → False) ∧
    ¬ (∀ (s : State) (x : Fin 4) (a b : Bool), s.field.powered = true → let n := x.val + 1; let y := s.field.axis n;
        let d := (quadrature a b + 4 - quadrature y.lastA y.lastB) % 4; y.desc.en = true → d = 1 ∨ d = 3 →
        y.overspeed = false → (y.stale = true ∧ y.openWire = false) ∨ (y.stale = false ∧ y.frozen = true) → False) ∧
    ¬ (∀ (s : State) (x : Fin 4) (a b : Bool), s.field.powered = true → let n := x.val + 1; let y := s.field.axis n;
        let d := (quadrature a b + 4 - quadrature y.lastA y.lastB) % 4; y.desc.en = true → d = 1 ∨ d = 3 →
        y.overspeed = true → y.stale = false ∨ y.openWire = false → False) ∧
    ¬ (∀ (s : State) (x : Fin 8), s.field.powered = true → let a := s.field.axis x.val; x.val ≠ 0 → a.desc.en = true →
        a.stale = false → (a.frozen = false ∨ a.overspeed = true) → False) ∧
    ¬ (∀ (s : State) (x : Fin 8), s.field.powered = true → let a := s.field.axis x.val;
        x.val = 0 ∨ a.desc.en = false ∨ a.stale = true ∨ (a.frozen = true ∧ a.overspeed = false) → False) ∧
    ¬ (∀ (s : State) (x : Fin 8), s.field.powered = true → let a := s.field.axis x.val; x.val ≠ 0 → a.desc.en = true →
        a.stale = true → a.frozen = false → False) ∧
    ¬ (∀ (s : State) (x : Fin 8), s.field.powered = true → let a := s.field.axis x.val;
        x.val = 0 ∨ a.desc.en = false ∨ a.stale = false ∨ a.frozen = true → False) ∧
    ¬ (∀ (s : State) (x : Fin 8), s.field.powered = true → let a := s.field.axis x.val; ∀ h : Fin 4, h.val + 1 = x.val →
        a.desc.en = true → a.homep = true → False) ∧
    ¬ (∀ (s : State) (x : Fin 8), s.field.powered = true → let a := s.field.axis x.val; ∀ h : Fin 4, h.val + 1 = x.val →
        a.desc.en = false ∨ a.homep = false → False) ∧
    ¬ (∀ (s : State) (rising : Bool) (t0 : Nat), s.field.powered = true → let a := s.field.axis 5;
        let span := s.fieldNs - t0; let inRange := decide (1000000000 ≤ span * 66 ∧ span * 45 ≤ 1000000000);
        a.desc.en = true → lastCrossing s.field.syncT rising = some t0 → inRange = true → a.stale = false →
        a.frozen = false → False) ∧
    ¬ (∀ (s : State) (rising : Bool) (t0 : Nat), s.field.powered = true → let a := s.field.axis 5;
        let span := s.fieldNs - t0; let inRange := decide (1000000000 ≤ span * 66 ∧ span * 45 ≤ 1000000000);
        a.desc.en = true → lastCrossing s.field.syncT rising = some t0 → inRange = false → a.frozen = false → False) ∧
    ¬ (∀ (s : State) (rising : Bool) (t0 : Nat), s.field.powered = true → let a := s.field.axis 5;
        let span := s.fieldNs - t0; let inRange := decide (1000000000 ≤ span * 66 ∧ span * 45 ≤ 1000000000);
        a.desc.en = true → lastCrossing s.field.syncT rising = some t0 → inRange = true → a.stale = true ∨ a.frozen = true →
        a.goodRuns = 0 → False) ∧
    ¬ (∀ (s : State) (rising : Bool) (t0 : Nat), s.field.powered = true → let a := s.field.axis 5;
        let span := s.fieldNs - t0; let inRange := decide (1000000000 ≤ span * 66 ∧ span * 45 ≤ 1000000000);
        a.desc.en = true → lastCrossing s.field.syncT rising = some t0 → inRange = true → a.stale = true ∨ a.frozen = true →
        1 ≤ a.goodRuns → False) :=
  ⟨fun h => h (st 1) (0) (false) (false) (by decide) (by decide) (by decide) (by decide) (by decide) (by decide),
   fun h => h (st 0) (2) (true) (true) (by decide) (by decide) (by decide),
   fun h => h (st 0) (0) (false) (false) (by decide) (by decide),
   fun h => h (st 1) (1) (false) (true) (by decide) (by decide) (by decide) (by decide) (by decide),
   fun h => h (st 0) (2) (false) (true) (by decide) (by decide) (by decide) (by decide) (by decide),
   fun h => h (st 1) (1) (by decide) (by decide) (by decide) (by decide) (by decide),
   fun h => h (st 0) (0) (by decide) (by decide),
   fun h => h (st 1) (2) (by decide) (by decide) (by decide) (by decide) (by decide),
   fun h => h (st 0) (0) (by decide) (by decide),
   fun h => h (st 1) (1) (by decide) (0) (by decide) (by decide) (by decide),
   fun h => h (st 0) (1) (by decide) (0) (by decide) (by decide),
   fun h => h (st 1) (true) (100000000) (by decide) (by decide) (by decide) (by decide) (by decide) (by decide),
   fun h => h (st 0) (false) (90000000) (by decide) (by decide) (by decide) (by decide) (by decide),
   fun h => h (st 0) (true) (100000000) (by decide) (by decide) (by decide) (by decide) (by decide) (by decide),
   fun h => h (st 2) (true) (100000000) (by decide) (by decide) (by decide) (by decide) (by decide) (by decide)⟩

theorem witness_PositionTable :
    ¬ (∀ (s : State) (m : Master) (v : Word), m.world = .system ∨ m.world = .program → s.masterExists m = true →
        let own := match m with | .lp n => s.prog.ownsDo n.val | _ => (fun _ => true); let w0 := s.mport m 0x941;
        let p := s.mport m 0x944 ++ s.mport m 0x943; let cause := entryCause s.prog.axes w0 (s.mport m 0x942) p own;
        (s.staged m).length < 256 → cause = 0 → False) ∧
    ¬ (∀ (s : State) (m : Master) (v : Word), m.world = .system ∨ m.world = .program → s.masterExists m = true →
        (s.staged m).length < 256 → False) ∧
    ¬ (∀ (s : State) (m : Master) (v : Word), m.world = .system ∨ m.world = .program → s.masterExists m = true →
        let ax := (s.mport m 0x94C).toNat; let zhome := (axisDesc s.prog.axes ax).zhome; (s.staged m).length < 256 →
        zhome = true → False) ∧
    ¬ (∀ (s : State) (m : Master) (v : Word), m.world = .system ∨ m.world = .program → s.masterExists m = true →
        let ax := (s.mport m 0x94C).toNat; let zhome := (axisDesc s.prog.axes ax).zhome; (s.staged m).length < 256 →
        zhome = false → False) ∧
    ¬ (∀ (s : State) (m : Master) (v : Word), m.world = .system ∨ m.world = .program → s.masterExists m = true →
        let own := match m with | .lp n => s.prog.ownsDo n.val | _ => (fun _ => true); let w0 := s.mport m 0x941;
        let p := s.mport m 0x944 ++ s.mport m 0x943; let cause := entryCause s.prog.axes w0 (s.mport m 0x942) p own;
        256 ≤ (s.staged m).length → cause = 0 → False) ∧
    ¬ (∀ (s : State) (m : Master) (v : Word), m.world = .system ∨ m.world = .program → s.masterExists m = true →
        256 ≤ (s.staged m).length → False) ∧
    ¬ (∀ (s : State) (m : Master) (v : Word), m.world = .system ∨ m.world = .program → s.masterExists m = true →
        let own := match m with | .lp n => s.prog.ownsDo n.val | _ => (fun _ => true); let w0 := s.mport m 0x941;
        let p := s.mport m 0x944 ++ s.mport m 0x943; let cause := entryCause s.prog.axes w0 (s.mport m 0x942) p own;
        cause ≠ 0 → False) ∧
    ¬ (∀ (s : State) (m : Master) (v : Word), m.world = .system ∨ m.world = .program → s.masterExists m = true → False) ∧
    ¬ (∀ (s : State) (r : Rec) (rest : List Rec), s.field.powered = true → s.field.recq = r :: rest →
        ∀ x : Fin 8, entryAxis r.w0 = x.val → r.kind = 1 → False) ∧
    ¬ (∀ (s : State) (r : Rec) (rest : List Rec), s.field.powered = true → s.field.recq = r :: rest → r.kind = 2 → False) ∧
    ¬ (∀ (s : State) (r : Rec) (rest : List Rec), s.field.powered = true → s.field.recq = r :: rest → r.kind = 3 → False) ∧
    ¬ (∀ (s : State) (r : Rec) (rest : List Rec), s.field.powered = true → s.field.recq = r :: rest → r.kind = 4 → False) ∧
    ¬ (∀ (s : State) (r : Rec) (rest : List Rec), s.field.powered = true → s.field.recq = r :: rest → r.kind ≠ 1 → False) ∧
    ¬ (∀ (s : State) (r : Rec) (rest : List Rec), s.field.powered = true → s.field.recq = r :: rest → r.kind ≠ 2 → False) ∧
    ¬ (∀ (s : State) (r : Rec) (rest : List Rec), s.field.powered = true → s.field.recq = r :: rest → r.kind ≠ 3 → False) ∧
    ¬ (∀ (s : State) (r : Rec) (rest : List Rec), s.field.powered = true → s.field.recq = r :: rest → r.kind ≠ 4 → False) ∧
    ¬ (∀ (s : State) (e : Fin 4096) (d : Decided) (rest : List Decided), s.field.powered = true →
        s.field.decided = d :: rest → d.index = e.val → let act := entryAction d.w0; d.due ≤ s.fieldNs →
        s.field.notes.length < 1024 → act = 0 → False) ∧
    ¬ (∀ (s : State) (e : Fin 4096) (d : Decided) (rest : List Decided), s.field.powered = true →
        s.field.decided = d :: rest → d.index = e.val → let act := entryAction d.w0; d.due ≤ s.fieldNs →
        s.field.notes.length < 1024 → act = 1 → False) ∧
    ¬ (∀ (s : State) (e : Fin 4096) (d : Decided) (rest : List Decided), s.field.powered = true →
        s.field.decided = d :: rest → d.index = e.val → let act := entryAction d.w0; d.due ≤ s.fieldNs →
        s.field.notes.length < 1024 → act = 2 → False) ∧
    ¬ (∀ (s : State) (e : Fin 4096) (d : Decided) (rest : List Decided), s.field.powered = true →
        s.field.decided = d :: rest → d.index = e.val → let act := entryAction d.w0; d.due ≤ s.fieldNs →
        s.field.notes.length < 1024 → act = 3 → False) ∧
    ¬ (∀ (s : State) (e : Fin 4096) (d : Decided) (rest : List Decided), s.field.powered = true →
        s.field.decided = d :: rest → d.index = e.val → let act := entryAction d.w0; d.due ≤ s.fieldNs →
        s.field.notes.length < 1024 → act = 4 → False) ∧
    ¬ (∀ (s : State) (e : Fin 4096) (d : Decided) (rest : List Decided), s.field.powered = true →
        s.field.decided = d :: rest → d.index = e.val → let act := entryAction d.w0; d.due ≤ s.fieldNs →
        s.field.notes.length < 1024 → act = 5 → False) ∧
    ¬ (∀ (s : State) (e : Fin 4096) (d : Decided) (rest : List Decided), s.field.powered = true →
        s.field.decided = d :: rest → d.index = e.val → let act := entryAction d.w0; d.due ≤ s.fieldNs →
        s.field.notes.length < 1024 → act = 6 → False) ∧
    ¬ (∀ (s : State) (e : Fin 4096) (d : Decided) (rest : List Decided), s.field.powered = true →
        s.field.decided = d :: rest → d.index = e.val → let act := entryAction d.w0; d.due ≤ s.fieldNs →
        s.field.notes.length < 1024 → act = 7 → False) ∧
    ¬ (∀ (s : State) (e : Fin 4096) (d : Decided) (rest : List Decided), s.field.powered = true →
        s.field.decided = d :: rest → d.index = e.val → s.fieldNs < d.due → False) :=
  ⟨fun h => h (st 0) (Sys2Proof.Master.house) (0x00000000#32) (by decide) (by decide) (by decide) (by decide),
   fun h => h (st 0) (Sys2Proof.Master.house) (0x00000000#32) (by decide) (by decide) (by decide),
   fun h => h (st 4) (Sys2Proof.Master.house) (0x00000000#32) (by decide) (by decide) (by decide) (by decide),
   fun h => h (st 0) (Sys2Proof.Master.house) (0x00000000#32) (by decide) (by decide) (by decide) (by decide),
   fun h => h (st 6) (Sys2Proof.Master.house) (0x00000000#32) (by decide) (by decide) (by decide +kernel) (by decide),
   fun h => h (st 6) (Sys2Proof.Master.house) (0x00000000#32) (by decide) (by decide) (by decide +kernel),
   fun h => h (st 5) (Sys2Proof.Master.house) (0x00000000#32) (by decide) (by decide) (by decide),
   fun h => h (st 0) (Sys2Proof.Master.house) (0x00000000#32) (by decide) (by decide),
   fun h => h (st 13) ({ kind := 1, axsel := 0, index := 9, w0 := 0x1c000000#32, hyst := 0x00000001#32, value := 0x0000000005f5e100#64, ref := 0x0000000000000005#64, live := false }) ([])
       (by decide) (by decide) (0) (by decide) (by decide),
   fun h => h (st 8) ({ kind := 2, axsel := 0, index := 3, w0 := 0x00000000#32, hyst := 0x00000000#32, value := 0x0000000000000000#64, ref := 0x0000000000000000#64, live := false }) ([])
       (by decide) (by decide) (by decide),
   fun h => h (st 9) ({ kind := 3, axsel := 4, index := 0, w0 := 0x00000000#32, hyst := 0x00000000#32, value := 0x0000000013880000#64, ref := 0x0000000000000000#64, live := false }) ([])
       (by decide) (by decide) (by decide),
   fun h => h (st 10) ({ kind := 4, axsel := 6, index := 0, w0 := 0x00000000#32, hyst := 0x00000000#32, value := 0x000000000000004d#64, ref := 0x0000000000000000#64, live := false }) ([])
       (by decide) (by decide) (by decide),
   fun h => h (st 8) ({ kind := 2, axsel := 0, index := 3, w0 := 0x00000000#32, hyst := 0x00000000#32, value := 0x0000000000000000#64, ref := 0x0000000000000000#64, live := false }) ([])
       (by decide) (by decide) (by decide),
   fun h => h (st 7) ({ kind := 1, axsel := 0, index := 9, w0 := 0xdc400003#32, hyst := 0x00000001#32, value := 0x0000000000000032#64, ref := 0x0000000000000005#64, live := false }) ([])
       (by decide) (by decide) (by decide),
   fun h => h (st 7) ({ kind := 1, axsel := 0, index := 9, w0 := 0xdc400003#32, hyst := 0x00000001#32, value := 0x0000000000000032#64, ref := 0x0000000000000005#64, live := false }) ([])
       (by decide) (by decide) (by decide),
   fun h => h (st 7) ({ kind := 1, axsel := 0, index := 9, w0 := 0xdc400003#32, hyst := 0x00000001#32, value := 0x0000000000000032#64, ref := 0x0000000000000005#64, live := false }) ([])
       (by decide) (by decide) (by decide),
   fun h => h (st 16) (0) ({ index := 0, w0 := 0xdc000003#32, posn := 0x000000000000000f#64, back := false, due := 100 }) ([])
       (by decide) (by decide) (by decide) (by decide) (by decide) (by decide),
   fun h => h (st 17) (1) ({ index := 1, w0 := 0xd8400003#32, posn := 0x000000000000000f#64, back := true, due := 101 }) ([])
       (by decide) (by decide) (by decide) (by decide) (by decide) (by decide),
   fun h => h (st 18) (2) ({ index := 2, w0 := 0xdc800003#32, posn := 0x000000000000000f#64, back := false, due := 102 }) ([])
       (by decide) (by decide) (by decide) (by decide) (by decide) (by decide),
   fun h => h (st 19) (3) ({ index := 3, w0 := 0xd8c00003#32, posn := 0x000000000000000f#64, back := true, due := 103 }) ([])
       (by decide) (by decide) (by decide) (by decide) (by decide) (by decide),
   fun h => h (st 20) (4) ({ index := 4, w0 := 0xdd000003#32, posn := 0x000000000000000f#64, back := false, due := 104 }) ([])
       (by decide) (by decide) (by decide) (by decide) (by decide) (by decide),
   fun h => h (st 21) (5) ({ index := 5, w0 := 0xd9400003#32, posn := 0x000000000000000f#64, back := true, due := 105 }) ([])
       (by decide) (by decide) (by decide) (by decide) (by decide) (by decide),
   fun h => h (st 22) (6) ({ index := 6, w0 := 0xdd800003#32, posn := 0x000000000000000f#64, back := false, due := 106 }) ([])
       (by decide) (by decide) (by decide) (by decide) (by decide) (by decide),
   fun h => h (st 23) (7) ({ index := 7, w0 := 0xd9c00005#32, posn := 0x000000000000000f#64, back := true, due := 107 }) ([])
       (by decide) (by decide) (by decide) (by decide) (by decide) (by decide),
   fun h => h (st 24) (0) ({ index := 0, w0 := 0xdc000003#32, posn := 0x000000000000000f#64, back := false, due := 10000000000 }) ([{ index := 9, w0 := 0x00000000#32, posn := 0x0000000000000000#64, back := false, due := 7 }])
       (by decide) (by decide) (by decide) (by decide)⟩

end Sys2Proof.Tests.Axes

namespace Sys2Proof.Tests.Buses

open Sys2Proof Sys2Proof.Machine Sys2Proof.Tests

def k0 : Can := { desc := [0xC0000000, 0,0,0], est := 0, objs := [(5, [0x20FF0303, 5, 9, 9, 9] ++ List.replicate 13 4)], xdisc := 3, tec := 200, recn := 254, errf := 0xFFFF }
def stE : List Word := [0,0,0,0,0,0,0,0, 0x81234567] ++ List.replicate 127 0 ++
    [0x80000000 + 8*0x10000 + 0x10000000, 0, 0x90080000, 0] ++ List.replicate 200 0
def f0 : Field := { powered := true, cfgok := true, cfgFbus := stE, cans := [(0, k0), (1, {k0 with est := 1, tec := 0, desc := [0x80000000,0,0,0]})] }
def bm (f : Can → Can) : State := { s0 with field := { f0 with cans := [(0, f k0), (1, f {k0 with est := 2, tec := 3})] } }
def bm1 (f : Can →
    Can) : State := { s0 with field := { f0 with cans := [(0, f k0), (1, f {k0 with est := 0, tec := 0, desc := [0x80600000,0,0,0]})] } }
def wt (b : Nat) : SMap TxBuf := [(b, {st := .pend, words := [0x1, 0x100, 3, 4]})]
def stt (x : Station) : SMap Station := [(1, x), (2, {x with started := true, sts := .ok})]
def allM : List Nat := [1,2,3,4,11]
def mpF (t u a : Nat) : SMap Word := allM.flatMap (fun k => [(4096*k+0x994, BitVec.ofNat 32 t),
    (4096*k+0x996, BitVec.ofNat 32 u), (4096*k+0x997, BitVec.ofNat 32 a)])
def fb : List Word := (List.replicate 136 0 ++ [0x80080000, 0, 0x88080000, 0, 0x80080000, 0] ++ List.replicate 200 0)
def prg : Prog := {fbus := fb, insets := [(1, [⟨0xA, 0, 10, 0x200000⟩])], outsets := [(0, [⟨0xA, 0, 3, 0x200000⟩, ⟨0xB, 1, 3, 0x200100⟩])]}
def bc (t u a : Nat) : State := { s0 with mports := mpF t u a, mrObj := [(5, List.replicate 18 0xFFFFFFFF), (4096+5, List.replicate 18 0xFFFFFFFF)], prog := prg }
def states : List State :=
  [bm id, bm (fun k => {k with bufs := wt 0}), bm (fun k => {k with bufs := wt 2}),
      bm (fun k => {k with bufs := [(1, {st := .txing, words := [1,2]})], bowait := true }),
      bm (fun k => {k with recovering := true, stuck := true, clxtd := true, est := 2}),
 bm (fun k => {k with bufs := [(1, {st := .txing, words := [1,2], count := 3}), (0, {st := .pend, words := [1,0x300,5,6]})], est := 1, ackRun := 15, line := some ⟨true,true,true,false,false,9,12,List.replicate 12 3,0⟩ }),
 bm1 (fun k => {k with bufs := [(1, {st := .txing, words := [1,2], count := 3, next := some [2, 3, 4]}), (0, {st := .pend, words := [1,0x300,5,6]})], ackRun := 3, tec := 130, txabort := 0xFFFF }),
 bm1 (fun k => {k with bufs := [(1, {st := .txing, words := [1,2], count := 1, due := some 4}), (0, {st := .pend, words := [1,0x300,5,6]})], ackRun := 3, tec := 130, clashId := 3 }),
 bm1 (fun k => {k with bufs := [(2, {st := .txing, words := [1,2], count := 1, again := true, clash := 7, clashId := 2})], ackRun := 3, tec := 130 }),
 bm1 (fun k => {k with bufs := [(2, {st := .pend, words := [0x0C000009,2,3,4,5,6], count := 1, again := true, clash := 7, clashId := 2})], ackRun := 3, tec := 130 }),
 bm1 (fun k => {k with stations := stt {}}),
     bm1 (fun k => {k with stations := stt {buf := {st := .pend, count := 2}, gotInput := true}}),
     bm1 (fun k => {k with stations := stt {buf := {st := .txing, words := [1]}, started := true, missed := 2, sts := .stale}, desc := [0xE0000000,0,0,0]}),
 bc 0 1 0x200000, bc 1 2 0x200000, bc 4 65 0x200000, bc 3 1 0x210000, bc 7 3 0x200000, bc 5 2 0x20FFFF, bc 2 2 0x21FFFF, bc 0 2 0x10000, bm (fun k => {k with desc := [0,0,0,0]}),
     bc 0 1 0x210000, bc 0 2 0x20FFFF, bc 0 2 0x21FFFF, bc 0 1 0x100000 ]
def st (n : Nat) : State := states.getD n State.reset

theorem witness_CanFrames :
    ¬ (∀ (s : State) (c : Fin 2) (fr : CanFrame), (Instr.canFrameReceive c fr).wf = true → s.field.powered = true →
        let k := s.field.can c.val; let on := k.on = true ∧ k.est ≠ 2; let taken := on ∧ (fr.fdf = true → k.fd = true);
        taken → fr.ext = false → False) ∧
    ¬ (∀ (s : State) (c : Fin 2) (fr : CanFrame), (Instr.canFrameReceive c fr).wf = true → s.field.powered = true →
        let k := s.field.can c.val; let on := k.on = true ∧ k.est ≠ 2; let taken := on ∧ (fr.fdf = true → k.fd = true);
        ∀ (e : Nat), taken → fr.ext = true →
        (List.range 64).find? (fun e => (wordAt s.field.cfgFbus (8 + 64 * c.val + e)).getLsbD 31 && decide ((wordAt s.field.cfgFbus (8 + 64 * c.val + e)).extractLsb' 0 29 = fr.id)) = some e →
        False) ∧
    ¬ (∀ (s : State) (c : Fin 2) (fr : CanFrame), (Instr.canFrameReceive c fr).wf = true → s.field.powered = true →
        let k := s.field.can c.val; let on := k.on = true ∧ k.est ≠ 2; let taken := on ∧ (fr.fdf = true → k.fd = true);
        taken → fr.ext = true → (∀ e, e < 64 →
        ¬ ((wordAt s.field.cfgFbus (8 + 64 * c.val + e)).getLsbD 31 = true ∧ (wordAt s.field.cfgFbus (8 + 64 * c.val + e)).extractLsb' 0 29 = fr.id)) →
        False) ∧
    ¬ (∀ (s : State) (c : Fin 2) (fr : CanFrame), (Instr.canFrameReceive c fr).wf = true → s.field.powered = true →
        let k := s.field.can c.val; let on := k.on = true ∧ k.est ≠ 2; on → fr.fdf = true → k.fd = false → k.tec < 256 →
        False) ∧
    ¬ (∀ (s : State) (c : Fin 2) (fr : CanFrame), (Instr.canFrameReceive c fr).wf = true → s.field.powered = true →
        let k := s.field.can c.val; k.on = false ∨ k.est = 2 → False) ∧
    ¬ (∀ (s : State) (c : Fin 2) (b : Nat), s.field.powered = true → b < 3 → let k := s.field.can c.val; k.on = true →
        k.est ≠ 2 → k.txoff = false → k.busy = false → k.offered = some (false, b) → False) ∧
    ¬ (∀ (s : State) (c : Fin 2) (b : Nat), s.field.powered = true → b < 3 → let k := s.field.can c.val;
        k.on = false ∨ k.est = 2 ∨ k.txoff = true ∨ k.busy = true ∨ k.offered = none → False) ∧
    ¬ (∀ (s : State) (c : Fin 2) (b : Nat), s.field.powered = true → b < 3 → let k := s.field.can c.val; let x := k.buf b;
        let sending := (List.range 3).find? (fun i => decide ((k.buf i).st = .txing)) = some b ∧ ∀ i, i < 3 → i ≠ b → (k.buf i).due = none;
        sending → x.due = none → x.again = false → False) ∧
    ¬ (∀ (s : State) (c : Fin 2) (b : Nat), s.field.powered = true → b < 3 → let k := s.field.can c.val; let x := k.buf b;
        let words := x.next.getD x.words;
        let sending := (List.range 3).find? (fun i => decide ((k.buf i).st = .txing)) = some b ∧ ∀ i, i < 3 → i ≠ b → (k.buf i).due = none;
        sending → x.due = none → k.badFormat words = false → False) ∧
    ¬ (∀ (s : State) (c : Fin 2) (b : Nat), s.field.powered = true → b < 3 → let k := s.field.can c.val; let x := k.buf b;
        let sending := (List.range 3).find? (fun i => decide ((k.buf i).st = .txing)) = some b ∧ ∀ i, i < 3 → i ≠ b → (k.buf i).due = none;
        ∀ (r : Attempt), sending → x.due = none → r ≠ .success → r ≠ .lostArbitration → False) ∧
    ¬ (∀ (s : State) (c : Fin 2) (b : Nat), s.field.powered = true → b < 3 → let k := s.field.can c.val;
        let sending := (List.range 3).find? (fun i => decide ((k.buf i).st = .txing)) = some b ∧ ∀ i, i < 3 → i ≠ b → (k.buf i).due = none;
        sending → False) ∧
    ¬ (∀ (s : State) (c : Fin 2) (b : Nat), s.field.powered = true → b < 3 → let k := s.field.can c.val; let x := k.buf b;
        let sending := (List.range 3).find? (fun i => decide ((k.buf i).st = .txing)) = some b ∧ ∀ i, i < 3 → i ≠ b → (k.buf i).due = none;
        ∀ (r : Attempt) (res : BitVec 3), sending → x.due = some res → False) ∧
    ¬ (∀ (s : State) (c : Fin 2) (b : Nat), s.field.powered = true → b < 3 → let k := s.field.can c.val; ∀ (r : Attempt),
        k.busy = false → False) :=
  ⟨fun h => h (st 0) (0) ({ ext := false, fdf := true, brs := false, esi := false, rtr := false, id := 0x00000005#29, len := 3, data := [0x01#8, 0x02#8, 0x03#8], sof := 0x000000000000004d#64 })
      (by decide) (by decide) (by decide) (by decide),
   fun h => h (st 0) (0) ({ ext := true, fdf := false, brs := false, esi := false, rtr := false, id := 0x01234567#29, len := 2, data := [0x01#8, 0x02#8], sof := 0x0000000000000000#64 })
       (by decide) (by decide) (0) (by decide) (by decide) (by decide),
   fun h => h (st 0) (0) ({ ext := true, fdf := false, brs := false, esi := false, rtr := false, id := 0x00234567#29, len := 2, data := [0x01#8, 0x02#8], sof := 0x0000000000000000#64 })
       (by decide) (by decide) (by decide) (by decide) (by decide),
   fun h => h (st 6) (1) ({ ext := false, fdf := true, brs := false, esi := false, rtr := false, id := 0x00000005#29, len := 3, data := [0x01#8, 0x02#8, 0x03#8], sof := 0x000000000000004d#64 })
       (by decide) (by decide) (by decide) (by decide) (by decide) (by decide),
   fun h => h (st 0) (1) ({ ext := false, fdf := true, brs := false, esi := false, rtr := false, id := 0x00000005#29, len := 3, data := [0x01#8, 0x02#8, 0x03#8], sof := 0x000000000000004d#64 })
       (by decide) (by decide) (by decide),
   fun h => h (st 1) (0) (0) (by decide) (by decide) (by decide) (by decide) (by decide) (by decide) (by decide),
   fun h => h (st 0) (0) (0) (by decide) (by decide) (by decide),
   fun h => h (st 3) (0) (1) (by decide) (by decide) (by decide) (by decide) (by decide),
   fun h => h (st 3) (0) (1) (by decide) (by decide) (by decide) (by decide) (by decide),
   fun h => h (st 3) (0) (1) (by decide) (by decide) (Sys2Proof.Attempt.ackError) (by decide) (by decide) (by decide)
       (by decide),
   fun h => h (st 3) (0) (1) (by decide) (by decide) (by decide),
   fun h => h (st 7) (0) (1) (by decide) (by decide) (Sys2Proof.Attempt.success) (0x4#3) (by decide) (by decide),
   fun h => h (st 0) (0) (0) (by decide) (by decide) (Sys2Proof.Attempt.success) (by decide)⟩

theorem witness_BusErrors :
    ¬ (∀ (s : State) (c : Fin 2), s.field.powered = true → let k := s.field.can c.val; k.on = true → False) ∧
    ¬ (∀ (s : State) (c : Fin 2), s.field.powered = true → let k := s.field.can c.val; k.on = false → False) ∧
    ¬ (∀ (s : State) (c : Fin 2), s.field.powered = true → False) ∧
    ¬ (∀ (s : State) (c : Fin 2), s.field.powered = true → let k := s.field.can c.val;
        let tec := fun (lec : BitVec 3) (e : ErrorStep) => match e with | .transmitter n => if lec = 3 ∧ k.estate = 1 then k.tec else k.tec + 8 + 8 * n | _ => k.tec;
        ∀ (lec : BitVec 3) (e : ErrorStep), k.on = true → k.est ≠ 2 → tec lec e < 256 → False) ∧
    ¬ (∀ (s : State) (c : Fin 2), s.field.powered = true → let k := s.field.can c.val;
        let tec := fun (lec : BitVec 3) (e : ErrorStep) => match e with | .transmitter n => if lec = 3 ∧ k.estate = 1 then k.tec else k.tec + 8 + 8 * n | _ => k.tec;
        ∀ (lec : BitVec 3) (e : ErrorStep), k.on = true → k.est ≠ 2 → 256 ≤ tec lec e → False) ∧
    ¬ (∀ (s : State) (c : Fin 2), s.field.powered = true → let k := s.field.can c.val; ∀ (lec : BitVec 3) (e : ErrorStep),
        k.on = false ∨ k.est = 2 → False) ∧
    ¬ (∀ (s : State) (c : Fin 2), s.field.powered = true → let k := s.field.can c.val; k.est = 2 → k.bowait = true → False) ∧
    ¬ (∀ (s : State) (c : Fin 2), s.field.powered = true → let k := s.field.can c.val; k.est ≠ 2 ∨ k.bowait = false → False) ∧
    ¬ (∀ (s : State) (c : Fin 2), s.field.powered = true → let k := s.field.can c.val; k.est = 2 → k.recovering = true →
        False) ∧
    ¬ (∀ (s : State) (c : Fin 2), s.field.powered = true → let k := s.field.can c.val; k.est ≠ 2 ∨ k.recovering = false →
        False) :=
  ⟨fun h => h (st 0) (0) (by decide) (by decide),
   fun h => h (st 21) (0) (by decide) (by decide),
   fun h => h (st 0) (0) (by decide),
   fun h => h (st 0) (0) (by decide) (0x3#3) (Sys2Proof.ErrorStep.receiver 0) (by decide) (by decide) (by decide),
   fun h => h (st 0) (0) (by decide) (0x1#3) (Sys2Proof.ErrorStep.transmitter 9) (by decide) (by decide) (by decide +kernel),
   fun h => h (st 0) (1) (by decide) (0x3#3) (Sys2Proof.ErrorStep.receiver 0) (by decide),
   fun h => h (st 3) (1) (by decide) (by decide) (by decide),
   fun h => h (st 0) (0) (by decide) (by decide),
   fun h => h (st 4) (0) (by decide) (by decide) (by decide),
   fun h => h (st 0) (0) (by decide) (by decide)⟩

theorem witness_BusRequests :
    ¬ (∀ (s : State) (c : Fin 2) (n : Fin 64), n ≠ 0 → s.field.powered = true → let k := s.field.can c.val;
        let on := k.on = true ∧ s.field.stationOn c.val n.val = true; on → False) ∧
    ¬ (∀ (s : State) (c : Fin 2) (n : Fin 64), n ≠ 0 → s.field.powered = true → let k := s.field.can c.val;
        k.on = false ∨ s.field.stationOn c.val n.val = false → False) ∧
    ¬ (∀ (s : State) (m : Master) (v : Word), let c := (s.mport m 0x996).toNat / 64 % 2; s.lets m 0x990 →
        let c := (v.toNat / 2 ^ 12) % 2; let i := v.toNat % 2 ^ 12;
        let may := i < 2112 ∧ ∀ n, m = .lp n → s.prog.ownsIn n.val (0xA + c) i = true; may → (s.mirrorObj c i).length = 18 →
        False) ∧
    ¬ (∀ (s : State) (m : Master) (v : Word), let c := (s.mport m 0x996).toNat / 64 % 2; s.lets m 0x990 →
        let c := (v.toNat / 2 ^ 12) % 2; let i := v.toNat % 2 ^ 12;
        let may := i < 2112 ∧ ∀ n, m = .lp n → s.prog.ownsIn n.val (0xA + c) i = true; ¬ may → False) ∧
    ¬ (∀ (s : State) (m : Master) (v : Word), let tb := (s.mport m 0x994).toNat % 4; s.lets m 0x995 → m.world = .system →
        tb < 3 → False) ∧
    ¬ (∀ (s : State) (m : Master) (v : Word), let tb := (s.mport m 0x994).toNat % 4; s.lets m 0x995 → m.world = .system →
        tb = 3 → False) ∧
    ¬ (∀ (s : State) (m : Master) (v : Word), let tc := (s.mport m 0x994).toNat / 4 % 2;
        let tb := (s.mport m 0x994).toNat % 4; s.lets m 0x995 → ∀ (n : Fin 8), m = .lp n →
        s.prog.ownsOut n.val (0xA + tc) tb = true → False) ∧
    ¬ (∀ (s : State) (m : Master) (v : Word), let tc := (s.mport m 0x994).toNat / 4 % 2;
        let tb := (s.mport m 0x994).toNat % 4; s.lets m 0x995 → ∀ (n : Fin 8), m = .lp n →
        s.prog.ownsOut n.val (0xA + tc) tb = false → False) ∧
    ¬ (∀ (s : State) (m : Master) (v : Word), let c := (s.mport m 0x996).toNat / 64 % 2;
        let st := (s.mport m 0x996).toNat % 64; let e := stationEntry s.prog.fbus c st;
        let enabled := st ≠ 0 ∧ e.getLsbD 31 = true; s.lets m 0x998 → ¬ enabled → False) ∧
    ¬ (∀ (s : State) (m : Master) (v : Word), let c := (s.mport m 0x996).toNat / 64 % 2;
        let st := (s.mport m 0x996).toNat % 64; let e := stationEntry s.prog.fbus c st; let a := (s.mport m 0x997).toNat;
        let last := a + ((e.toNat / 2 ^ 16) % 128 + 3) / 4 - 1; let enabled := st ≠ 0 ∧ e.getLsbD 31 = true; s.lets m 0x998 →
        ∀ (n : Fin 8), m = .lp n → enabled → (e.toNat / 2 ^ 27) % 8 = n.val → inSlice (n.val / 2) a = true →
        inSlice (n.val / 2) (max a last) = true → False) ∧
    ¬ (∀ (s : State) (m : Master) (v : Word), let c := (s.mport m 0x996).toNat / 64 % 2;
        let st := (s.mport m 0x996).toNat % 64; let e := stationEntry s.prog.fbus c st; let a := (s.mport m 0x997).toNat;
        let last := a + ((e.toNat / 2 ^ 16) % 128 + 3) / 4 - 1; let enabled := st ≠ 0 ∧ e.getLsbD 31 = true; s.lets m 0x998 →
        ∀ (n : Fin 8), m = .lp n → enabled → (e.toNat / 2 ^ 27) % 8 = n.val →
        inSlice (n.val / 2) a = false ∨ inSlice (n.val / 2) (max a last) = false → False) ∧
    ¬ (∀ (s : State) (m : Master) (v : Word), let c := (s.mport m 0x996).toNat / 64 % 2;
        let st := (s.mport m 0x996).toNat % 64; let e := stationEntry s.prog.fbus c st;
        let enabled := st ≠ 0 ∧ e.getLsbD 31 = true; s.lets m 0x998 → ∀ (n : Fin 8), m = .lp n → enabled →
        (e.toNat / 2 ^ 27) % 8 ≠ n.val → False) ∧
    ¬ (∀ (s : State) (m : Master) (v : Word), let c := (s.mport m 0x996).toNat / 64 % 2;
        let st := (s.mport m 0x996).toNat % 64; let e := stationEntry s.prog.fbus c st; let a := (s.mport m 0x997).toNat;
        let enabled := st ≠ 0 ∧ e.getLsbD 31 = true; s.lets m 0x998 → m.world = .system → enabled → place a = .word → False) ∧
    ¬ (∀ (s : State) (m : Master) (v : Word), let c := (s.mport m 0x996).toNat / 64 % 2;
        let st := (s.mport m 0x996).toNat % 64; let e := stationEntry s.prog.fbus c st; let a := (s.mport m 0x997).toNat;
        let enabled := st ≠ 0 ∧ e.getLsbD 31 = true; s.lets m 0x998 → m.world = .system → enabled → place a ≠ .word →
        False) :=
  ⟨fun h => h (st 0) (0) (1) (by decide) (by decide) (by decide),
   fun h => h (st 0) (0) (3) (by decide) (by decide) (by decide),
   fun h => h (st 0) (Sys2Proof.Master.house) (0x00000000#32) (by unfold State.lets; decide) (by decide) (by decide),
   fun h => h (st 0) (Sys2Proof.Master.house) (0xffffffff#32) (by unfold State.lets; decide) (by decide),
   fun h => h (st 0) (Sys2Proof.Master.house) (0x00000000#32) (by unfold State.lets; decide) (by decide) (by decide),
   fun h => h (st 16) (Sys2Proof.Master.house) (0x00000000#32) (by unfold State.lets; decide) (by decide) (by decide),
   fun h => h (st 13) (Sys2Proof.Master.lp 0) (0x00000000#32) (by unfold State.lets; decide) (0) (by decide) (by decide),
   fun h => h (st 0) (Sys2Proof.Master.lp 0) (0x00000000#32) (by unfold State.lets; decide) (0) (by decide) (by decide),
   fun h => h (st 0) (Sys2Proof.Master.house) (0x00000000#32) (by unfold State.lets; decide) (by decide),
   fun h => h (st 13) (Sys2Proof.Master.lp 0) (0x00000000#32) (by unfold State.lets; decide) (0) (by decide) (by decide)
       (by decide) (by decide) (by decide),
   fun h => h (st 25) (Sys2Proof.Master.lp 0) (0x00000000#32) (by unfold State.lets; decide) (0) (by decide) (by decide)
       (by decide) (by decide),
   fun h => h (st 14) (Sys2Proof.Master.lp 0) (0x00000000#32) (by unfold State.lets; decide) (0) (by decide) (by decide)
       (by decide),
   fun h => h (st 13) (Sys2Proof.Master.house) (0x00000000#32) (by unfold State.lets; decide) (by decide) (by decide)
       (by decide),
   fun h => h (st 20) (Sys2Proof.Master.house) (0x00000000#32) (by unfold State.lets; decide) (by decide) (by decide)
       (by decide)⟩

end Sys2Proof.Tests.Buses

namespace Sys2Proof.Tests.FieldLinks

open Sys2Proof Sys2Proof.Machine Sys2Proof.Tests

def fld1 : Field := { powered := true, everCfgMatch := true, cfgok := true, cfg := [0,0,0xFFFFFFFF,0,0,0x2A,0,0x39] ++ List.replicate 16 0, cfgid := 1, lstate := .low, outs := [(0, {sw := .on, cmd := .run, val := true}), (1, {sw := .off, wt := true, wtp := 0x21}), (2, {sw := .partner}), (3, {latched := true, latchedAt := 0})], ins := [(0, {owCnt := 1}), (5, {openw := true}), (7, {owCnt := 1, openw := true})], ctrs := [(0, {cnt := 0xFFFFFFFF}), (1, {cnt := 7, carry := true}), (2,{cnt:=4})], rx := { epoch := some 1, seq := 5 }, diagq := [] }
def msgsH : List (List HostMsg) := [[.heartbeat 1 1 0 true 0 1 1], [.outImage 0xFFFF [.run, .forced, .safe, .run] 1 0xFFFF 1 1], [.outImage 1 [] 0 0 0 0, .heartbeat 1 1 0 true 0 1 1],
  [.cfgWrite [.block 17 0 1 [1]]], [.cfgWrite [.commit 1]], [.cfgWrite [.commit 0]], [.schedWrite []], [.busTx [{kind := 2, ch := 1, send := true, run := true, index := 3, words := [1]}]]]
def msgsF : List (List FieldMsg) := [[.inImage 1 1 1 [1] 0xFFF 1 1 1 1 true true true], [.inImage 1 1 1 [1] 0xFFF 1 0 1 1 true true false], [.supply .low true 1],[.axisState [1] []], [.axisState [1] [⟨0x301, 4, 0x29, [1]⟩]], [.diag 1 0xFFFFFFFF [⟨true, 7, 1, 0x41, 1⟩,⟨false, 7, 1, 0x41, 1⟩] [1] [] 1 []],
 [.schedFired [⟨true,true,true,true,6,3,1,1,1⟩] 7], [.busRxNote [.object 1 true 1 5 [1]]], [.busRxNote [.status 1 [1] []]], [.busRxNote [.done 1 1 1 1]]]
def base : List State := [{ s0 with hframe := some ⟨1, 6, false, [.heartbeat 1 1 0 true 0 1 1]⟩, field := {fld1 with safeWait := true, safeact := true, sscnt := 1, frame := some ⟨1, 6, false, [.axisState [1] []]⟩ }, hrx := {epoch := some 1, seq := 2} },
  { s0 with hframe := some ⟨1, 5, false, []⟩, field := {fld1 with frame := some ⟨1, 5, false, []⟩}, hrx := {epoch := some 1, seq := 5}, pl := {role := 2}, reqNow := some {crst := 1}, reqn := 1, time := 999999999999, rtc := {secs := 5} },
  { s0 with field := fld1, mports := [(0x190C, 33), (4096+0x90C, 33)], fdDiag := [(1, 7)], flost := true}]
def sts : List State := base ++
    msgsH.map (fun m => { s0 with field := { fld1 with rxMsgs := m, cfg := [1,0,0,0,0,0,0,0] ++ List.replicate 16 0, outs := fld1.outs.map (fun o => (o.1, {o.2 with cmd := .safe})) } }) ++
    msgsH.map (fun m => { s0 with time := 12*20000000, field := { fld1 with rxMsgs := m, lstate := .ok} }) ++
    msgsF.map (fun m => { s0 with hrxMsgs := m, pl := {role := 2}, lbp := 0, reqNow := some {}, reqn := 1})
def cfgS : State := { s0 with field := { fld1 with rxMsgs := [.cfgWrite [.commit 0]], blocks := [(16, 24, 50 :: List.replicate 23 0), (17, 2, [0,1]), (18, 1, [1])], outs := [(3, {wt := true, wtp := 0x21})] } }
def tb1 : SMap Entry := [(3, {w0 := 0x38400003, hyst := 1, posn := 3, armf := true}),
    (4, {w0 := 0x38400001, hyst := 1, posn := 3, armf := true})]
def ax1 : SMap Axis := [(1, {desc := {en := true}, homep := true})]
def plS : State := { s0 with field := { fld1 with rxMsgs := [.outImage 0xF [.run, .safe, .safe, .safe] 3 0xFFFF 0xFFFF 1], cfgAxes := [0, 0xFFFF], table := tb1, outs := [(0, {cmd := .run}), (1, {cmd := .run, val := true, wt := true}), (3, {cmd := .run})] } }
def liS : State := { s0 with flost := false, pl := {role := 1, own := true, phealthAt := some 0, phealth := 0x8000000000000000}, field := { fld1 with frame := none, cfg := [1,0,0,0xF,0,0,0,0] ++ List.replicate 16 0, outs := [(0, {}), (1, {olCnt := 1}), (2, {openl := true})] }, time := 12*20000000 }
def states : List State :=
  [cfgS, { s0 with field := { fld1 with powered := false, table := tb1, axes := ax1 } },
      plS, liS, { s0 with boot := .running, mports := [(4096+0x90C, 3), (0x190C, 33)] }] ++ sts
def st (n : Nat) : State := states.getD n State.reset
def cfgA : List Word := 50 :: List.replicate 23 0
/-- A commit that names the configuration whose blocks have come. -/
def cfgState : State :=
  { s0 with field := { fld1 with rxMsgs := [.cfgWrite [.commit (cfgIdOf cfgA [0, 1] [1])]], blocks := [(16, 24, cfgA), (17, 2, [0, 1]), (18, 1, [1])], outs := [] } }
theorem cfgState_commit : cfgState.field.commitCheck (cfgIdOf cfgA [0, 1] [1]) = 0 := by
  show (if cfgIdOf cfgA [0, 1] [1] ≠ cfgIdOf cfgA [0, 1] [1] then (2 : BitVec 8) else _) = 0
  rw [if_neg (fun h => h rfl)]
  decide

theorem witness_LinkFrames :
    ¬ (∀ (s : State) (fr : Frame HostMsg) (noise : List Byte), s.boot = .done → False) ∧
    ¬ (∀ (s : State) (fr : Frame HostMsg) (noise : List Byte), s.boot ≠ .done → False) ∧
    ¬ (∀ (s : State) (fr : Frame HostMsg) (noise : List Byte), let f := s.field; s.hframe = some fr → f.powered = true →
        fr.arrives HostMsg.wire 1 noise = true → f.rx.accepts fr.epoch fr.seq = true → False) ∧
    ¬ (∀ (s : State) (fr : Frame HostMsg) (noise : List Byte), let f := s.field; s.hframe = some fr → f.powered = true →
        fr.arrives HostMsg.wire 1 noise = false ∨ f.rx.accepts fr.epoch fr.seq = false → False) ∧
    ¬ (∀ (s : State) (fr : Frame HostMsg) (noise : List Byte), let f := s.field; f.powered = false → False) ∧
    ¬ (∀ (s : State) (fr : Frame HostMsg) (noise : List Byte), s.hframe = none → False) ∧
    ¬ (∀ (s : State) (fr : Frame FieldMsg) (noise : List Byte), ∀ (mv : BitVec 16) (lo : BitVec 16) (rb : BitVec 16),
        s.field.powered = true → False) ∧
    ¬ (∀ (s : State) (fr : Frame FieldMsg) (noise : List Byte), s.field.frame = some fr →
        fr.arrives FieldMsg.wire 2 noise = true → s.hrx.accepts fr.epoch fr.seq = true → False) ∧
    ¬ (∀ (s : State) (fr : Frame FieldMsg) (noise : List Byte), s.field.frame = some fr →
        fr.arrives FieldMsg.wire 2 noise = false ∨ s.hrx.accepts fr.epoch fr.seq = false → False) ∧
    ¬ (∀ (s : State) (fr : Frame FieldMsg) (noise : List Byte), s.field.frame = none → False) ∧
    ¬ (∀ (s : State) (fr : Frame FieldMsg) (noise : List Byte), s.flost = false → s.pl.role ≠ 1 ∨ s.partnerFit = false →
        False) ∧
    ¬ (∀ (s : State) (fr : Frame FieldMsg) (noise : List Byte), s.flost = false → s.pl.role = 1 → s.partnerFit = true →
        False) ∧
    ¬ (∀ (s : State) (fr : Frame FieldMsg) (noise : List Byte), s.flost = true → False) :=
  ⟨fun h => h (st 0) ({ epoch := 0x0001#16, seq := 0x00000006#32, econ := false, msgs := [Sys2Proof.Machine.HostMsg.heartbeat 0x01#8 0x1#2 0x0#2 true 0x0000000000000000#64 0x00000001#32 0x00000001#32] }) ([])
      (by decide),
   fun h => h (st 4) ({ epoch := 0x0001#16, seq := 0x00000006#32, econ := false, msgs := [Sys2Proof.Machine.HostMsg.heartbeat 0x01#8 0x1#2 0x0#2 true 0x0000000000000000#64 0x00000001#32 0x00000001#32] }) ([])
       (by decide),
   fun h => h (st 5) ({ epoch := 0x0001#16, seq := 0x00000006#32, econ := false, msgs := [Sys2Proof.Machine.HostMsg.heartbeat 0x01#8 0x1#2 0x0#2 true 0x0000000000000000#64 0x00000001#32 0x00000001#32] }) ([])
       (by decide) (by decide) (by decide) (by decide),
   fun h => h (st 5) ({ epoch := 0x0001#16, seq := 0x00000006#32, econ := false, msgs := [Sys2Proof.Machine.HostMsg.heartbeat 0x01#8 0x1#2 0x0#2 true 0x0000000000000000#64 0x00000001#32 0x00000001#32] }) ([0x01#8])
       (by decide) (by decide) (by decide),
   fun h => h (st 1) ({ epoch := 0x0001#16, seq := 0x00000006#32, econ := false, msgs := [Sys2Proof.Machine.HostMsg.heartbeat 0x01#8 0x1#2 0x0#2 true 0x0000000000000000#64 0x00000001#32 0x00000001#32] }) ([])
       (by decide),
   fun h => h (st 0) ({ epoch := 0x0001#16, seq := 0x00000006#32, econ := false, msgs := [Sys2Proof.Machine.HostMsg.heartbeat 0x01#8 0x1#2 0x0#2 true 0x0000000000000000#64 0x00000001#32 0x00000001#32] }) ([])
       (by decide),
   fun h => h (st 0) ({ epoch := 0x0001#16, seq := 0x00000006#32, econ := false, msgs := [Sys2Proof.Machine.FieldMsg.axisState [0x00000001#32] []] }) ([]) (0x0001#16) (0x0001#16) (0x0001#16)
       (by decide),
   fun h => h (st 5) ({ epoch := 0x0001#16, seq := 0x00000006#32, econ := false, msgs := [Sys2Proof.Machine.FieldMsg.axisState [0x00000001#32] []] }) ([])
       (by decide) (by decide) (by decide),
   fun h => h (st 5) ({ epoch := 0x0001#16, seq := 0x00000006#32, econ := false, msgs := [Sys2Proof.Machine.FieldMsg.axisState [0x00000001#32] []] }) ([0x01#8])
       (by decide) (by decide),
   fun h => h (st 0) ({ epoch := 0x0001#16, seq := 0x00000006#32, econ := false, msgs := [Sys2Proof.Machine.FieldMsg.axisState [0x00000001#32] []] }) ([])
       (by decide),
   fun h => h (st 0) ({ epoch := 0x0001#16, seq := 0x00000006#32, econ := false, msgs := [Sys2Proof.Machine.FieldMsg.axisState [0x00000001#32] []] }) ([])
       (by decide) (by decide),
   fun h => h (st 3) ({ epoch := 0x0001#16, seq := 0x00000006#32, econ := false, msgs := [Sys2Proof.Machine.FieldMsg.axisState [0x00000001#32] []] }) ([])
       (by decide) (by decide) (by decide),
   fun h => h (st 7) ({ epoch := 0x0001#16, seq := 0x00000006#32, econ := false, msgs := [Sys2Proof.Machine.FieldMsg.axisState [0x00000001#32] []] }) ([])
       (by decide)⟩

theorem witness_LinkMessages :
    ¬ (∀ (s : State) (rest : List HostMsg), let f := s.field;
        ∀ (a : BitVec 8) (role : BitVec 2) (mst : BitVec 2) (e : Bool) (h : BitVec 64) (lbp : Word) (cfg : Word),
        f.rxMsgs = .heartbeat a role mst e h lbp cfg :: rest → False) ∧
    ¬ (∀ (s : State) (rest : List HostMsg), let f := s.field;
        ∀ (val : BitVec 16) (cmds : List OutCmd) (crst : BitVec 12) (rst : BitVec 16) (dclr : BitVec 16) (reqn : BitVec 8),
        f.rxMsgs = .outImage val cmds crst rst dclr reqn :: rest → False) ∧
    ¬ (∀ (s : State) (rest : List HostMsg), let f := s.field; ∀ (b : Nat) (ofs : Nat) (n : Nat) (ws : List Word),
        f.rxMsgs = .cfgWrite [.block b ofs n ws] :: rest → False) ∧
    ¬ (∀ (s : State) (rest : List HostMsg), let f := s.field; ∀ (id : Word) (a : List Word) (x : List Word) (b : List Word),
        f.rxMsgs = .cfgWrite [.commit id] :: rest → f.block 0x10 = some a → f.block 0x11 = some x → f.block 0x12 = some b →
        f.commitCheck id = 0 → False) ∧
    ¬ (∀ (s : State) (rest : List HostMsg), let f := s.field; ∀ (id : Word), f.rxMsgs = .cfgWrite [.commit id] :: rest →
        f.commitCheck id ≠ 0 → f.diagq.length < 256 → False) ∧
    ¬ (∀ (s : State) (rest : List HostMsg), let f := s.field; ∀ (rs : List CfgRec), f.rxMsgs = .cfgWrite rs :: rest → False) ∧
    ¬ (∀ (s : State) (rest : List HostMsg), let f := s.field; ∀ (rs : List Rec), f.rxMsgs = .schedWrite rs :: rest → False) ∧
    ¬ (∀ (s : State) (rest : List HostMsg), let f := s.field; ∀ r : BusTx, r.kind = 2 → f.rxMsgs = .busTx [r] :: rest →
        False) ∧
    ¬ (∀ (s : State) (rest : List HostMsg), let f := s.field; ∀ (rs : List BusTx), f.rxMsgs = .busTx rs :: rest → False) ∧
    ¬ (∀ (s : State) (rest : List FieldMsg),
        ∀ (di : Word) (ts : BitVec 64) (st : BitVec 224) (ctr : List Word) (carry : BitVec 12) (id : Word) (re : BitVec 8) (sc : BitVec 8) (he : BitVec 16) (sa : Bool) (ok : Bool) (fr : Bool),
        s.hrxMsgs = .inImage di ts st ctr carry id re sc he sa ok fr :: rest → False) ∧
    ¬ (∀ (s : State) (rest : List FieldMsg), ∀ (l : LState) (high : Bool) (w : Word), s.hrxMsgs = .supply l high w :: rest →
        False) ∧
    ¬ (∀ (s : State) (rest : List FieldMsg), ∀ (ws : List Word) (evs : List FieldEvent),
        s.hrxMsgs = .axisState ws evs :: rest → False) ∧
    ¬ (∀ (s : State) (rest : List FieldMsg),
        ∀ (dovf : BitVec 8) (lbe : Word) (es : List DiagEnt) (sc : List (BitVec 8)) (wtp : List (BitVec 8)) (on : BitVec 16) (evs : List FieldEvent),
        s.hrxMsgs = .diag dovf lbe es sc wtp on evs :: rest → False) ∧
    ¬ (∀ (s : State) (rest : List FieldMsg), ∀ (ns : List Note) (n : Note) (lost : Nat), s.hrxMsgs = .schedFired (ns ++
        [n]) lost :: rest → False) ∧
    ¬ (∀ (s : State) (rest : List FieldMsg), ∀ (c : Nat) (new : Bool) (nrx : Nat) (i : Nat) (ws : List Word),
        s.hrxMsgs = .busRxNote [.object c new nrx i ws] :: rest → False) ∧
    ¬ (∀ (s : State) (rest : List FieldMsg), ∀ (c : Nat) (ws : List Word) (sts : List Nat),
        s.hrxMsgs = .busRxNote [.status c ws sts] :: rest → False) ∧
    ¬ (∀ (s : State) (rest : List FieldMsg), ∀ (c : Nat) (i : Nat) (r : BitVec 3) (k : Nat),
        s.hrxMsgs = .busRxNote [.done c i r k] :: rest → False) ∧
    ¬ (∀ (s : State) (rest : List FieldMsg), ∀ (rs : List BusNote), s.hrxMsgs = .busRxNote rs :: rest → False) :=
  ⟨fun h => h (st 8) ([]) (0x01#8) (0x1#2) (0x0#2) (true) (0x0000000000000000#64) (0x00000001#32) (0x00000001#32) (by decide),
   fun h => h (st 9) ([]) (0xffff#16) ([Sys2Proof.Machine.OutCmd.run, Sys2Proof.Machine.OutCmd.forced, Sys2Proof.Machine.OutCmd.safe, Sys2Proof.Machine.OutCmd.run]) (0x001#12) (0xffff#16) (0x0001#16) (0x01#8)
       (by decide),
   fun h => h (st 11) ([]) (17) (0) (1) ([0x00000001#32]) (by decide),
   fun h => h cfgState [] (cfgIdOf cfgA [0, 1] [1]) cfgA [0, 1] [1] rfl (by decide) (by decide) (by decide) cfgState_commit,
   fun h => h (st 12) ([]) (0x00000001#32) (by decide) (by decide +kernel) (by decide),
   fun h => h (st 12) ([]) ([Sys2Proof.Machine.CfgRec.commit 0x00000001#32]) (by decide),
   fun h => h (st 14) ([]) ([]) (by decide),
   fun h => h (st 15) ([]) ({ kind := 2, ch := 1, send := true, run := true, index := 3, words := [0x00000001#32] })
       (by decide) (by decide),
   fun h => h (st 15) ([]) ([{ kind := 2, ch := 1, send := true, run := true, index := 3, words := [0x00000001#32] }])
       (by decide),
   fun h => h (st 24) ([]) (0x00000001#32) (0x0000000000000001#64) (0x00000000000000000000000000000000000000000000000000000001#224) ([0x00000001#32]) (0xfff#12) (0x00000001#32) (0x01#8) (0x01#8) (0x0001#16) (true) (true) (true)
       (by decide),
   fun h => h (st 26) ([]) (Sys2Proof.Machine.LState.low) (true) (0x00000001#32) (by decide),
   fun h => h (st 27) ([]) ([0x00000001#32]) ([]) (by decide),
   fun h => h (st 29) ([]) (0x01#8) (0xffffffff#32) ([{ set := true, code := 7, param := 0x01#8, chan := 65, time := 0x0000000000000001#64 },
       { set := false, code := 7, param := 0x01#8, chan := 65, time := 0x0000000000000001#64 }]) ([0x01#8]) ([]) (0x0001#16) ([])
       (by decide),
   fun h => h (st 30) ([]) ([]) ({ late := true, unreached := true, stale := true, revd := true, action := 6, index := 3, tf := 0x0000000000000001#64, val := 0x00000001#32, lateness := 0x00000001#32 }) (7)
       (by decide),
   fun h => h (st 31) ([]) (1) (true) (1) (5) ([0x00000001#32]) (by decide),
   fun h => h (st 32) ([]) (1) ([0x00000001#32]) ([]) (by decide),
   fun h => h (st 33) ([]) (1) (1) (0x1#3) (1) (by decide),
   fun h => h (st 33) ([]) ([Sys2Proof.Machine.BusNote.done 1 1 0x1#3 1]) (by decide)⟩

theorem witness_FieldEvents_field :
    ¬ (∀ (s : State), s.field.powered = true → let f := s.field; ∀ (d : Fin 16) (hot : Bool), (f.out d.val).latched = false →
        (hot = true ∨ (f.out d.val).sw = .on) → False) ∧
    ¬ (∀ (s : State), s.field.powered = true → let f := s.field; ∀ (d : Fin 16) (hot : Bool),
        (f.out d.val).latched = true ∨ (hot = false ∧ (f.out d.val).sw ≠ .on) → False) ∧
    ¬ (∀ (s : State), s.field.powered = true → ∀ (low : BitVec 32) (band high : BitVec 16), False) ∧
    ¬ (∀ (s : State), s.field.powered = true → let f := s.field; ∀ (d : Fin 16) (l : Nat), f.leader d.val = l →
        (f.out l).extdrv = false → (f.out l).sw ≠ .on → ((f.out l).sw = .partner → f.role ≠ 2) → False) ∧
    ¬ (∀ (s : State), s.field.powered = true → let f := s.field; ∀ (d : Fin 16) (l : Nat), f.leader d.val = l →
        (f.out l).extdrv = true ∨ (f.out l).sw = .on ∨ ((f.out l).sw = .partner ∧ f.role = 2) → False) ∧
    ¬ (∀ (s : State), s.field.powered = true → ∀ (i : Fin 32) (level : Bool), 12 ≤ i.val → False) ∧
    ¬ (∀ (s : State), s.field.powered = true → ∀ (i : Fin 32) (level : Bool), i.val < 12 → False) ∧
    ¬ (∀ (s : State), s.field.powered = true → ∀ (k : Fin 12) (rising : Bool), False) ∧
    ¬ (∀ (s : State) (m : Master) (v : Word), s.lets m 0x908 → False) ∧
    ¬ (∀ (s : State) (m : Master) (v : Word), s.lets m 0x90D → False) :=
  ⟨fun h => h (st 0) (by decide) (0) (true) (by decide) (by decide),
   fun h => h (st 0) (by decide) (0) (false) (by decide),
   fun h => h (st 0) (by decide) (0x00000000#32) (0x0001#16) (0x0001#16),
   fun h => h (st 0) (by decide) (0) (0) (by decide) (by decide) (by decide) (by decide),
   fun h => h (st 5) (by decide) (0) (0) (by decide) (by decide),
   fun h => h (st 0) (by decide) (16) (false) (by decide),
   fun h => h (st 0) (by decide) (0) (false) (by decide),
   fun h => h (st 0) (by decide) (0) (false),
   fun h => h (st 0) (Sys2Proof.Master.house) (0x00000000#32) (by unfold State.lets; decide),
   fun h => h (st 0) (Sys2Proof.Master.house) (0x00000000#32) (by unfold State.lets; decide)⟩

theorem witness_FieldWithoutSupply :
    ¬ (∀ (s : State), let f := s.field; let ssto := (if f.cfgok then (wordAt f.cfg 0).toNat % 1024 else 50) * 1000000;
        f.powered = true → f.safeWait = false → f.lastAccept + ssto ≤ s.fieldNs → False) ∧
    ¬ (∀ (s : State), let f := s.field; let ssto := (if f.cfgok then (wordAt f.cfg 0).toNat % 1024 else 50) * 1000000;
        f.powered = false ∨ f.safeWait = true ∨ s.fieldNs < f.lastAccept + ssto → False) ∧
    ¬ (∀ (s : State), let f := s.field; f.powered = true → False) ∧
    ¬ (∀ (s : State), s.field.powered = false → ∀ (x : Fin 4) (a : Bool) (b : Bool), False) ∧
    ¬ (∀ (s : State), s.field.powered = false → ∀ (x : Fin 4), False) ∧
    ¬ (∀ (s : State), s.field.powered = false → ∀ (b : Bool), False) ∧
    ¬ (∀ (s : State), s.field.powered = false → ∀ (e : Fin 4096), False) ∧
    ¬ (∀ (s : State), s.field.powered = false → False) ∧
    ¬ (∀ (s : State), s.field.powered = false → ∀ (a : BitVec 16) (b : BitVec 16) (c : BitVec 16), False) ∧
    ¬ (∀ (s : State), s.field.powered = false → ∀ (c : SupplyChange), False) ∧
    ¬ (∀ (s : State), s.field.powered = false → ∀ (d : Fin 16) (b : Bool), False) ∧
    ¬ (∀ (s : State), s.field.powered = false → ∀ (d : Fin 16), False) ∧
    ¬ (∀ (s : State), s.field.powered = false → ∀ (i : Fin 32) (b : Bool), False) ∧
    ¬ (∀ (s : State), s.field.powered = false → ∀ (k : Fin 12) (b : Bool), False) :=
  ⟨fun h => h (st 0) (by decide) (by decide) (by decide),
   fun h => h (st 1) (by decide),
   fun h => h (st 0) (by decide),
   fun h => h (st 1) (by decide) (0) (false) (false),
   fun h => h (st 1) (by decide) (0),
   fun h => h (st 1) (by decide) (false),
   fun h => h (st 1) (by decide) (0),
   fun h => h (st 1) (by decide),
   fun h => h (st 1) (by decide) (0x0001#16) (0x0001#16) (0x0001#16),
   fun h => h (st 1) (by decide) (Sys2Proof.SupplyChange.toOk),
   fun h => h (st 1) (by decide) (0) (false),
   fun h => h (st 1) (by decide) (0),
   fun h => h (st 1) (by decide) (0) (false),
   fun h => h (st 1) (by decide) (0) (false)⟩

end Sys2Proof.Tests.FieldLinks

namespace Sys2Proof.Tests.Setts

open Sys2Proof Sys2Proof.Machine Sys2Proof.Tests

def P (d : Bool) : SMap Nat := [(0x10, 1), (0x11, 3000), (0x20, 1), (0x21, 1000), (0x30, 1), (0x40, 1),
    (0x50, if d then 1 else 0), (0x51, 2)]
def C : SMap SettCh := [(0, {gtot := 5, remn := 7, qtot := 9, batch := true, btot := 2, ca := 3, cb := 3, per := some 100, taPrev := some 1, bnum := 3, gateQ := 50, gateN := 9000000, revNow := true}),
    (1, {gtot := 5, fidalm := true, atot := 4})]
def st1 (d : Bool) (st : SettSt) : Sett := { st := st, on := true, params := P d, chans := C, audit := [[1,2,3,4,5,6,7,8], [9]], replies := [⟨1,1,0,[]⟩], saved := [C, []], ms := 999, mec := 4 }
def cmds : List SettCmd := [⟨1, 1, 5, 1, 0, [0,0,0,0]⟩, ⟨1, 2, 5, 0, 0, [0,0,0,0]⟩, ⟨1, 3, 5, 1, 0, [0,0,0,0]⟩,
    ⟨1, 4, 5, 0, 0, [0,0,0,0]⟩, ⟨1, 3, 5, 9, 0, [0,0,0,0]⟩, ⟨1, 2, 5, 1, 0, [0,0,0,0]⟩, ⟨1, 1, 5, 0, 0, [0,0,0,0]⟩,
    ⟨1, 1, 5, 9, 0, [0,0,0,0]⟩, ⟨1, 2, 5, 9, 0, [0,0,0,0]⟩]
def states : List State :=
  [ {s0 with sett := {st1 false .meter with on := false}, stOut := cmds},
      {s0 with sett := {st1 false .meter with rx := {epoch := some 0, seq := 5}, savedAt := 5, cmds := cmds.drop 2}, stOut := cmds},
      {s0 with sett := {st1 false .boot with cmds := cmds.drop 3}, stSeq := 7},{s0 with sett := {st1 false .service with on := false}},
      { s0 with sett := st1 false .meter, stOut := cmds, mports := [(4096+0xB88, 5), (4096+0xB92, 1)] },
      { s0 with sett := st1 true .meter, stCmds := [(1, {pend := true, sent := true, tag := 1, cmd := 1, words := [7,8]})] },
  { s0 with sett := {st1 true .service with verify := some ⟨1, 4, 5, 0, 0, [0,0,0,0]⟩, savedAt := 0, ssec := 1, frame := some ⟨1, 3, false, [([1,2], [⟨1,1,0,[5]⟩])]⟩ }, stCmds := [(1, {pend := true, sent := true, tag := 1, cmd := 1, words := [7,8]})] },
      {s0 with sett := st1 false .fault}, {s0 with sett := st1 false .service}] ++
      cmds.map (fun c => { s0 with sett := {st1 false .meter with cmds := [c] } }) ++
      cmds.map (fun c => { s0 with sett := {st1 false .fault with cmds := [c] } }) ++
      [{ s0 with sett := {st1 false .meter with cmds := (cmds.drop 3).take 1, verify := cmds.head? } }]
def rq (c p : BitVec 8) (v : Word) : List (BitVec 8) := 0xA5 :: withCrc ([c, p] ++ bytesOfWord v ++ [0])
def st (n : Nat) : State := states.getD n State.reset

theorem witness_SettMetering :
    ¬ (∀ (s : State), let x := s.sett; ∀ m : Fin 4, x.counts m.val = true → x.dual (m.val / 2) = false → False) ∧
    ¬ (∀ (s : State), let x := s.sett; ∀ m : Fin 4, x.counts m.val = false ∨ x.dual (m.val / 2) = true → False) ∧
    ¬ (∀ (s : State), let x := s.sett; let runs := fun (q : Fin 2) => x.dual q.val = true ∧ x.counts (2 * q.val) = true;
        ∀ (q : Fin 2) (ta : Nat), runs q →
        ((x.chan (2 * q.val)).ca - (x.chan (2 * q.val)).cb : Int).natAbs ≤ x.param (0x51 + 0x10 * q.val) → False) ∧
    ¬ (∀ (s : State), let x := s.sett; let runs := fun (q : Fin 2) => x.dual q.val = true ∧ x.counts (2 * q.val) = true;
        ∀ (q : Fin 2) (ta : Nat), runs q → False) ∧
    ¬ (∀ (s : State), let x := s.sett; let runs := fun (q : Fin 2) => x.dual q.val = true ∧ x.counts (2 * q.val) = true;
        ∀ (q : Fin 2) (tb per ta : Nat), runs q → (x.chan (2 * q.val)).per = some per →
        (x.chan (2 * q.val)).taPrev = some ta →
        ((x.chan (2 * q.val)).ca - ((x.chan (2 * q.val)).cb + 1) : Int).natAbs ≤ x.param (0x51 + 0x10 * q.val) → False) ∧
    ¬ (∀ (s : State), let x := s.sett; let runs := fun (q : Fin 2) => x.dual q.val = true ∧ x.counts (2 * q.val) = true;
        ∀ (q : Fin 2) (t : Nat) (b : Bool), ¬ runs q → False) ∧
    ¬ (∀ (s : State), let x := s.sett; ∀ m : Fin 4, x.meters = true → False) ∧
    ¬ (∀ (s : State), let x := s.sett; ∀ m : Fin 4, x.meters = false → False) :=
  ⟨fun h => h (st 1) (0) (by decide) (by decide),
   fun h => h (st 0) (0) (by decide),
   fun h => h (st 5) (0) (0) (by decide) (by decide),
   fun h => h (st 5) (0) (0) (by decide),
   fun h => h (st 5) (0) (0) (100) (1) (by decide) (by decide) (by decide) (by decide),
   fun h => h (st 0) (0) (0) (false) (by decide),
   fun h => h (st 1) (0) (by decide),
   fun h => h (st 0) (0) (by decide)⟩

theorem witness_SettCommands :
    ¬ (∀ (s : State), let x := s.sett; ∀ (intact : Bool), x.on = true → False) ∧
    ¬ (∀ (s : State), let x := s.sett; ∀ (intact : Bool), x.on = false → False) ∧
    ¬ (∀ (s : State), let x := s.sett; let own := ∀ o, s.hc.op = some o → o.cmd ≠ 0x16;
        ∀ (fr : Frame (List Word × List SettReply)) (ws : List Word) (rs : List SettReply), x.frame = some fr →
        fr.msgs = [(ws, rs)] → s.srx.accepts fr.epoch fr.seq = true → own → False) ∧
    ¬ (∀ (s : State), let x := s.sett; let own := ∀ o, s.hc.op = some o → o.cmd ≠ 0x16;
        ∀ (fr : Frame (List Word × List SettReply)) (intact : Bool), x.frame = some fr →
        intact = false ∨ s.srx.accepts fr.epoch fr.seq = false → own → False) ∧
    ¬ (∀ (s : State), let x := s.sett; let own := ∀ o, s.hc.op = some o → o.cmd ≠ 0x16; ∀ (intact : Bool), x.frame = none →
        own → False) ∧
    ¬ (∀ (s : State) (m : Master) (v : Word), let c := s.stCmd m.code; s.lets m 0xB90 → c.pend = true → False) ∧
    ¬ (∀ (s : State) (m : Master) (v : Word), let k := v.toNat % 16; let c := s.stCmd m.code;
        let bad := k = 0 ∨ 4 < k ∨ (3 ≤ k ∧ m.world = .program); s.lets m 0xB90 → c.pend = false → bad → False) ∧
    ¬ (∀ (s : State) (m : Master) (v : Word), let k := v.toNat % 16; let c := s.stCmd m.code;
        let bad := k = 0 ∨ 4 < k ∨ (3 ≤ k ∧ m.world = .program); s.lets m 0xB90 → c.pend = false → ¬ bad → False) ∧
    ¬ (∀ (s : State) (m : Master) (v : Word), s.lets m 0xB93 → False) ∧
    ¬ (∀ (s : State) (m : Master) (v : Word), let c := s.stCmd m.code; (∀ o, s.hc.op = some o → o.cmd ≠ 0x16) →
        c.pend = true → c.sent = true → False) ∧
    ¬ (∀ (s : State) (m : Master) (v : Word), let c := s.stCmd m.code; (∀ o, s.hc.op = some o → o.cmd ≠ 0x16) →
        c.pend = false ∨ c.sent = false → False) ∧
    ¬ (∀ (s : State), let x := s.sett;
        let head := fun (k : BitVec 4) => x.on && (x.cmds.head?).any (fun c => decide (c.cmd = k)); head 1 = false → False) ∧
    ¬ (∀ (s : State), let x := s.sett;
        let head := fun (k : BitVec 4) => x.on && (x.cmds.head?).any (fun c => decide (c.cmd = k)); head 2 = false → False) ∧
    ¬ (∀ (s : State), let x := s.sett;
        let head := fun (k : BitVec 4) => x.on && (x.cmds.head?).any (fun c => decide (c.cmd = k)); head 3 = false → False) ∧
    ¬ (∀ (s : State), let x := s.sett;
        let head := fun (k : BitVec 4) => x.on && (x.cmds.head?).any (fun c => decide (c.cmd = k)); head 4 = false → False) ∧
    ¬ (∀ (s : State), let x := s.sett; ∀ (c : SettCmd) (rest : List SettCmd), x.cmds = c :: rest → x.on = true → c.cmd = 1 →
        x.idleState = true → False) ∧
    ¬ (∀ (s : State), let x := s.sett; ∀ (c : SettCmd) (rest : List SettCmd), x.cmds = c :: rest → x.on = true → c.cmd = 1 →
        x.idleState = false → x.badChannel c.arg = true → False) ∧
    ¬ (∀ (s : State), let x := s.sett; ∀ (c : SettCmd) (rest : List SettCmd), x.cmds = c :: rest → x.on = true →
        let m := c.arg.toNat; c.cmd = 1 → x.idleState = false → x.badChannel c.arg = false → (x.chan m).batch = true →
        False) ∧
    ¬ (∀ (s : State), let x := s.sett; ∀ (c : SettCmd) (rest : List SettCmd), x.cmds = c :: rest → x.on = true →
        let m := c.arg.toNat; c.cmd = 1 → x.idleState = false → x.badChannel c.arg = false → (x.chan m).batch = false →
        False) ∧
    ¬ (∀ (s : State), let x := s.sett; ∀ (c : SettCmd) (rest : List SettCmd), x.cmds = c :: rest → x.on = true → c.cmd = 2 →
        x.idleState = true → False) ∧
    ¬ (∀ (s : State), let x := s.sett; ∀ (c : SettCmd) (rest : List SettCmd), x.cmds = c :: rest → x.on = true → c.cmd = 2 →
        x.idleState = false → x.badChannel c.arg = true → False) ∧
    ¬ (∀ (s : State), let x := s.sett; ∀ (c : SettCmd) (rest : List SettCmd), x.cmds = c :: rest → x.on = true →
        let m := c.arg.toNat; c.cmd = 2 → x.idleState = false → x.badChannel c.arg = false → (x.chan m).batch = false →
        False) ∧
    ¬ (∀ (s : State), let x := s.sett; ∀ (c : SettCmd) (rest : List SettCmd), x.cmds = c :: rest → x.on = true →
        let m := c.arg.toNat; c.cmd = 2 → x.idleState = false → x.badChannel c.arg = false → (x.chan m).batch = true →
        False) ∧
    ¬ (∀ (s : State), let x := s.sett; ∀ (c : SettCmd) (rest : List SettCmd), x.cmds = c :: rest → x.on = true → c.cmd = 3 →
        x.idleState = true → False) ∧
    ¬ (∀ (s : State), let x := s.sett; ∀ (c : SettCmd) (rest : List SettCmd), x.cmds = c :: rest → x.on = true →
        let m := c.arg.toNat; c.cmd = 3 → ∀ (e : List Word), x.idleState = false → x.audit[m]? = some e → False) ∧
    ¬ (∀ (s : State), let x := s.sett; ∀ (c : SettCmd) (rest : List SettCmd), x.cmds = c :: rest → x.on = true →
        let m := c.arg.toNat; c.cmd = 3 → x.idleState = false → x.audit[m]? = none → False) ∧
    ¬ (∀ (s : State), let x := s.sett; ∀ (c : SettCmd) (rest : List SettCmd), x.cmds = c :: rest → x.on = true → c.cmd = 4 →
        x.idleState = true → False) ∧
    ¬ (∀ (s : State), let x := s.sett; ∀ (c : SettCmd) (rest : List SettCmd), x.cmds = c :: rest → x.on = true → c.cmd = 4 →
        x.idleState = false → x.verify ≠ none → False) ∧
    ¬ (∀ (s : State), let x := s.sett; ∀ (c : SettCmd) (rest : List SettCmd), x.cmds = c :: rest → x.on = true → c.cmd = 4 →
        x.idleState = false → x.verify = none → False) ∧
    ¬ (∀ (s : State), let x := s.sett; ∀ (c : SettCmd), x.verify = some c → False) ∧
    ¬ (∀ (s : State), let x := s.sett; x.verify = none → False) :=
  ⟨fun h => h (st 1) (false) (by decide),
   fun h => h (st 0) (false) (by decide),
   fun h => h (st 6) ({ epoch := 0x0001#16, seq := 0x00000003#32, econ := false, msgs := [([0x00000001#32, 0x00000002#32], [{ cmd := 0x1#4, tag := 0x01#8, result := 0x00#8, words := [0x00000005#32] }])] }) ([0x00000001#32, 0x00000002#32]) ([{ cmd := 0x1#4, tag := 0x01#8, result := 0x00#8, words := [0x00000005#32] }])
       (by decide) (by decide) (by decide) (by decide),
   fun h => h (st 6) ({ epoch := 0x0001#16, seq := 0x00000003#32, econ := false, msgs := [([0x00000001#32, 0x00000002#32], [{ cmd := 0x1#4, tag := 0x01#8, result := 0x00#8, words := [0x00000005#32] }])] }) (false)
       (by decide) (by decide) (by decide),
   fun h => h (st 0) (false) (by decide) (by decide),
   fun h => h (st 5) (Sys2Proof.Master.house) (0x00000000#32) (by unfold State.lets; decide) (by decide),
   fun h => h (st 0) (Sys2Proof.Master.house) (0x00000000#32) (by unfold State.lets; decide) (by decide) (by decide),
   fun h => h (st 0) (Sys2Proof.Master.house) (0x00000001#32) (by unfold State.lets; decide) (by decide) (by decide),
   fun h => h (st 0) (Sys2Proof.Master.house) (0x00000000#32) (by unfold State.lets; decide),
   fun h => h (st 5) (Sys2Proof.Master.house) (0x00000000#32) (by decide) (by decide) (by decide),
   fun h => h (st 0) (Sys2Proof.Master.house) (0x00000000#32) (by decide) (by decide),
   fun h => h (st 0) (by decide),
   fun h => h (st 0) (by decide),
   fun h => h (st 0) (by decide),
   fun h => h (st 0) (by decide),
   fun h => h (st 18) ({ who := 1, cmd := 0x1#4, tag := 0x05#8, arg := 0x00000001#32, htime := 0x0000000000000000#64, nonce := [0x00000000#32, 0x00000000#32, 0x00000000#32, 0x00000000#32] }) ([])
       (by decide) (by decide) (by decide) (by decide),
   fun h => h (st 16) ({ who := 1, cmd := 0x1#4, tag := 0x05#8, arg := 0x00000009#32, htime := 0x0000000000000000#64, nonce := [0x00000000#32, 0x00000000#32, 0x00000000#32, 0x00000000#32] }) ([])
       (by decide) (by decide) (by decide) (by decide) (by decide),
   fun h => h (st 15) ({ who := 1, cmd := 0x1#4, tag := 0x05#8, arg := 0x00000000#32, htime := 0x0000000000000000#64, nonce := [0x00000000#32, 0x00000000#32, 0x00000000#32, 0x00000000#32] }) ([])
       (by decide) (by decide) (by decide) (by decide) (by decide) (by decide),
   fun h => h (st 9) ({ who := 1, cmd := 0x1#4, tag := 0x05#8, arg := 0x00000001#32, htime := 0x0000000000000000#64, nonce := [0x00000000#32, 0x00000000#32, 0x00000000#32, 0x00000000#32] }) ([])
       (by decide) (by decide) (by decide) (by decide) (by decide) (by decide),
   fun h => h (st 19) ({ who := 1, cmd := 0x2#4, tag := 0x05#8, arg := 0x00000000#32, htime := 0x0000000000000000#64, nonce := [0x00000000#32, 0x00000000#32, 0x00000000#32, 0x00000000#32] }) ([])
       (by decide) (by decide) (by decide) (by decide),
   fun h => h (st 17) ({ who := 1, cmd := 0x2#4, tag := 0x05#8, arg := 0x00000009#32, htime := 0x0000000000000000#64, nonce := [0x00000000#32, 0x00000000#32, 0x00000000#32, 0x00000000#32] }) ([])
       (by decide) (by decide) (by decide) (by decide) (by decide),
   fun h => h (st 14) ({ who := 1, cmd := 0x2#4, tag := 0x05#8, arg := 0x00000001#32, htime := 0x0000000000000000#64, nonce := [0x00000000#32, 0x00000000#32, 0x00000000#32, 0x00000000#32] }) ([])
       (by decide) (by decide) (by decide) (by decide) (by decide) (by decide),
   fun h => h (st 10) ({ who := 1, cmd := 0x2#4, tag := 0x05#8, arg := 0x00000000#32, htime := 0x0000000000000000#64, nonce := [0x00000000#32, 0x00000000#32, 0x00000000#32, 0x00000000#32] }) ([])
       (by decide) (by decide) (by decide) (by decide) (by decide) (by decide),
   fun h => h (st 20) ({ who := 1, cmd := 0x3#4, tag := 0x05#8, arg := 0x00000001#32, htime := 0x0000000000000000#64, nonce := [0x00000000#32, 0x00000000#32, 0x00000000#32, 0x00000000#32] }) ([])
       (by decide) (by decide) (by decide) (by decide),
   fun h => h (st 11) ({ who := 1, cmd := 0x3#4, tag := 0x05#8, arg := 0x00000001#32, htime := 0x0000000000000000#64, nonce := [0x00000000#32, 0x00000000#32, 0x00000000#32, 0x00000000#32] }) ([])
       (by decide) (by decide) (by decide) ([0x00000009#32]) (by decide) (by decide),
   fun h => h (st 13) ({ who := 1, cmd := 0x3#4, tag := 0x05#8, arg := 0x00000009#32, htime := 0x0000000000000000#64, nonce := [0x00000000#32, 0x00000000#32, 0x00000000#32, 0x00000000#32] }) ([])
       (by decide) (by decide) (by decide) (by decide) (by decide),
   fun h => h (st 21) ({ who := 1, cmd := 0x4#4, tag := 0x05#8, arg := 0x00000000#32, htime := 0x0000000000000000#64, nonce := [0x00000000#32, 0x00000000#32, 0x00000000#32, 0x00000000#32] }) ([])
       (by decide) (by decide) (by decide) (by decide),
   fun h => h (st 27) ({ who := 1, cmd := 0x4#4, tag := 0x05#8, arg := 0x00000000#32, htime := 0x0000000000000000#64, nonce := [0x00000000#32, 0x00000000#32, 0x00000000#32, 0x00000000#32] }) ([])
       (by decide) (by decide) (by decide) (by decide) (by decide),
   fun h => h (st 12) ({ who := 1, cmd := 0x4#4, tag := 0x05#8, arg := 0x00000000#32, htime := 0x0000000000000000#64, nonce := [0x00000000#32, 0x00000000#32, 0x00000000#32, 0x00000000#32] }) ([])
       (by decide) (by decide) (by decide) (by decide) (by decide),
   fun h => h (st 6) ({ who := 1, cmd := 0x4#4, tag := 0x05#8, arg := 0x00000000#32, htime := 0x0000000000000000#64, nonce := [0x00000000#32, 0x00000000#32, 0x00000000#32, 0x00000000#32] })
       (by decide),
   fun h => h (st 0) (by decide)⟩

theorem witness_SettService :
    ¬ (∀ (s : State), let x := s.sett; x.on = true → x.savedAt + 100 ≤ x.clock → x.saved.head? ≠ some x.snapshot → False) ∧
    ¬ (∀ (s : State), let x := s.sett; x.on = false ∨ x.clock < x.savedAt + 100 ∨ x.saved.head? = some x.snapshot → False) ∧
    ¬ (∀ (s : State), let x := s.sett; x.on = true → False) ∧
    ¬ (∀ (s : State), let x := s.sett; x.on = false → False) ∧
    ¬ (∀ (s : State), let x := s.sett; ∀ (p : BitVec 8) (v : Word), x.on = true → x.st ≠ .boot →
        paramRange (x.phminOf p.toNat) p.toNat ≠ none → False) ∧
    ¬ (∀ (s : State), let x := s.sett; ∀ (p : BitVec 8) (v : Word), x.on = true → x.st ≠ .boot →
        paramRange (x.phminOf p.toNat) p.toNat = none → False) ∧
    ¬ (∀ (s : State), let x := s.sett; ∀ (p : BitVec 8) (v : Word), x.on = true → x.writeRes p.toNat v = 0 →
        x.param p.toNat ≠ v.toNat → False) ∧
    ¬ (∀ (s : State), let x := s.sett; ∀ (p : BitVec 8) (v : Word) (ok : Bool), x.on = true → x.writeRes p.toNat v ≠ 0 →
        False) ∧
    ¬ (∀ (s : State), let x := s.sett; ∀ (p : BitVec 8) (v : Word) (ok : Bool), x.on = true → x.writeRes p.toNat v = 0 →
        x.param p.toNat = v.toNat → False) ∧
    ¬ (∀ (s : State), let x := s.sett; ∀ (p : BitVec 8) (v : Word), x.on = true → x.st ≠ .boot → False) ∧
    ¬ (∀ (s : State), let x := s.sett; ∀ (fr : List Byte) (ok : Bool),
        x.on = false ∨ fr.length ≠ 10 ∨ fr ≠ 0xA5 :: withCrc ((fr.drop 1).take 7) → False) :=
  ⟨fun h => h (st 1) (by decide) (by decide) (by decide),
   fun h => h (st 0) (by decide),
   fun h => h (st 1) (by decide),
   fun h => h (st 0) (by decide),
   fun h => h (st 1) (0x00#8) (0x00000000#32) (by decide) (by decide) (by decide),
   fun h => h (st 1) (0x01#8) (0x00000000#32) (by decide) (by decide) (by decide),
   fun h => h (st 6) (0x00#8) (0x00000001#32) (by decide) (by decide) (by decide),
   fun h => h (st 1) (0x00#8) (0x00000000#32) (false) (by decide) (by decide),
   fun h => h (st 6) (0x00#8) (0x00000000#32) (false) (by decide) (by decide) (by decide),
   fun h => h (st 1) (0x00#8) (0x00000000#32) (by decide) (by decide),
   fun h => h (st 0) ([0xa5#8, 0x01#8, 0x10#8, 0x05#8, 0x00#8, 0x00#8, 0x00#8, 0x00#8, 0x70#8, 0x7c#8]) (false) (by decide)⟩

end Sys2Proof.Tests.Setts

namespace Sys2Proof.Tests.Racks

open Sys2Proof Sys2Proof.Machine Sys2Proof.Tests

def bw (w0 w2 w3 m e : Word) : List Word := [w0, 0x20, w2, w3, 0x8, m, e, 0]
def sect (rst : Word) : List Word := [rst ||| 5,0,0,0,0,0,0,0] ++ bw 0x80000000 0x10001 0x1010000 0 0 ++
    bw 0x90000000 0x10001 0x1010000 0xFFFF 5 ++ bw 0xE0000000 0x10001 0x1010000 0xFFFFFFFF 5 ++
    bw 0xB0000000 0x10001 0x1010000 0xFFFFFFFF 5 ++ bw 0 0 0 0 0
def bds : SMap Board := [(1, {fails := 1}), (2, {fails := 2}), (3, {st := .failed, fails := 3, stale := true}),
    (4, {st := .missing})]
def ok1 (b : Fin 21) : BoardAnswers := ⟨b, List.replicate 60 (some [5, 0, 0, 0]), List.replicate 60 (some [1])⟩
def dA : BoardAnswers := ⟨4, [some (dFrame 0x20 1 [7, 1,2,3,4])], [some (dFrame 0x20 2 [])]⟩
def sectM : List Word := [0x205,0,0,0,0,0,0,0] ++ (sect 0).drop 8
def states : List State :=
  [ { s0 with rk := { sect := sectM, boards := bds, running := true }, pl := {own := true}, hc := { mbOut := List.replicate 70 3 } },
      { s0 with rk := { sect := sectM, boards := [], running := true }, pl := {own := true}, hc := { mbOut := [1,2], mbReply := { tog := true, data := [3] } } },
      { s0 with rk := { sect := sect 0, boards := bds }, pl := {own := true} },
      { s0 with rk := { sect := sect 0x80000000, boards := [], running := true, snap := [(1, [1,0,1]), (4, [1,2,3,4,5])] }, pl := {own := true} },
      s0,
 { s0 with rk := { sect := sect 0x80000000, boards := [(2,{st := .missing, rescan := true, first := true})], rreset := true, rresetEnd := 0 }, pl := {own := true} },
     { s0 with rk := { sect := sect 0, boards := bds, running := true }, pl := {own := true} } ]
def st (n : Nat) : State := states.getD n State.reset

theorem witness_RackBus :
    ¬ (∀ (s : State), let k := s.rk; let first := k.enabled.any (fun b => (k.board b).first) = true; s.rackMaster = true →
        ¬ first → False) ∧
    ¬ (∀ (s : State), let k := s.rk; let first := k.enabled.any (fun b => (k.board b).first) = true;
        s.rackMaster = false ∨ first → False) ∧
    ¬ (∀ (s : State), let k := s.rk; ∀ (as : List BoardAnswers) (ns : Nat), (Instr.rackInputPhaseEnd as ns).wf = true →
        k.running = true → False) ∧
    ¬ (∀ (s : State), let k := s.rk; ∀ (as : List BoardAnswers) (ns : Nat), (Instr.rackInputPhaseEnd as ns).wf = true →
        k.running = false → False) ∧
    ¬ (∀ (s : State), let k := s.rk; ∀ (b : Fin 21) (answer : Option (List Byte)), (Instr.identityProbe b answer).wf = true →
        s.rackMaster = true → boardOn k.sect b.val = true → False) ∧
    ¬ (∀ (s : State), let k := s.rk; ∀ (b : Fin 21) (answer : Option (List Byte)), (Instr.identityProbe b answer).wf = true →
        s.rackMaster = false ∨ boardOn k.sect b.val = false → False) ∧
    ¬ (∀ (s : State), let k := s.rk;
        let held := (wordAt k.sect 0).getLsbD 31 = false ∨ k.rreset = true ∨ (s.pl.role = 2 ∧ s.pl.link = true ∧ s.pl.sensed = true);
        held → False) ∧
    ¬ (∀ (s : State), let k := s.rk;
        let held := (wordAt k.sect 0).getLsbD 31 = false ∨ k.rreset = true ∨ (s.pl.role = 2 ∧ s.pl.link = true ∧ s.pl.sensed = true);
        ¬ held → False) ∧
    ¬ (∀ (s : State), s.rackMaster = true → False) ∧
    ¬ (∀ (s : State), s.rackMaster = false → False) ∧
    ¬ (∀ (s : State), ∀ ms : BitVec 8, s.rackMaster = true → ms ≠ 0 → False) ∧
    ¬ (∀ (s : State), ∀ ms : BitVec 8, s.rackMaster = false ∨ ms = 0 → False) ∧
    ¬ (∀ (s : State), let k := s.rk; k.rreset = true → k.rresetEnd ≤ s.time → False) ∧
    ¬ (∀ (s : State), let k := s.rk; k.rreset = false ∨ s.time < k.rresetEnd → False) :=
  ⟨fun h => h (st 0) (by decide) (by decide),
   fun h => h (st 4) (by decide),
   fun h => h (st 0) ([]) (0) (by decide) (by decide),
   fun h => h (st 2) ([]) (0) (by decide) (by decide),
   fun h => h (st 0) (1) (none) (by decide) (by decide) (by decide),
   fun h => h (st 0) (10) (none) (by decide) (by decide),
   fun h => h (st 0) (by decide),
   fun h => h (st 3) (by decide),
   fun h => h (st 0) (by decide),
   fun h => h (st 4) (by decide),
   fun h => h (st 0) (0x01#8) (by decide) (by decide),
   fun h => h (st 0) (0x00#8) (by decide),
   fun h => h (st 5) (by decide) (by decide),
   fun h => h (st 0) (by decide)⟩

end Sys2Proof.Tests.Racks

namespace Sys2Proof.Tests.Badgers

open Sys2Proof Sys2Proof.Machine Sys2Proof.Tests

def b1 (st : BdState) (since : Nat) : State := { s0 with time := 12000*490000, bd := { st := st, since := since, q := 0x1234, own := [0x88888888, 0x88888888,0x88888888,0x88888888], ownEff := [0x88888888, 0x88888888,0x88888888,0x88888888], per := 500000, cls := 48, chk := 1 } }
def states : List State :=
  [b1 .stopped 0, b1 .closed 0, b1 .opened 0, b1 .closed (12000*400000),
      b1 .failed 0, { b1 .failed 0 with bd := { (b1 .failed 0).bd with actionDue := true, act := false } },
      { b1 .failed 0 with bd := { (b1 .failed 0).bd with actionDue := true, act := true, applied := true } }]
def st (n : Nat) : State := states.getD n State.reset
def appliedState : State := { b1 .failed 0 with bd := { (b1 .failed 0).bd with actionDue := true, act := true, applied := true } }
theorem applied_resets : appliedState.bdResets = false := by
  unfold State.bdResets
  rw [show appliedState.bd.act = true from rfl, show appliedState.bd.applied = true from rfl]
  cases Config.hws <;> rfl

theorem witness_Badger :
    ¬ (∀ (s : State) (v : Word), s.bd.st = .stopped → False) ∧
    ¬ (∀ (s : State) (v : Word), s.bd.st = .closed ∨ s.bd.st = .opened → ownerOf s.bd.ownEff (v.toNat % 32) = 8 → False) ∧
    ¬ (∀ (s : State) (v : Word), s.bd.st = .closed ∨ s.bd.st = .opened → s.bd.mode = 0 → s.bdCount < s.bd.per →
        s.bd.opensAt ≤ s.bdCount → v.extractLsb' 0 16 = bdToken s.bd.q → s.bd.erq &&& ~~~s.bd.chk = 0 →
        s.bd.erq &&& s.bd.dup = 0 → False) ∧
    ¬ (∀ (s : State) (v : Word), s.bd.st = .closed ∨ s.bd.st = .opened → s.bd.mode = 0 → s.bdCount < s.bd.per →
        (s.bdCount < s.bd.opensAt ∨ v.extractLsb' 0 16 ≠ bdToken s.bd.q) → False) ∧
    ¬ (∀ (s : State) (v : Word), s.bd.st = .stopped → 1000 ≤ v.toNat → v.toNat ≤ 10000000 → False) ∧
    ¬ (∀ (s : State) (v : Word), s.bd.st = .closed ∨ s.bd.st = .failed → ∀ a : Addr, 0x810 ≤ a.toNat → a.toNat ≤ 0x819 →
        a.toNat ≠ 0x813 → False) ∧
    ¬ (∀ (s : State) (v : Word), s.bd.st = .closed → s.bd.applyDue = false → False) ∧
    ¬ (∀ (s : State) (v : Word), s.bd.st = .closed ∨ s.bd.st = .opened → False) ∧
    ¬ (∀ (s : State) (v : Word), s.bd.actionDue = true → s.bdResets = true → s.boot ≠ .running → False) ∧
    ¬ (∀ (s : State) (v : Word), s.bd.actionDue = true → s.bdResets = false → False) :=
  ⟨fun h => h (st 0) (0x00000000#32) (by decide),
   fun h => h (st 1) (0x00000000#32) (by decide) (by decide),
   fun h => h (st 1) (0x0000cb0d#32) (by decide) (by decide) (by decide) (by decide) (by decide) (by decide) (by decide),
   fun h => h (st 1) (0x00000000#32) (by decide) (by decide) (by decide) (by decide),
   fun h => h (st 0) (0x000007d0#32) (by decide) (by decide) (by decide),
   fun h => h (st 1) (0x00000000#32) (by decide) (0x000810#22) (by decide) (by decide) (by decide),
   fun h => h (st 1) (0x00000000#32) (by decide) (by decide),
   fun h => h (st 1) (0x00000000#32) (by decide),
   fun h => h (st 5) 0 (by decide) (by decide) (by decide),
   fun h => h appliedState 0 (by decide) applied_resets⟩

end Sys2Proof.Tests.Badgers

namespace Sys2Proof.Tests.Clocks

open Sys2Proof Sys2Proof.Machine Sys2Proof.Tests

def r1 : Rtc := { secs := 86399, wtim := 0x010B3B3B, wdat := 0x00630C1F, stat := 0x94000000, atim := [0x07000000, 0x07000000], adat := [0xC0000000, 0x80000000] }
def qeL : List QEvent := []
def qe (c : BitVec 16) : QEvent := { ev := ⟨c,1,1,1,1,1⟩, time := 5, forced := true, tinv := false, occurred := 0 }
def recs : SMap (List Word) := [(3, recordWords 7 ⟨5,1,1,1,1,1⟩ false true 8 0xFFFE)]
def states : List State :=
  [ { s0 with rtc := r1, time := 999999999, er := { queue := [qe 6], newestSlot := 3, cnt := 4, nseq := 8 }, mports := [(4096+0xB40, 3), (4096+0xB41, 1)], mram := { records := recs } },
  { s0 with rtc := {r1 with secs := secondsIn400 - 1, wtim := 0, wdat := 0}, er := { queue := [qe 5, qe 6], newestSlot := 3, cnt := 4, nseq := 8, newest := some {slot := 3, ev := ⟨5,1,1,1,1,1⟩, first := 0}, supp := [(0x202, 5)] }, mram := { records := recs } },
  { s0 with er := { queue := List.replicate 64 (qe 5), cnt := 0 } },
      {s0 with er := { queue := [qe 6], cnt := 65535, newestSlot := 0xFFFF }},
      {s0 with er := { queue := [qe 6], cnt := 65536, newestSlot := 0xFFFF }},
      {s0 with er := { queue := [qe 0x202, qe 6], cnt := 65536, newestSlot := 0xFFFF, newest := some {slot := 3, ev := ⟨5,1,1,1,1,1⟩, first := 0} }, mram := { records := recs }},
      {s0 with er := { queue := [qe 0x202, qe 6], cnt := 6, winNew := [(0x202, 8)], newest := some {slot := 3, ev := ⟨5,1,1,1,1,1⟩, first := 0} }, mram := { records := recs }},
      {s0 with er := { scan := true, queue := [qe 6] }}]
def st (n : Nat) : State := states.getD n State.reset

theorem witness_ClockAndRecorder :
    ¬ (∀ (s : State) (m : Master) (v : Word), s.lets m 0xB00 → False) ∧
    ¬ (∀ (s : State) (m : Master) (v : Word), let c := s.rtc; let set := calFields c.wtim c.wdat; s.lets m 0xB0A →
        set.ok = true → False) ∧
    ¬ (∀ (s : State) (m : Master) (v : Word), let c := s.rtc; let set := calFields c.wtim c.wdat; s.lets m 0xB0A →
        set.ok = false → False) ∧
    ¬ (∀ (s : State) (m : Master) (v : Word), ∀ (k : Nat), k < 2 → s.lets m (0xB10 + 2 * k) → alarmOk false v = true →
        False) ∧
    ¬ (∀ (s : State) (m : Master) (v : Word), ∀ (k : Nat), k < 2 → s.lets m (0xB11 + 2 * k) → alarmOk true v = true → False) ∧
    ¬ (∀ (s : State) (m : Master) (v : Word), ∀ (k : Nat), k < 4 → s.lets m (0xB10 + k) → alarmOk (k % 2 == 1) v = false →
        False) ∧
    ¬ (∀ (s : State) (m : Master) (v : Word), let n := s.er; ∀ (e : Event), n.queue.length < 64 → False) ∧
    ¬ (∀ (s : State) (m : Master) (v : Word), let n := s.er; ∀ (e : Event), 64 ≤ n.queue.length → False) ∧
    ¬ (∀ (s : State) (m : Master) (v : Word), let n := s.er; n.scan = true ∨ n.clr = true ∨ n.queue = [] → False) ∧
    ¬ (∀ (s : State) (m : Master) (v : Word), let n := s.er; let idle := n.scan = false ∧ n.clr = false;
        let fresh := fun (q : QEvent) => n.newest.all (fun x => decide (x.ev ≠ q.ev)) = true;
        let win := fun (q : QEvent) => n.winNew.get (fun _ => 0) q.ev.code.toNat;
        let limited := fun (q : QEvent) => rateCodes.contains q.ev.code.toNat = true; ∀ (q : QEvent) (rest : List QEvent),
        idle → n.queue = q :: rest → n.cnt < 65536 → fresh q → ¬ limited q ∨ n.newest = none ∨ win q < 8 → False) ∧
    ¬ (∀ (s : State) (m : Master) (v : Word), let n := s.er; let idle := n.scan = false ∧ n.clr = false;
        let fresh := fun (q : QEvent) => n.newest.all (fun x => decide (x.ev ≠ q.ev)) = true;
        let win := fun (q : QEvent) => n.winNew.get (fun _ => 0) q.ev.code.toNat;
        let limited := fun (q : QEvent) => rateCodes.contains q.ev.code.toNat = true;
        ∀ (q : QEvent) (rest : List QEvent) (i : Nat), idle → n.queue = q :: rest →
        65536 ≤ n.cnt ∧ fresh q ∧ (¬ limited q ∨ n.newest = none ∨ win q < 8) →
        victim q.ev.sev.toNat s.mram.records = some i → False) ∧
    ¬ (∀ (s : State) (m : Master) (v : Word), let n := s.er; let idle := n.scan = false ∧ n.clr = false;
        let fresh := fun (q : QEvent) => n.newest.all (fun x => decide (x.ev ≠ q.ev)) = true;
        let limited := fun (q : QEvent) => rateCodes.contains q.ev.code.toNat = true; ∀ (q : QEvent) (rest : List QEvent),
        idle → n.queue = q :: rest → 65536 ≤ n.cnt → fresh q → ¬ limited q → victim q.ev.sev.toNat s.mram.records = none →
        False) ∧
    ¬ (∀ (s : State) (m : Master) (v : Word), let n := s.er; let idle := n.scan = false ∧ n.clr = false;
        let fresh := fun (q : QEvent) => n.newest.all (fun x => decide (x.ev ≠ q.ev)) = true;
        let win := fun (q : QEvent) => n.winNew.get (fun _ => 0) q.ev.code.toNat;
        let limited := fun (q : QEvent) => rateCodes.contains q.ev.code.toNat = true; ∀ (q : QEvent) (rest : List QEvent),
        idle → n.queue = q :: rest → fresh q → limited q → n.newest ≠ none → 8 ≤ win q → False) ∧
    ¬ (∀ (s : State) (m : Master) (v : Word), let n := s.er; let idle := n.scan = false ∧ n.clr = false;
        ∀ (q : QEvent) (rest : List QEvent) (x : Newest), idle → n.queue = q :: rest → n.newest = some x → x.ev = q.ev →
        False) ∧
    ¬ (∀ (s : State) (m : Master) (v : Word), s.lets m 0xB42 → False) ∧
    ¬ (∀ (s : State) (m : Master) (v : Word), s.lets m 0xB44 → False) ∧
    ¬ (∀ (s : State) (m : Master) (v : Word), let n := s.er; s.lets m 0xB53 →
        let good := 0xF000 ≤ fld v 31 16 ∧ fld v 31 16 ≤ 0xFFFE ∧ fld v 15 3 = 0; good → n.queue.length < 64 → False) ∧
    ¬ (∀ (s : State) (m : Master) (v : Word), let n := s.er; s.lets m 0xB53 →
        let good := 0xF000 ≤ fld v 31 16 ∧ fld v 31 16 ≤ 0xFFFE ∧ fld v 15 3 = 0; good → 64 ≤ n.queue.length → False) ∧
    ¬ (∀ (s : State) (m : Master) (v : Word), s.lets m 0xB53 →
        let good := 0xF000 ≤ fld v 31 16 ∧ fld v 31 16 ≤ 0xFFFE ∧ fld v 15 3 = 0; ¬ good → False) :=
  ⟨fun h => h (st 0) (Sys2Proof.Master.house) (0x00000000#32) (by unfold State.lets; decide),
   fun h => h (st 0) (Sys2Proof.Master.house) (0x00000000#32) (by unfold State.lets; decide) (by decide),
   fun h => h (st 1) (Sys2Proof.Master.house) (0x00000000#32) (by unfold State.lets; decide) (by decide),
   fun h => h (st 0) (Sys2Proof.Master.house) (0x01173b3b#32) (0) (by decide) (by unfold State.lets; decide) (by decide),
   fun h => h (st 0) (Sys2Proof.Master.house) (0x01173b3b#32) (0) (by decide) (by unfold State.lets; decide) (by decide),
   fun h => h (st 0) (Sys2Proof.Master.house) (0x00000000#32) (0) (by decide) (by unfold State.lets; decide) (by decide),
   fun h => h (st 0) (Sys2Proof.Master.house) (0x00000000#32) ({ code := 0x0005#16, source := 0x01#8, sev := 0x1#3, p0 := 0x00000001#32, p1 := 0x00000001#32, p2 := 0x00000001#32 })
       (by decide),
   fun h => h (st 2) (Sys2Proof.Master.house) (0x00000000#32) ({ code := 0x0005#16, source := 0x01#8, sev := 0x1#3, p0 := 0x00000001#32, p1 := 0x00000001#32, p2 := 0x00000001#32 })
       (by decide),
   fun h => h (st 7) (Sys2Proof.Master.house) (0x00000000#32) (by decide),
   fun h => h (st 0) (Sys2Proof.Master.house) (0x00000000#32) ({ ev := { code := 0x0006#16, source := 0x01#8, sev := 0x1#3, p0 := 0x00000001#32, p1 := 0x00000001#32, p2 := 0x00000001#32 }, time := 0x0000000000000005#64, forced := true, tinv := false, occurred := 0 }) ([])
       (by decide) (by decide) (by decide) (by decide) (by decide),
   fun h => h (st 5) (Sys2Proof.Master.house) (0x00000000#32) ({ ev := { code := 0x0202#16, source := 0x01#8, sev := 0x1#3, p0 := 0x00000001#32, p1 := 0x00000001#32, p2 := 0x00000001#32 }, time := 0x0000000000000005#64, forced := true, tinv := false, occurred := 0 }) ([{ ev := { code := 0x0006#16, source := 0x01#8, sev := 0x1#3, p0 := 0x00000001#32, p1 := 0x00000001#32, p2 := 0x00000001#32 }, time := 0x0000000000000005#64, forced := true, tinv := false, occurred := 0 }]) (3)
       (by decide) (by decide) (by decide) (by decide),
   fun h => h (st 4) (Sys2Proof.Master.house) (0x00000000#32) ({ ev := { code := 0x0006#16, source := 0x01#8, sev := 0x1#3, p0 := 0x00000001#32, p1 := 0x00000001#32, p2 := 0x00000001#32 }, time := 0x0000000000000005#64, forced := true, tinv := false, occurred := 0 }) ([])
       (by decide) (by decide) (by decide) (by decide) (by decide) (by decide),
   fun h => h (st 6) (Sys2Proof.Master.house) (0x00000000#32) ({ ev := { code := 0x0202#16, source := 0x01#8, sev := 0x1#3, p0 := 0x00000001#32, p1 := 0x00000001#32, p2 := 0x00000001#32 }, time := 0x0000000000000005#64, forced := true, tinv := false, occurred := 0 }) ([{ ev := { code := 0x0006#16, source := 0x01#8, sev := 0x1#3, p0 := 0x00000001#32, p1 := 0x00000001#32, p2 := 0x00000001#32 }, time := 0x0000000000000005#64, forced := true, tinv := false, occurred := 0 }])
       (by decide) (by decide) (by decide) (by decide) (by decide) (by decide),
   fun h => h (st 1) (Sys2Proof.Master.house) (0x00000000#32) ({ ev := { code := 0x0005#16, source := 0x01#8, sev := 0x1#3, p0 := 0x00000001#32, p1 := 0x00000001#32, p2 := 0x00000001#32 }, time := 0x0000000000000005#64, forced := true, tinv := false, occurred := 0 }) ([{ ev := { code := 0x0006#16, source := 0x01#8, sev := 0x1#3, p0 := 0x00000001#32, p1 := 0x00000001#32, p2 := 0x00000001#32 }, time := 0x0000000000000005#64, forced := true, tinv := false, occurred := 0 }]) ({ slot := 3, ev := { code := 0x0005#16, source := 0x01#8, sev := 0x1#3, p0 := 0x00000001#32, p1 := 0x00000001#32, p2 := 0x00000001#32 }, first := 0 })
       (by decide) (by decide) (by decide) (by decide),
   fun h => h (st 0) (Sys2Proof.Master.house) (0x00000000#32) (by unfold State.lets; decide),
   fun h => h (st 0) (Sys2Proof.Master.house) (0x00000000#32) (by unfold State.lets; decide),
   fun h => h (st 0) (Sys2Proof.Master.house) (0xf0000003#32) (by unfold State.lets; decide) (by decide) (by decide),
   fun h => h (st 2) (Sys2Proof.Master.house) (0xf0000003#32) (by unfold State.lets; decide) (by decide) (by decide),
   fun h => h (st 0) (Sys2Proof.Master.house) (0x00000000#32) (by unfold State.lets; decide) (by decide)⟩

end Sys2Proof.Tests.Clocks

namespace Sys2Proof.Tests.Resets

open Sys2Proof Sys2Proof.Machine Sys2Proof.Tests

def states : List State :=
  [ { s0 with ks := {slots := [(2, {attr0 := 0xA4100000})]}, mram := {hostEpoch := 5}, pending := [.powerOn] },
      { s0 with pl := {role := 2} },
      { s0 with pl := {role := 1, link := true, partner := some {role := 1, pstate := 1, mstate := 3, prog := 1, fw := 1, proto := 1} } } , {s0 with ks := {slots := [(2, {attr0 := 0xA4100000})]}, er := {queue := []}, rtc := {stat := 0x84000000}, mram := {bankptr := 1, bstate := 0, bankA := [1,2]}, pl := {role := 2, ps := .sync} },
      {s0 with boot := .running, resetReq := some .badger, pl := {role := 2}}]
def st (n : Nat) : State := states.getD n State.reset
def fwState (img desc : List Byte) : State :=
  { s0 with ks := {slots := [(2, {attr0 := 0xA4100000})]}, mram := {fw0 := img, desc0 := desc} }
/-- The key store has failed: no bank qualifies. -/
def failState : State := { s0 with ks := {slots := [(2, {attr0 := 0xA4100000})], fail := true} }

theorem witness_ResetAndBoot :
    (∀ img desc : List Byte, (fwState img desc).fwQualifies (fwState img desc).fwBank1 = true → ¬ (∀ (s : State),
        ∀ (src : ResetSource) (ms : Nat) (wrong : List (Fin 4 × Bool × Option (Fin 64))), s.boot ≠ .running →
        s.mram.bstate = 0 → s.ks.pendTo = none → (s.slot 2).persist = true → s.fwQualifies s.fwBank1 = true → False)) ∧
    ¬ (∀ (s : State), ∀ (src : ResetSource) (ms : Nat) (wrong : List (Fin 4 × Bool × Option (Fin 64))), s.boot ≠ .running →
        s.mram.bstate = 0 → s.ks.pendTo = none → (s.slot 2).persist = true → s.fwQualifies s.fwBank1 = false →
        s.fwQualifies (!s.fwBank1) = false → False) ∧
    ¬ (∀ (s : State), s.pl.role = 2 → s.pl.ps = .unsync → False) ∧
    ¬ (∀ (s : State), s.pl.role ≠ 2 ∨ s.pl.ps ≠ .unsync → False) ∧
    ¬ (∀ (s : State), ∀ (h : PairHeartbeat), s.pl.role = 1 → s.pl.presetSent = false → s.pl.partner = some h → h.mstate = 3 →
        s.pl.link = true → False) ∧
    ¬ (∀ (s : State), s.pl.role ≠ 1 ∨ s.pl.presetSent = true ∨ (∀ h, s.pl.partner = some h → h.mstate ≠ 3) → False) :=
  ⟨fun img desc e h => h (fwState img desc) .powerOn 0 [] nofun rfl rfl (show Slot.persist { attr0 := 0xA4100000 } = true by decide) e,
   fun h => h failState .powerOn 0 [] (by decide) (by decide) (by decide) (by decide) (by decide) (by decide),
   fun h => h (st 1) (by decide) (by decide),
   fun h => h (st 0) (by decide),
   fun h => h (st 2) ({ role := 0x1#2, pstate := 0x1#3, mstate := 0x3#2, prog := 0x0000000000000001#64, fw := 0x00000001#32, proto := 0x0001#16 })
       (by decide) (by decide) (by decide) (by decide) (by decide),
   fun h => h (st 0) (by decide)⟩

end Sys2Proof.Tests.Resets

namespace Sys2Proof.Tests.Hosts

open Sys2Proof Sys2Proof.Machine Sys2Proof.Tests

def op1 (c : BitVec 16) (p : BitVec 2) (w : Option (BitVec 16 × BitVec 16)) : LongOp := { cmd := c, sess := 1, key := [1,2,3,4], phase := p, wait := w, bytes := [1,2] }
def sess : SMap Session := [(1, {used := true, opened := true, role := .owner, ident := [1,2,3,4], txSeq := 4, rxSeq := 0}),
    (2, {used := true})]
def eth : SMap EthPort := [(0, {up := true}), (1, {up := false, ip := 5})]
def hs (op : Option LongOp) (lc : BitVec 8) : State := { s0 with hc := { eth := eth, sess := sess, op := op, resetDue := true }, ks := { lc := lc, policy := [0,if lc = 3 && op.isNone then 2 else 0,7,0,0,0] } }
def stopped (s : State) : State := { s with lps := [(0, {st := .stop}), (1, {st := .stop})], regions := [(0, {cov := .paired})] }
def running (s : State) : State := { s with lps := [(0, {st := .run, phase := .exec}), (1, {st := .stop})], regions := [(0, {cov := .paired})] }
def states : List State :=
  [ hs none 3, hs none 2, stopped (hs none 3),
      { hs none 3 with hc := { (hs none 3).hc with sess := [(1, {used := true, opened := true, role := .owner, path := .mailbox, ident := [1,2,3,4], txSeq := 4})], mbOut := [9] } },
      running (hs none 3), { running (hs none 3) with pl := {role := 2, link := true} }, { hs none 1 with boot := .running },
      hs none 4, hs none 1, {hs none 1 with hc := {(hs none 1).hc with resetDue := false, sess := [(0,{used:=true}),(1,{used:=true, opened := true}),(2,{used:=true}),(3,{used:=true})]}},
      {running (hs none 3) with regions := [(0, {cov := .split})]},
      {hs none 3 with ks := {(hs none 3).ks with policy := [0,0,7,0,0,0]}},
      {hs (some (op1 0x15 3 (some (0x15, 1)))) 3 with hc := {(hs (some (op1 0x15 3 (some (0x15, 1)))) 3).hc with resetDue := false}},
      {hs none 3 with ks := { lc := 3, policy := List.replicate 8 0 ++ [0xC0000008], slots := [(8, {attr0 := 0xA4100000, key := [5]})]}} ] ++
      ([op1 0x10 1 none, op1 0x11 1 none, op1 0x12 1 none, {op1 0x12 1 none with bytes := []}, op1 0x15 3 (some (0x15, 1)),
      op1 0x14 3 (some (0x14, 1)), op1 0x10 2 (some (0x21, 1)),
      {op1 0x10 2 (some (0x21, 1)) with forceclr := true}]).map (fun o => { stopped (hs (some o) 3) with mram := { records := [(5,[1])], curB := true, bankB := [7] }, er := {clr := true, cnt := 7} })
def st (n : Nat) : State := states.getD n State.reset
theorem mstate_stop (s : State) (hb : s.boot = .done) (hh : s.halted = false) (h : ∀ p, p < 8 → (s.lp p).st ≠ .run) :
    s.mstate = .stop := by
  simp [State.mstate, hb, hh, anyRun_none s h]
def loadOp (img : List Byte) : LongOp := { op1 0x10 2 (some (0x21, 1)) with bytes := img }
def loadState (img : List Byte) : State := stopped (hs (some (loadOp img)) 3)
/-- A session that waits for FIN_H, whose key identifier the policy admits as OWNER. -/
def admState : State :=
  { hs none 3 with ks := { lc := 3, policy := List.replicate 8 0 ++ [0xC0000008], slots := [(8, { attr0 := 0xA4100000, key := [5] })] }
                   hc := { sess := [(2, { used := true, ident := (Config.sm3 [5]).take 8 })] } }
theorem adm_found : admState.admission (admState.session 2).ident = some (8, 3) := by
  unfold State.admission
  show List.find? _ ((8, 3) :: _) = _
  rw [List.find?_cons_of_pos]
  show (decide ((3 : Nat) ≠ 0) && true && ((Config.sm3 [5]).take 8 == (Config.sm3 [5]).take 8)) = true
  rw [beq_self_eq_true]
  rfl
/-- The same with a force enabled. -/
def loadedState (img : List Byte) : State := { loadState img with force := [(1, { addr := 5, val := 1, en := true })] }

theorem witness_HostSessions :
    ¬ (∀ (s : State), ∀ (k : Fin 2), s.boot = .done → False) ∧
    ¬ (∀ (s : State), ∀ (k : Fin 2), s.boot = .done → (s.ethPort k.val).up = false → False) ∧
    ¬ (∀ (s : State), ∀ (k : Fin 2) (up : Bool), (s.boot ≠ .done ∨ (up = true ∧ (s.ethPort k.val).up = true)) → False) ∧
    ¬ (∀ (s : State), ∀ (k : Fin 2) (ip : Word), ((s.ethPort k.val).up = false ∨ (s.ethPort k.val).dhcp = false) → False) ∧
    ¬ (∀ (s : State), ∀ (k : Fin 2) (ip : Word), (s.ethPort k.val).ip ≠ 0 → False) ∧
    ¬ (∀ (s : State), ∀ (k : Fin 2) (ip : Word), (s.ethPort k.val).up = true → (s.ethPort k.val).dhcp = true → False) ∧
    ¬ (∀ (s : State), ∀ (k : Fin 2) (ip : Word), (s.ethPort k.val).up = true → (s.ethPort k.val).dhcp = true →
        (s.ethPort k.val).ip = 0 → False) ∧
    ¬ (∀ (s : State), ∀ (k : Fin 2) (role : Role) (ident : List Byte) (key : List Byte) (nonce : List Byte), s.boot = .done →
        (s.ethPort k.val).up = true → (s.session 0).used = false → False) ∧
    ¬ (∀ (s : State), ∀ (k : Fin 2) (ver : BitVec 8) (role : Role) (ident : List Byte) (key : List Byte) (nonce : List Byte),
        s.boot = .done → (s.ethPort k.val).up = true → (ver ≠ 1 ∨ (∀ i, i < 4 → (s.session i).used = true)) → False) ∧
    ¬ (∀ (s : State), ∀ (k : Fin 2) (ver : BitVec 8) (role : Role) (ident : List Byte) (key : List Byte) (nonce : List Byte),
        (s.boot ≠ .done ∨ (s.ethPort k.val).up = false) → False) ∧
    ¬ (∀ (s : State), ∀ (i : Fin 4) (sig : List Byte), (s.session i.val).used = true → (s.session i.val).opened = false →
        (s.ks.lc = 2 ∨ s.ks.lc = 4) → False) ∧
    ¬ (∀ (s : State), ∀ (i : Fin 4) (sig : List Byte) (e : Nat × Nat), (s.session i.val).used = true →
        (s.session i.val).opened = false → s.ks.lc = 3 → s.admission (s.session i.val).ident = some e → e.2 = 3 → False) ∧
    ¬ (∀ (s : State), ∀ (i : Fin 4) (sig : List Byte), (s.session i.val).used = true → (s.session i.val).opened = false →
        s.hc.op.all (fun o => decide (o.sess ≠ i.val)) = true →
        ((s.ks.lc ≠ 2 ∧ s.ks.lc ≠ 3 ∧ s.ks.lc ≠ 4) ∨ (s.ks.lc = 3 ∧ s.admission (s.session i.val).ident = none)) → False) ∧
    ¬ (∀ (s : State), ∀ (i : Fin 4) (sig : List Byte), ((s.session i.val).used = false ∨ (s.session i.val).opened = true) →
        False) ∧
    ¬ (∀ (s : State), ∀ (i : Fin 4), ((s.session i.val).used = false ∨ (s.session i.val).opened = true) → False) ∧
    ¬ (∀ (s : State), ∀ (i : Fin 4), (s.session i.val).opened = false → False) ∧
    ¬ (∀ (s : State), ∀ (i : Fin 4), s.hc.op.all (fun o => decide (o.sess ≠ i.val)) = true → (s.session i.val).used = true →
        (s.session i.val).opened = false → False) ∧
    ¬ (∀ (s : State), ∀ (i : Fin 4), s.hc.op.all (fun o => decide (o.sess ≠ i.val)) = true →
        (s.session i.val).opened = true → False) ∧
    ¬ (∀ (s : State), ∀ (i : Fin 4), s.hc.op.all (fun o => decide (o.sess ≠ i.val)) = true → False) ∧
    ¬ (∀ (s : State), ∀ (i : Fin 4) (seq : Word) (intact : Bool) (tag : BitVec 16) (q : HostReq),
        ((s.session i.val).opened = false ∨ s.hc.op.any (fun o => decide (o.sess = i.val) && o.wait.isSome) = true) → False) ∧
    ¬ (∀ (s : State), ∀ (i : Fin 4) (seq : Word) (tag : BitVec 16) (q : HostReq), (s.session i.val).opened = true →
        s.hc.op.all (fun o => decide (o.sess ≠ i.val) || o.wait.isNone) = true → seq = (s.session i.val).rxSeq →
        seq ≠ 0xFFFFFFFF → (s.session i.val).txSeq ≠ 0xFFFFFFFF → False) ∧
    ¬ (∀ (s : State), ∀ (i : Fin 4) (seq : Word) (intact : Bool) (tag : BitVec 16) (q : HostReq),
        (s.session i.val).opened = true → s.hc.op.all (fun o => decide (o.sess ≠ i.val)) = true →
        (intact = false ∨ seq ≠ (s.session i.val).rxSeq ∨ seq = 0xFFFFFFFF ∨ (s.session i.val).txSeq = 0xFFFFFFFF) → False) :=
  ⟨fun h => h (st 0) (0) (by decide),
   fun h => h (st 0) (1) (by decide) (by decide),
   fun h => h (st 0) (0) (true) (by decide),
   fun h => h (st 0) (1) (0x00000000#32) (by decide),
   fun h => h (st 0) (1) (0x00000000#32) (by decide),
   fun h => h (st 0) (0) (0x00000000#32) (by decide) (by decide),
   fun h => h (st 0) (0) (0x00000000#32) (by decide) (by decide) (by decide),
   fun h => h (st 0) (0) (Sys2Proof.Role.read) ([]) ([]) ([]) (by decide) (by decide) (by decide),
   fun h => h (st 0) (0) (0x00#8) (Sys2Proof.Role.read) ([]) ([]) ([]) (by decide) (by decide) (by decide),
   fun h => h (st 0) (1) (0x00#8) (Sys2Proof.Role.read) ([]) ([]) ([]) (by decide),
   fun h => h (st 1) (2) ([]) (by decide) (by decide) (by decide),
   fun h => h admState 2 [] (8, 3) (by decide) (by decide) (by decide) adm_found rfl,
   fun h => h (st 0) (2) ([]) (by decide) (by decide) (by decide) (by decide),
   fun h => h (st 0) (0) ([]) (by decide),
   fun h => h (st 0) (0) (by decide),
   fun h => h (st 0) (0) (by decide),
   fun h => h (st 0) (2) (by decide) (by decide) (by decide),
   fun h => h (st 0) (1) (by decide) (by decide),
   fun h => h (st 0) (0) (by decide),
   fun h => h (st 0) (0) (0x00000000#32) (true) (0x0001#16) (Sys2Proof.HostReq.ping) (by decide),
   fun h => h (st 0) (1) (0x00000000#32) (0x0001#16) (Sys2Proof.HostReq.ping) (by decide) (by decide) (by decide) (by decide)
       (by decide),
   fun h => h (st 0) (1) (0x00000000#32) (false) (0x0001#16) (Sys2Proof.HostReq.ping) (by decide) (by decide) (by decide)⟩

theorem witness_HostAnswers :
    ¬ (∀ (s : State) (c : Instr) (i : Fin 4) (tag : BitVec 16) (q : HostReq), requestOf c = some (i, tag, q) →
        (s.session i.val).opened = false → False) ∧
    ¬ (∀ (s : State) (c : Instr) (i : Fin 4) (tag : BitVec 16) (q : HostReq), requestOf c = some (i, tag, q) →
        s.hc.op.any (fun o => decide (o.sess = i.val) && o.wait.isSome) = true → False) ∧
    ¬ (∀ (s : State) (c : Instr) (i : Fin 4) (tag : BitVec 16) (q : HostReq), requestOf c = some (i, tag, q) →
        ∀ (o : LongOp), (s.session i.val).opened = true → s.hc.op = some o →
        (o.sess ≠ i.val ∨ (o.wait = none ∧ ((q ≠ .opcancel ∧ (∀ bs, q ≠ .opdata bs) ∧ (∀ len d, q ≠ .opend len d)) ∨ (o.phase ≠ 1 ∧ o.cmd ≠ 0x16)))) →
        False) ∧
    ¬ (∀ (s : State) (c : Instr) (i : Fin 4) (tag : BitVec 16) (q : HostReq), requestOf c = some (i, tag, q) →
        (s.session i.val).opened = true → s.hc.op = none → s.boot ≠ .done → bootReq q = false → False) ∧
    ¬ (∀ (s : State) (c : Instr) (i : Fin 4) (tag : BitVec 16) (q : HostReq), requestOf c = some (i, tag, q) →
        (s.session i.val).opened = true → s.hc.op = none → s.boot = .done → malformed q = true → False) ∧
    ¬ (∀ (s : State) (c : Instr) (i : Fin 4) (tag : BitVec 16) (q : HostReq), requestOf c = some (i, tag, q) →
        (s.session i.val).opened = true → s.hc.op = none → s.boot = .done → malformed q = false →
        roleCode (s.session i.val).role < reqRole q → False) ∧
    ¬ (∀ (s : State) (c : Instr) (i : Fin 4) (tag : BitVec 16) (q : HostReq), requestOf c = some (i, tag, q) →
        (s.session i.val).opened = true → s.hc.op = none → s.boot = .done → malformed q = false → 0 < reqRole q →
        reqRole q ≤ roleCode (s.session i.val).role → s.ks.lc ≠ 2 → s.ks.lc ≠ 3 → False) :=
  ⟨fun h => h (st 0) (Sys2Proof.Instr.ping 0 0x0001#16) (0) (0x0001#16) (Sys2Proof.HostReq.ping) (by decide) (by decide),
   fun h => h (st 12) (Sys2Proof.Instr.ping 1 0x0001#16) (1) (0x0001#16) (Sys2Proof.HostReq.ping) (by decide) (by decide),
   fun h => h (st 14) (.ping 1 1) 1 1 .ping rfl (op1 0x10 1 none)
       (by decide) rfl (Or.inr ⟨rfl, Or.inl ⟨nofun, nofun, nofun⟩⟩),
   fun h => h (st 6) (Sys2Proof.Instr.memtest 1 0x0001#16) (1) (0x0001#16) (Sys2Proof.HostReq.memtest) (by decide)
       (by decide) (by decide) (by decide) (by decide),
   fun h => h (st 0) (Sys2Proof.Instr.hostRegion 1 0x0001#16 0x00000009#32) (1) (0x0001#16) (Sys2Proof.HostReq.region 0x00000009#32)
       (by decide) (by decide) (by decide) (by decide) (by decide),
   fun h => h (st 9) (Sys2Proof.Instr.memtest 1 0x0001#16) (1) (0x0001#16) (Sys2Proof.HostReq.memtest) (by decide)
       (by decide) (by decide) (by decide) (by decide) (by decide),
   fun h => h (st 7) (Sys2Proof.Instr.memtest 1 0x0001#16) (1) (0x0001#16) (Sys2Proof.HostReq.memtest) (by decide)
       (by decide) (by decide) (by decide) (by decide) (by decide) (by decide) (by decide) (by decide)⟩

theorem witness_HostOperations :
    ¬ (∀ (s : State) (i : Fin 4) (tag : BitVec 16), s.serves i.val → s.ks.lc = 3 → False) ∧
    ¬ (∀ (s : State) (i : Fin 4) (tag : BitVec 16), s.serves i.val → s.ks.lc = 3 → ∀ n : Word, n.toNat < 4 → False) ∧
    ¬ (∀ (s : State) (i : Fin 4) (tag : BitVec 16), s.serves i.val → s.ks.lc = 3 → ∀ n : Word, 4 ≤ n.toNat → False) ∧
    ¬ (∀ (s : State) (i : Fin 4) (tag : BitVec 16), s.serves i.val → s.ks.lc = 3 → ∀ a : Addr, place a.toNat = .word →
        False) ∧
    ¬ (∀ (s : State) (i : Fin 4) (tag : BitVec 16), s.serves i.val → s.ks.lc = 3 → ∀ (v : Word),
        (wordAt s.ks.policy 1).getLsbD 1 = false → False) ∧
    ¬ (∀ (s : State) (i : Fin 4) (tag : BitVec 16), s.serves i.val → s.ks.lc = 3 → ∀ (a : Addr) (v : Word),
        place a.toNat = .word → (wordAt s.ks.policy 1).getLsbD 1 = false → False) ∧
    ¬ (∀ (s : State) (i : Fin 4) (tag : BitVec 16), s.serves i.val → s.ks.lc = 3 → ∀ (m : HostMove),
        (wordAt s.ks.policy 1).getLsbD 1 = true → readsOnly [m] = false → malformed (.moves [m]) = false → False) ∧
    ¬ (∀ (s : State) (i : Fin 4) (tag : BitVec 16), s.serves i.val → s.ks.lc = 3 → ∀ (f : Bool), s.mstate = .stop → False) ∧
    ¬ (∀ (s : State) (i : Fin 4) (tag : BitVec 16), s.serves i.val → s.ks.lc = 3 → ∀ (f : Bool), s.mstate ≠ .stop → False) ∧
    ¬ (∀ (s : State) (i : Fin 4) (tag : BitVec 16), s.serves i.val → s.ks.lc = 3 → ∀ (n : Word) (keep : Bool) (f : Bool),
        n.toNat < 4 → s.exchangeRefusal n.toNat = 0 → False) ∧
    ¬ (∀ (s : State) (i : Fin 4) (tag : BitVec 16), s.serves i.val → s.ks.lc = 3 → ∀ (n : Word) (keep : Bool) (f : Bool),
        n.toNat < 4 → s.exchangeRefusal n.toNat ≠ 0 → False) ∧
    ¬ (∀ (s : State) (i : Fin 4) (tag : BitVec 16), s.serves i.val → s.ks.lc = 3 → ∀ (n : Word) (keep : Bool) (f : Bool),
        4 ≤ n.toNat → False) ∧
    ¬ (∀ (s : State) (i : Fin 4) (tag : BitVec 16), s.serves i.val → s.ks.lc = 3 →
        ∀ (n : Word) (split : Bool) (runOdd : Bool), 4 ≤ n.toNat → False) ∧
    ¬ (∀ (s : State) (i : Fin 4) (tag : BitVec 16), s.serves i.val → s.ks.lc = 3 → ∀ (n : Word) (runOdd : Bool),
        n.toNat < 4 → s.coverRefusal n.toNat false = 0 → s.atBoundary n.toNat = false → False) ∧
    ¬ (∀ (s : State) (i : Fin 4) (tag : BitVec 16), s.serves i.val → s.ks.lc = 3 → ∀ (n : Word) (runOdd : Bool),
        n.toNat < 4 → s.coverRefusal n.toNat true = 0 → s.atBoundary n.toNat = false → False) ∧
    ¬ (∀ (s : State) (i : Fin 4) (tag : BitVec 16), s.serves i.val → s.ks.lc = 3 →
        ∀ (n : Word) (split : Bool) (runOdd : Bool), n.toNat < 4 → s.coverRefusal n.toNat split ≠ 0 → False) ∧
    ¬ (∀ (s : State) (i : Fin 4) (tag : BitVec 16), s.serves i.val → s.ks.lc = 3 → False) ∧
    ¬ (∀ (s : State) (i : Fin 4) (tag : BitVec 16), s.serves i.val → s.ks.lc = 3 → ∀ (tok : List Byte), tok ≠ s.recToken →
        False) ∧
    ¬ (∀ (s : State) (i : Fin 4) (tag : BitVec 16), s.serves i.val → s.ks.lc = 3 → ∀ (bs : List Byte), False) :=
  ⟨fun h => h (st 0) (1) (0x0001#16) (by unfold State.serves; decide) (by decide),
   fun h => h (st 0) (1) (0x0001#16) (by unfold State.serves; decide) (by decide) (0x00000000#32) (by decide),
   fun h => h (st 0) (1) (0x0001#16) (by unfold State.serves; decide) (by decide) (0xffffffff#32) (by decide),
   fun h => h (st 0) (1) (0x0001#16) (by unfold State.serves; decide) (by decide) (0x200000#22) (by decide),
   fun h => h (st 11) (1) (0x0001#16) (by unfold State.serves; decide) (by decide) (0x00000000#32) (by decide),
   fun h => h (st 11) (1) (0x0001#16) (by unfold State.serves; decide) (by decide) (0x200000#22) (0x00000000#32) (by decide)
       (by decide),
   fun h => h (st 0) (1) (0x0001#16) (by unfold State.serves; decide)
       (by decide) (Sys2Proof.HostMove.lit 0x00000005#32 0x000b40#22) (by decide) (by decide) (by decide),
   fun h => h (st 0) 1 0 (by unfold State.serves; decide) (by decide) false (mstate_stop _ rfl rfl (by decide)),
   fun h => h (st 4) (1) (0x0001#16) (by unfold State.serves; decide) (by decide) (true) (by decide),
   fun h => h (st 4) (1) (0x0001#16) (by unfold State.serves; decide) (by decide) (0x00000000#32) (true) (true) (by decide)
       (by decide),
   fun h => h (st 0) (1) (0x0001#16) (by unfold State.serves; decide) (by decide) (0x00000000#32) (true) (true) (by decide)
       (by decide),
   fun h => h (st 0) (1) (0x0001#16) (by unfold State.serves; decide) (by decide) (0xffffffff#32) (true) (true) (by decide),
   fun h => h (st 0) (1) (0x0001#16) (by unfold State.serves; decide) (by decide) (0xffffffff#32) (true) (true) (by decide),
   fun h => h (st 10) (1) (0x0001#16) (by unfold State.serves; decide) (by decide) (0x00000000#32) (true) (by decide)
       (by decide) (by decide),
   fun h => h (st 4) (1) (0x0001#16) (by unfold State.serves; decide) (by decide) (0x00000000#32) (true) (by decide)
       (by decide) (by decide),
   fun h => h (st 0) (1) (0x0001#16) (by unfold State.serves; decide) (by decide) (0x00000000#32) (true) (true) (by decide)
       (by decide),
   fun h => h (st 0) (1) (0x0001#16) (by unfold State.serves; decide) (by decide),
   fun h => h (st 0) 1 0 (by unfold State.serves; decide)
       (by decide) (0 :: (st 0).recToken) (fun e => by simpa using congrArg List.length e),
   fun h => h (st 0) (1) (0x0001#16) (by unfold State.serves; decide) (by decide) ([])⟩

theorem witness_HostTransfers :
    ¬ (∀ (s : State) (i : Fin 4) (tag : BitVec 16) (o : LongOp), (s.session i.val).opened = true → s.hc.op = some o →
        o.sess = i.val → ∀ (bs : List Byte), o.wait = none → o.phase = 1 → o.cmd = 0x10 → bs.length ≤ 16376 →
        o.bytes.length + bs.length ≤ 25165824 → False) ∧
    ¬ (∀ (s : State) (i : Fin 4) (tag : BitVec 16) (o : LongOp), (s.session i.val).opened = true → s.hc.op = some o →
        o.sess = i.val → o.wait = none → o.phase = 1 → o.cmd = 0x10 → False) ∧
    ¬ (∀ (s : State) (i : Fin 4) (tag : BitVec 16) (o : LongOp), (s.session i.val).opened = true → s.hc.op = some o →
        o.sess = i.val → ∀ (len : Nat) (d : List Byte), o.wait = none → o.phase = 1 → o.cmd = 0x10 → len ≠ o.bytes.length →
        False) ∧
    ¬ (∀ (s : State) (i : Fin 4) (tag : BitVec 16) (o : LongOp), (s.session i.val).opened = true → s.hc.op = some o →
        o.sess = i.val → ∀ (w : BitVec 16 × BitVec 16), o.wait = some w → o.cmd = 0x15 → ∀ (found : Nat), False) ∧
    ¬ (∀ (s : State) (i : Fin 4) (tag : BitVec 16) (o : LongOp), (s.session i.val).opened = true → s.hc.op = some o →
        o.sess = i.val → ∀ (w : BitVec 16 × BitVec 16), o.wait = some w → o.cmd = 0x14 → ∀ (found : Nat), False) ∧
    ¬ (∀ (s : State) (i : Fin 4) (tag : BitVec 16) (o : LongOp), (s.session i.val).opened = true → s.hc.op = some o →
        o.sess = i.val → ∀ (w : BitVec 16 × BitVec 16), o.wait = some w → o.cmd = 0x10 → o.phase = 2 →
        s.imageCause o.bytes ≠ 0 → False) ∧
    (∀ img : List Byte, (loadState img).imageCause img = 0 → ¬ (∀ (s : State) (i : Fin 4) (tag : BitVec 16) (o : LongOp),
        (s.session i.val).opened = true → s.hc.op = some o → o.sess = i.val → ∀ (w : BitVec 16 × BitVec 16),
        o.wait = some w → o.cmd = 0x10 → o.phase = 2 → s.imageCause o.bytes = 0 → s.mstate = .stop →
        (s.forced = false ∨ o.forceclr = true) → False)) ∧
    (∀ img : List Byte, (loadedState img).imageCause img = 0 → ¬ (∀ (s : State) (i : Fin 4) (tag : BitVec 16) (o : LongOp),
        (s.session i.val).opened = true → s.hc.op = some o → o.sess = i.val → ∀ (w : BitVec 16 × BitVec 16),
        o.wait = some w → o.cmd = 0x10 → o.phase = 2 → s.imageCause o.bytes = 0 →
        ((s.forced = true ∧ o.forceclr = false) ∨ s.mstate ≠ .stop) → False)) ∧
    ¬ (∀ (s : State) (i : Fin 4) (tag : BitVec 16) (o : LongOp), (s.session i.val).opened = true → s.hc.op = some o →
        o.sess = i.val → (o.cmd ≠ 0x10 ∨ o.phase ≠ 2) → False) ∧
    ¬ (∀ (s : State) (i : Fin 4) (tag : BitVec 16) (o : LongOp), (s.session i.val).opened = true → s.hc.op = some o →
        o.sess = i.val → (o.cmd = 0x10 ∨ o.cmd = 0x11 ∨ o.cmd = 0x12 ∨ o.cmd = 0x16) → o.kg = none → ∀ (found : Nat), False) ∧
    ¬ (∀ (s : State) (i : Fin 4) (tag : BitVec 16) (o : LongOp), (s.session i.val).opened = true → s.hc.op = some o →
        o.sess = i.val → ∀ (bs : List Byte), o.wait = none → o.phase = 1 → o.cmd = 0x11 → bs.length ≤ 16376 →
        o.bytes.length + bs.length ≤ 25165824 → False) ∧
    ¬ (∀ (s : State) (i : Fin 4) (tag : BitVec 16) (o : LongOp), (s.session i.val).opened = true → s.hc.op = some o →
        o.sess = i.val → ∀ (bs : List Byte), o.wait = none → o.phase = 1 → o.cmd = 0x12 → bs.length ≤ 16376 →
        o.bytes.length + bs.length ≤ 192 + 2031360 → False) ∧
    ¬ (∀ (s : State) (i : Fin 4) (tag : BitVec 16) (o : LongOp), (s.session i.val).opened = true → s.hc.op = some o →
        o.sess = i.val → o.wait = none → o.phase = 1 → o.cmd = 0x11 → False) ∧
    ¬ (∀ (s : State) (i : Fin 4) (tag : BitVec 16) (o : LongOp), (s.session i.val).opened = true → s.hc.op = some o →
        o.sess = i.val → o.wait = none → o.phase = 1 → o.cmd = 0x12 → o.bytes = [] → o.started = false → s.anyRun = false →
        False) ∧
    ¬ (∀ (s : State) (i : Fin 4) (tag : BitVec 16) (o : LongOp), (s.session i.val).opened = true → s.hc.op = some o →
        o.sess = i.val → o.wait = none → o.phase = 1 → o.cmd = 0x12 → o.bytes ≠ [] → False) ∧
    ¬ (∀ (s : State) (i : Fin 4) (tag : BitVec 16) (o : LongOp), (s.session i.val).opened = true → s.hc.op = some o →
        o.sess = i.val → o.phase ≠ 1 → o.cmd ≠ 0x16 → False) ∧
    ¬ (∀ (s : State) (i : Fin 4) (tag : BitVec 16) (o : LongOp), (s.session i.val).opened = true → s.hc.op = some o →
        o.sess = i.val → s.hc.resetDue = true → s.boot ≠ .running → False) ∧
    ¬ (∀ (s : State) (i : Fin 4) (tag : BitVec 16) (o : LongOp), (s.session i.val).opened = true → s.hc.op = some o →
        o.sess = i.val → s.hc.resetDue = false → False) :=
  ⟨fun h => h (st 14) (1) (0x0001#16) ({ cmd := 0x0010#16, sess := 1, key := [0x01#8, 0x02#8, 0x03#8, 0x04#8], phase := 0x1#2, wait := none, bytes := [0x01#8, 0x02#8], forceclr := false, region := 0, chunk := 0, kg := none, started := false })
      (by decide) (by decide) (by decide) ([]) (by decide) (by decide) (by decide) (by decide) (by decide),
   fun h => h (st 14) (1) (0x0001#16) ({ cmd := 0x0010#16, sess := 1, key := [0x01#8, 0x02#8, 0x03#8, 0x04#8], phase := 0x1#2, wait := none, bytes := [0x01#8, 0x02#8], forceclr := false, region := 0, chunk := 0, kg := none, started := false })
       (by decide) (by decide) (by decide) (by decide) (by decide) (by decide),
   fun h => h (st 14) (1) (0x0001#16) ({ cmd := 0x0010#16, sess := 1, key := [0x01#8, 0x02#8, 0x03#8, 0x04#8], phase := 0x1#2, wait := none, bytes := [0x01#8, 0x02#8], forceclr := false, region := 0, chunk := 0, kg := none, started := false })
       (by decide) (by decide) (by decide) (0) ([]) (by decide) (by decide) (by decide) (by decide),
   fun h => h (st 12) (1) (0x0001#16) ({ cmd := 0x0015#16, sess := 1, key := [0x01#8, 0x02#8, 0x03#8, 0x04#8], phase := 0x3#2, wait := some (0x0015#16, 0x0001#16), bytes := [0x01#8, 0x02#8], forceclr := false, region := 0, chunk := 0, kg := none, started := false })
       (by decide) (by decide) (by decide) ((0x0015#16, 0x0001#16)) (by decide) (by decide) (0),
   fun h => h (st 19) (1) (0x0001#16) ({ cmd := 0x0014#16, sess := 1, key := [0x01#8, 0x02#8, 0x03#8, 0x04#8], phase := 0x3#2, wait := some (0x0014#16, 0x0001#16), bytes := [0x01#8, 0x02#8], forceclr := false, region := 0, chunk := 0, kg := none, started := false })
       (by decide) (by decide) (by decide) ((0x0014#16, 0x0001#16)) (by decide) (by decide) (0),
   fun h => h (st 20) (1) (0x0001#16) ({ cmd := 0x0010#16, sess := 1, key := [0x01#8, 0x02#8, 0x03#8, 0x04#8], phase := 0x2#2, wait := some (0x0021#16, 0x0001#16), bytes := [0x01#8, 0x02#8], forceclr := false, region := 0, chunk := 0, kg := none, started := false })
       (by decide) (by decide) (by decide) ((0x0021#16, 0x0001#16)) (by decide) (by decide) (by decide) (by decide),
   fun img e h => h (loadState img) 1 0 (loadOp img) rfl rfl rfl (0x21, 1) rfl rfl rfl e (mstate_stop _ rfl rfl (fun p hp =>
       (by decide : ∀ p, p < 8 → ((stopped (hs none 3)).lp p).st ≠ .run) p hp)) (Or.inl rfl),
   fun img e h => h (loadedState img) 1 0 (loadOp img) rfl rfl rfl (0x21, 1) rfl rfl rfl e (Or.inl ⟨rfl, rfl⟩),
   fun h => h (st 12) (1) (0x0001#16) ({ cmd := 0x0015#16, sess := 1, key := [0x01#8, 0x02#8, 0x03#8, 0x04#8], phase := 0x3#2, wait := some (0x0015#16, 0x0001#16), bytes := [0x01#8, 0x02#8], forceclr := false, region := 0, chunk := 0, kg := none, started := false })
       (by decide) (by decide) (by decide) (by decide),
   fun h => h (st 14) (1) (0x0001#16) ({ cmd := 0x0010#16, sess := 1, key := [0x01#8, 0x02#8, 0x03#8, 0x04#8], phase := 0x1#2, wait := none, bytes := [0x01#8, 0x02#8], forceclr := false, region := 0, chunk := 0, kg := none, started := false })
       (by decide) (by decide) (by decide) (by decide) (by decide) (0),
   fun h => h (st 15) (1) (0x0001#16) ({ cmd := 0x0011#16, sess := 1, key := [0x01#8, 0x02#8, 0x03#8, 0x04#8], phase := 0x1#2, wait := none, bytes := [0x01#8, 0x02#8], forceclr := false, region := 0, chunk := 0, kg := none, started := false })
       (by decide) (by decide) (by decide) ([]) (by decide) (by decide) (by decide) (by decide) (by decide),
   fun h => h (st 16) (1) (0x0001#16) ({ cmd := 0x0012#16, sess := 1, key := [0x01#8, 0x02#8, 0x03#8, 0x04#8], phase := 0x1#2, wait := none, bytes := [0x01#8, 0x02#8], forceclr := false, region := 0, chunk := 0, kg := none, started := false })
       (by decide) (by decide) (by decide) ([]) (by decide) (by decide) (by decide) (by decide) (by decide),
   fun h => h (st 15) (1) (0x0001#16) ({ cmd := 0x0011#16, sess := 1, key := [0x01#8, 0x02#8, 0x03#8, 0x04#8], phase := 0x1#2, wait := none, bytes := [0x01#8, 0x02#8], forceclr := false, region := 0, chunk := 0, kg := none, started := false })
       (by decide) (by decide) (by decide) (by decide) (by decide) (by decide),
   fun h => h (st 17) (1) (0x0001#16) ({ cmd := 0x0012#16, sess := 1, key := [0x01#8, 0x02#8, 0x03#8, 0x04#8], phase := 0x1#2, wait := none, bytes := [], forceclr := false, region := 0, chunk := 0, kg := none, started := false })
       (by decide) (by decide) (by decide) (by decide) (by decide) (by decide) (by decide) (by decide) (anyRun_none _
       (by decide)),
   fun h => h (st 16) (1) (0x0001#16) ({ cmd := 0x0012#16, sess := 1, key := [0x01#8, 0x02#8, 0x03#8, 0x04#8], phase := 0x1#2, wait := none, bytes := [0x01#8, 0x02#8], forceclr := false, region := 0, chunk := 0, kg := none, started := false })
       (by decide) (by decide) (by decide) (by decide) (by decide) (by decide) (by decide),
   fun h => h (st 12) (1) (0x0001#16) ({ cmd := 0x0015#16, sess := 1, key := [0x01#8, 0x02#8, 0x03#8, 0x04#8], phase := 0x3#2, wait := some (0x0015#16, 0x0001#16), bytes := [0x01#8, 0x02#8], forceclr := false, region := 0, chunk := 0, kg := none, started := false })
       (by decide) (by decide) (by decide) (by decide) (by decide),
   fun h => h (st 14) (1) (0x0001#16) ({ cmd := 0x0010#16, sess := 1, key := [0x01#8, 0x02#8, 0x03#8, 0x04#8], phase := 0x1#2, wait := none, bytes := [0x01#8, 0x02#8], forceclr := false, region := 0, chunk := 0, kg := none, started := false })
       (by decide) (by decide) (by decide) (by decide) (by decide),
   fun h => h (st 12) (1) (0x0001#16) ({ cmd := 0x0015#16, sess := 1, key := [0x01#8, 0x02#8, 0x03#8, 0x04#8], phase := 0x3#2, wait := some (0x0015#16, 0x0001#16), bytes := [0x01#8, 0x02#8], forceclr := false, region := 0, chunk := 0, kg := none, started := false })
       (by decide) (by decide) (by decide) (by decide)⟩

end Sys2Proof.Tests.Hosts

namespace Sys2Proof.Tests.Keys

open Sys2Proof Sys2Proof.Machine Sys2Proof.Tests

def a0 : Word := 0xFFFFFF8C
def slots : SMap Slot := [(0, {attr0 := 0x9910018C, attr1 := 0xF0000000, key := [9]}),
    (3, {attr0 := 0xA4100108, attr1 := 0x20000000, key := [1]}),
    (30, {attr0 := 0x9FFFFF8C, attr1 := 0xF8000000, key := [7]}),
    (31, {attr0 := 0xBFFFFF8C, attr1 := 0xF8000000, key := [7]}),
    (32, {attr0 := 0xCFFFFF8C, attr1 := 0x20000000, key := [7]}),
    (33, {attr0 := 0xBFFFFFFC, attr1 := 0xF8009F10, key := [7]}),
    (34, {attr0 := 0xAFFFFFFC, attr1 := 0x08000000, key := [7]})]
def mp (sl sl2 : Word) : SMap Word := [1,2,3,10,11].flatMap fun k => [(4096*k+0xAC0, sl), (4096*k+0xAC2, sl2),
    (4096*k+0xAC3, 30), (4096*k+0xAC4, 63), (4096*k+0xAC8, 0xBFF0010C), (4096*k+0xAC9, 0x20000000)]
def mp4 (sl sl2 : Word) : SMap Word := [1,2,3,10,11].flatMap fun k => [(4096*k+0xAC0, sl), (4096*k+0xAC2, sl2),
    (4096*k+0xAC3, 30), (4096*k+0xAC4, 63), (4096*k+0xAC8, 0xCFF00104), (4096*k+0xAC9, 0x20000000)]
def sess : SMap Session := [(1, {used := true, opened := true, role := .owner, ident := [1,2,3,4], txSeq := 4, rxSeq := 0})]
def ks0 (sl sl2 : Word) (lc : BitVec 8) : State := { s0 with mports := mp sl sl2, ks := { slots := slots, lc := lc, policy := [1] }, hc := {sess := sess}, lps := [(0, {st := .run})], mram := {bankA := [1]} }
def qo (c : BitVec 8) : KsOp := { who := 1, code := c, slot := 31, slot2 := 40, len := 30, attr0 := 0, attr1 := 0, input := [], gone := false }
def states : List State :=
  [ ks0 30 40 3, ks0 31 40 3, ks0 32 40 3, ks0 33 40 3, {ks0 33 40 3 with mports := mp4 33 40},
      ks0 31 31 3, ks0 50 31 3, ks0 30 40 2, ks0 30 40 5, {ks0 31 40 3 with ks := { slots := slots, lc := 3, queue := [qo 13, qo 2] } },
      {ks0 31 40 3 with ks := { slots := slots, lc := 3, queue := [{qo 13 with gone := true}, qo 2] } },
      {ks0 31 40 3 with ks := { slots := slots, lc := 3, pendTo := some 4 } },
      {ks0 31 40 3 with ks := { slots := [(40, {attr0 := 0x80000000, key := [7]})], lc := 3, pendTo := some 4 } } ]
def st (n : Nat) : State := states.getD n State.reset
theorem kg_release : (st 0).kgRefusal (.release ((st 0).confirm 6)) = none := by
  show (if (st 0).confirm 6 = (st 0).confirm 6 then none else _) = none
  exact if_pos rfl
theorem kg_decommission : (st 0).kgRefusal (.decommission ((st 0).confirm 7)) = none := by
  show (if (st 0).confirm 7 = (st 0).confirm 7 then none else _) = none
  exact if_pos rfl
/-- An owner's session in lifecycle state lc, with K1 to K3. -/
def owned (lc : BitVec 8) : State :=
  { ks0 30 40 lc with ks := { slots := [(1, {attr0 := 0xA4100000, key := [5]}), (2, {attr0 := 0xA4100000, key := [6]}), (3, {attr0 := 0xA4100108, key := [1]})], lc := lc } }

theorem witness_KeyOperations :
    ¬ (∀ (s : State) (m : Master), s.lets m 0xAC1 → False) ∧
    ¬ (∀ (s : State) (m : Master), s.lets m 0xAC1 → let o := fun (c : KsCode) => s.ksOpOf m c.code;
        let short := fun (c : KsCode) => c.limit.all (fun n => decide ((o c).len ≤ n)) = true;
        let ok := fun (c : KsCode) => s.ks.queue = [] ∧ s.ksCheck (o c) c = none ∧ short c; ok .info → False) ∧
    ¬ (∀ (s : State) (m : Master), s.lets m 0xAC1 → let o := fun (c : KsCode) => s.ksOpOf m c.code;
        let short := fun (c : KsCode) => c.limit.all (fun n => decide ((o c).len ≤ n)) = true;
        let ok := fun (c : KsCode) => s.ks.queue = [] ∧ s.ksCheck (o c) c = none ∧ short c; ok .sign → False) ∧
    ¬ (∀ (s : State) (m : Master), s.lets m 0xAC1 → let o := fun (c : KsCode) => s.ksOpOf m c.code;
        let short := fun (c : KsCode) => c.limit.all (fun n => decide ((o c).len ≤ n)) = true;
        let ok := fun (c : KsCode) => s.ks.queue = [] ∧ s.ksCheck (o c) c = none ∧ short c; ok .verify → False) ∧
    ¬ (∀ (s : State) (m : Master), s.lets m 0xAC1 → let o := fun (c : KsCode) => s.ksOpOf m c.code;
        let short := fun (c : KsCode) => c.limit.all (fun n => decide ((o c).len ≤ n)) = true;
        let ok := fun (c : KsCode) => s.ks.queue = [] ∧ s.ksCheck (o c) c = none ∧ short c; ok .readpub → False) ∧
    ¬ (∀ (s : State) (m : Master), s.lets m 0xAC1 → let o := fun (c : KsCode) => s.ksOpOf m c.code;
        let short := fun (c : KsCode) => c.limit.all (fun n => decide ((o c).len ≤ n)) = true;
        let ok := fun (c : KsCode) => s.ks.queue = [] ∧ s.ksCheck (o c) c = none ∧ short c; ok .encrypt → False) ∧
    ¬ (∀ (s : State) (m : Master), s.lets m 0xAC1 → let o := fun (c : KsCode) => s.ksOpOf m c.code;
        let short := fun (c : KsCode) => c.limit.all (fun n => decide ((o c).len ≤ n)) = true;
        let ok := fun (c : KsCode) => s.ks.queue = [] ∧ s.ksCheck (o c) c = none ∧ short c; ok .decrypt → False) ∧
    ¬ (∀ (s : State) (m : Master), s.lets m 0xAC1 → let o := fun (c : KsCode) => s.ksOpOf m c.code;
        let short := fun (c : KsCode) => c.limit.all (fun n => decide ((o c).len ≤ n)) = true;
        let ok := fun (c : KsCode) => s.ks.queue = [] ∧ s.ksCheck (o c) c = none ∧ short c; ok .mac → False) ∧
    ¬ (∀ (s : State) (m : Master), s.lets m 0xAC1 → let o := fun (c : KsCode) => s.ksOpOf m c.code;
        let short := fun (c : KsCode) => c.limit.all (fun n => decide ((o c).len ≤ n)) = true;
        let ok := fun (c : KsCode) => s.ks.queue = [] ∧ s.ksCheck (o c) c = none ∧ short c; ok .attest → False) ∧
    ¬ (∀ (s : State) (m : Master), s.lets m 0xAC1 → let o := fun (c : KsCode) => s.ksOpOf m c.code;
        let short := fun (c : KsCode) => c.limit.all (fun n => decide ((o c).len ≤ n)) = true;
        let ok := fun (c : KsCode) => s.ks.queue = [] ∧ s.ksCheck (o c) c = none ∧ short c; ok .hash → False) ∧
    ¬ (∀ (s : State) (m : Master), s.lets m 0xAC1 → let o := fun (c : KsCode) => s.ksOpOf m c.code;
        let short := fun (c : KsCode) => c.limit.all (fun n => decide ((o c).len ≤ n)) = true;
        let ok := fun (c : KsCode) => s.ks.queue = [] ∧ s.ksCheck (o c) c = none ∧ short c; ok .destroy → False) ∧
    ¬ (∀ (s : State) (m : Master), s.lets m 0xAC1 → let w := m.code; let o := fun (c : KsCode) => s.ksOpOf m c.code;
        let short := fun (c : KsCode) => c.limit.all (fun n => decide ((o c).len ≤ n)) = true;
        let ok := fun (c : KsCode) => s.ks.queue = [] ∧ s.ksCheck (o c) c = none ∧ short c;
        let made := fun (c : KsCode) (par : Option Slot) => s.attrsOk w (o c).attr0 (o c).attr1 par = true ∧ makesKey (o c).attr0 = true;
        ok .generate → made .generate none → False) ∧
    ¬ (∀ (s : State) (m : Master), s.lets m 0xAC1 → let w := m.code; let o := fun (c : KsCode) => s.ksOpOf m c.code;
        let short := fun (c : KsCode) => c.limit.all (fun n => decide ((o c).len ≤ n)) = true;
        let ok := fun (c : KsCode) => s.ks.queue = [] ∧ s.ksCheck (o c) c = none ∧ short c;
        let made := fun (c : KsCode) (par : Option Slot) => s.attrsOk w (o c).attr0 (o c).attr1 par = true ∧ makesKey (o c).attr0 = true;
        ok .generate → ¬ made .generate none → False) ∧
    ¬ (∀ (s : State) (m : Master), s.lets m 0xAC1 → let w := m.code; let o := fun (c : KsCode) => s.ksOpOf m c.code;
        let x := s.slot (o .info).slot;
        let short := fun (c : KsCode) => c.limit.all (fun n => decide ((o c).len ≤ n)) = true;
        let ok := fun (c : KsCode) => s.ks.queue = [] ∧ s.ksCheck (o c) c = none ∧ short c;
        let made := fun (c : KsCode) (par : Option Slot) => s.attrsOk w (o c).attr0 (o c).attr1 par = true ∧ makesKey (o c).attr0 = true;
        ok .derive → made .derive (some x) → False) ∧
    ¬ (∀ (s : State) (m : Master), s.lets m 0xAC1 → let w := m.code; let o := fun (c : KsCode) => s.ksOpOf m c.code;
        let x := s.slot (o .info).slot;
        let short := fun (c : KsCode) => c.limit.all (fun n => decide ((o c).len ≤ n)) = true;
        let ok := fun (c : KsCode) => s.ks.queue = [] ∧ s.ksCheck (o c) c = none ∧ short c;
        let made := fun (c : KsCode) (par : Option Slot) => s.attrsOk w (o c).attr0 (o c).attr1 par = true ∧ makesKey (o c).attr0 = true;
        ok .derive → ¬ made .derive (some x) → False) ∧
    (Config.sm2Point (((st 0).ksOpOf .house KsCode.agree.code).field 0 64) = true → ¬ (∀ (s : State) (m : Master),
        s.lets m 0xAC1 → let w := m.code; let o := fun (c : KsCode) => s.ksOpOf m c.code; let x := s.slot (o .info).slot;
        let short := fun (c : KsCode) => c.limit.all (fun n => decide ((o c).len ≤ n)) = true;
        let ok := fun (c : KsCode) => s.ks.queue = [] ∧ s.ksCheck (o c) c = none ∧ short c;
        let made := fun (c : KsCode) (par : Option Slot) => s.attrsOk w (o c).attr0 (o c).attr1 par = true ∧ makesKey (o c).attr0 = true;
        ok .agree → made .agree (some x) → Config.sm2Point ((o .agree).field 0 64) = true → False)) ∧
    (Config.sm2Point (((st 0).ksOpOf .house KsCode.agree.code).field 0 64) = false → ¬ (∀ (s : State) (m : Master),
        s.lets m 0xAC1 → let w := m.code; let o := fun (c : KsCode) => s.ksOpOf m c.code; let x := s.slot (o .info).slot;
        let short := fun (c : KsCode) => c.limit.all (fun n => decide ((o c).len ≤ n)) = true;
        let ok := fun (c : KsCode) => s.ks.queue = [] ∧ s.ksCheck (o c) c = none ∧ short c;
        let made := fun (c : KsCode) (par : Option Slot) => s.attrsOk w (o c).attr0 (o c).attr1 par = true ∧ makesKey (o c).attr0 = true;
        ok .agree → made .agree (some x) → Config.sm2Point ((o .agree).field 0 64) = false → False)) ∧
    ¬ (∀ (s : State) (m : Master), s.lets m 0xAC1 → let w := m.code; let o := fun (c : KsCode) => s.ksOpOf m c.code;
        let x := s.slot (o .info).slot;
        let short := fun (c : KsCode) => c.limit.all (fun n => decide ((o c).len ≤ n)) = true;
        let ok := fun (c : KsCode) => s.ks.queue = [] ∧ s.ksCheck (o c) c = none ∧ short c;
        let made := fun (c : KsCode) (par : Option Slot) => s.attrsOk w (o c).attr0 (o c).attr1 par = true ∧ makesKey (o c).attr0 = true;
        ok .agree → ¬ made .agree (some x) → False) ∧
    ¬ (∀ (s : State) (m : Master) (v : Word), s.lets m 0xAC5 → False) ∧
    ¬ (∀ (s : State) (m : Master) (v : Word), s.lets m 0xAC6 → s.ksBusy m = false → False) ∧
    ¬ (∀ (s : State) (m : Master) (v : Word), s.lets m 0xAC6 → s.ksBusy m = true → False) ∧
    ¬ (∀ (s : State) (m : Master) (v : Word), ∀ (o : KsOp) (q : List KsOp) (rb : Bool), s.ks.queue = o :: q →
        ksCodeOf o.code = some .hash → o.gone = false → o.len ≤ 256 → False) ∧
    ¬ (∀ (s : State) (m : Master) (v : Word), ∀ (o : KsOp) (q : List KsOp) (rb : Bool) (c : KsCode), s.ks.queue = o :: q →
        ksCodeOf o.code = some c → o.gone = true → False) ∧
    ¬ (∀ (s : State) (m : Master) (v : Word), ∀ (rb : Bool), s.ks.queue = [] → False) :=
  ⟨fun h => h (st 0) (Sys2Proof.Master.house) (by unfold State.lets; decide),
   fun h => h (st 0) (Sys2Proof.Master.house) (by unfold State.lets; decide) (by decide),
   fun h => h (st 0) (Sys2Proof.Master.house) (by unfold State.lets; decide) (by decide),
   fun h => h (st 0) (Sys2Proof.Master.house) (by unfold State.lets; decide) (by decide),
   fun h => h (st 0) (Sys2Proof.Master.house) (by unfold State.lets; decide) (by decide),
   fun h => h (st 1) (Sys2Proof.Master.house) (by unfold State.lets; decide) (by decide),
   fun h => h (st 1) (Sys2Proof.Master.house) (by unfold State.lets; decide) (by decide),
   fun h => h (st 2) (Sys2Proof.Master.house) (by unfold State.lets; decide) (by decide),
   fun h => h (st 0) (Sys2Proof.Master.house) (by unfold State.lets; decide) (by decide),
   fun h => h (st 0) (Sys2Proof.Master.house) (by unfold State.lets; decide) (by decide),
   fun h => h (st 0) (Sys2Proof.Master.house) (by unfold State.lets; decide) (by decide),
   fun h => h (st 0) (Sys2Proof.Master.house) (by unfold State.lets; decide) (by decide) (by decide),
   fun h => h (st 0) (Sys2Proof.Master.host) (by unfold State.lets; decide) (by decide) (by decide),
   fun h => h (st 0) (Sys2Proof.Master.house) (by unfold State.lets; decide) (by decide) (by decide),
   fun h => h (st 0) (Sys2Proof.Master.pair) (by unfold State.lets; decide) (by decide) (by decide),
   fun e h => h (st 0) .house (by unfold State.lets; decide) (by decide) (by decide) e,
   fun e h => h (st 0) .house (by unfold State.lets; decide) (by decide) (by decide) e,
   fun h => h (st 0) (Sys2Proof.Master.pair) (by unfold State.lets; decide) (by decide) (by decide),
   fun h => h (st 0) (Sys2Proof.Master.house) (0x00000000#32) (by unfold State.lets; decide),
   fun h => h (st 0) (Sys2Proof.Master.house) (0x00000000#32) (by unfold State.lets; decide) (by decide),
   fun h => h (st 9) (Sys2Proof.Master.house) (0x00000000#32) (by unfold State.lets; decide) (by decide),
   fun h => h (st 9) (Sys2Proof.Master.house) (0x00000000#32) ({ who := 1, code := 0x0d#8, slot := 31, slot2 := 40, len := 30, attr0 := 0x00000000#32, attr1 := 0x00000000#32, input := [], gone := false }) ([{ who := 1, code := 0x02#8, slot := 31, slot2 := 40, len := 30, attr0 := 0x00000000#32, attr1 := 0x00000000#32, input := [], gone := false }]) (false)
       (by decide) (by decide) (by decide) (by decide),
   fun h => h (st 10) (Sys2Proof.Master.house) (0x00000000#32) ({ who := 1, code := 0x0d#8, slot := 31, slot2 := 40, len := 30, attr0 := 0x00000000#32, attr1 := 0x00000000#32, input := [], gone := true }) ([{ who := 1, code := 0x02#8, slot := 31, slot2 := 40, len := 30, attr0 := 0x00000000#32, attr1 := 0x00000000#32, input := [], gone := false }]) (false) (Sys2Proof.Machine.KsCode.hash)
       (by decide) (by decide) (by decide),
   fun h => h (st 0) (Sys2Proof.Master.house) (0x00000000#32) (false) (by decide)⟩

theorem witness_Lifecycle :
    ¬ (∀ (s : State) (i : Fin 4) (tag : BitVec 16), s.serves i.val → ∀ (slot : Fin 64) (a0 : Word) (a1 : Word),
        s.kgRefusal (.generate slot a0 a1) = none → (s.slot slot.val).occ = false → s.ks.fail = false → False) ∧
    (∀ ws : List Word, (owned 3).kgRefusal (.policy ws) = none → ¬ (∀ (s : State) (i : Fin 4) (tag : BitVec 16),
        s.serves i.val → ∀ (ws : List Word), s.kgRefusal (.policy ws) = none → False)) ∧
    ¬ (∀ (s : State) (i : Fin 4) (tag : BitVec 16), s.serves i.val →
        ∀ (slot : Fin 64) (a0 : Word) (a1 : Word) (key : List Byte), s.kgRefusal (.keyImport slot a0 a1 key) = none →
        (s.slot slot.val).occ = false → s.ks.fail = false → False) ∧
    ¬ (∀ (s : State) (i : Fin 4) (tag : BitVec 16), s.serves i.val → ∀ (slot : Fin 64), s.kgRefusal (.destroy slot) = none →
        s.ks.fail = false → (s.slot slot.val).occ = true → False) ∧
    (∀ (code root : List Byte) (policy : List Word), (owned 2).kgRefusal (.claim code root policy) = none →
        ¬ (∀ (s : State) (i : Fin 4) (tag : BitVec 16), s.serves i.val →
        ∀ (code : List Byte) (root : List Byte) (policy : List Word), s.kgRefusal (.claim code root policy) = none → False)) ∧
    ¬ (∀ (s : State) (i : Fin 4) (tag : BitVec 16), s.serves i.val → ∀ (conf : List Byte),
        s.kgRefusal (.release conf) = none → False) ∧
    ¬ (∀ (s : State) (i : Fin 4) (tag : BitVec 16), s.serves i.val → ∀ (conf : List Byte),
        s.kgRefusal (.decommission conf) = none → False) ∧
    (∀ auth : List Word, (owned 3).kgRefusal (.lcReturn auth) = none → ¬ (∀ (s : State) (i : Fin 4) (tag : BitVec 16),
        s.serves i.val → ∀ (auth : List Word), s.kgRefusal (.lcReturn auth) = none → False)) ∧
    (∀ auth : List Word, (owned 5).kgRefusal (.restore auth) = none → ¬ (∀ (s : State) (i : Fin 4) (tag : BitVec 16),
        s.serves i.val → ∀ (auth : List Word), s.kgRefusal (.restore auth) = none → False)) ∧
    ¬ (∀ (s : State) (i : Fin 4) (tag : BitVec 16), s.serves i.val → ∀ (slot : Fin 64) (st : RStat × BitVec 16),
        s.kgRefusal (.destroy slot) = some st → st.2 ≠ 0x201 → False) ∧
    ¬ (∀ (s : State) (i : Fin 4) (tag : BitVec 16), s.serves i.val → s.ks.pendTo = none → ∀ (b : Bool), False) ∧
    ¬ (∀ (s : State) (i : Fin 4) (tag : BitVec 16), s.serves i.val → ∀ (dest : BitVec 8), s.ks.pendTo = some dest →
        s.doomed (s.excluded dest.toNat) ≠ [] → False) :=
  ⟨fun h => h (st 0) (1) (0x0001#16) (by unfold State.serves; decide) (4) (0x00000000#32) (0x00000000#32) (by decide)
      (by decide) (by decide),
   fun ws e h => h (owned 3) 1 0 (by unfold State.serves; decide) ws e,
   fun h => h (st 0) (1) (0x0001#16)
       (by unfold State.serves; decide) (5) (0x00000000#32) (0x00000000#32) ([0x01#8, 0x01#8, 0x01#8, 0x01#8, 0x01#8, 0x01#8, 0x01#8, 0x01#8, 0x01#8, 0x01#8, 0x01#8, 0x01#8, 0x01#8, 0x01#8, 0x01#8, 0x01#8, 0x01#8, 0x01#8, 0x01#8, 0x01#8, 0x01#8, 0x01#8, 0x01#8, 0x01#8, 0x01#8, 0x01#8, 0x01#8, 0x01#8, 0x01#8, 0x01#8, 0x01#8, 0x01#8, 0x01#8, 0x01#8, 0x01#8, 0x01#8, 0x01#8, 0x01#8, 0x01#8, 0x01#8, 0x01#8, 0x01#8, 0x01#8, 0x01#8, 0x01#8, 0x01#8, 0x01#8, 0x01#8, 0x01#8, 0x01#8, 0x01#8, 0x01#8, 0x01#8, 0x01#8, 0x01#8, 0x01#8, 0x01#8, 0x01#8, 0x01#8, 0x01#8, 0x01#8, 0x01#8, 0x01#8, 0x01#8])
       (by decide) (by decide) (by decide),
   fun h => h (st 0) (1) (0x0001#16) (by unfold State.serves; decide) (30) (by decide) (by decide) (by decide),
   fun code root policy e h => h (owned 2) 1 0 (by unfold State.serves; decide) code root policy e,
   fun h => h (st 0) 1 0 (by unfold State.serves; decide) ((st 0).confirm 6) kg_release,
   fun h => h (st 0) 1 0 (by unfold State.serves; decide) ((st 0).confirm 7) kg_decommission,
   fun auth e h => h (owned 3) 1 0 (by unfold State.serves; decide) auth e,
   fun auth e h => h (owned 5) 1 0 (by unfold State.serves; decide) auth e,
   fun h => h (st 7) (1) (0x0001#16) (by unfold State.serves; decide) (4) ((Sys2Proof.Machine.RStat.state, 0x0000#16))
       (by decide) (by decide),
   fun h => h (st 0) (1) (0x0001#16) (by unfold State.serves; decide) (by decide) (false),
   fun h => h (st 11) (1) (0x0001#16) (by unfold State.serves; decide) (0x04#8) (by decide) (by decide)⟩

end Sys2Proof.Tests.Keys

namespace Sys2Proof.Tests.Pairs

open Sys2Proof Sys2Proof.Machine Sys2Proof.Tests

def hb : PairHeartbeat := {role := 1, pstate := 4, mstate := 3, prog := 0, fw := 0, proto := 0}
def ow : SMap Region := [(0, {cov := .paired, owlt := true}), (1, {cov := .paired, owlt := true}),
    (2, {cov := .paired, owlt := true}), (3, {cov := .paired, owlt := true})]
def lp1 : SMap Lp := [(0, {st := .run, phase := .idle}), (2, {st := .run, phase := .exec}), (4, {st := .stop}),
    (6, {st := .halt})]
def ps (p : Pair) : State := { s0 with pl := p, regions := ow, lps := lp1, force := [(1, {addr := 5, val := 1, en := true})], ks := { slots := [(4, {attr0 := 0x80000000}), (5, {attr0 := 0x80000000})] }, prog := { valid := true, sm3 := [] } }
def fitH : BitVec 64 := 0x8000000000000000
def states : List State :=
  [ ps {role := 2, sensed := true, own := false, health := fitH, link := true, lane0 := true, partner := some hb},
      ps {role := 2, sensed := true, own := false, health := 0, link := true, lane0 := true, partner := some hb, ps := .sync},
 ps {role := 2, sensed := false, health := fitH, link := true, lane0 := true, partner := some hb, ps := .sync},
     ps {role := 0, waitRun := some (1, false), lane0 := true, ps := .sync},
     ps {role := 2, waitRun := some (1, false), lastRel := some 1, sensed := true},
     ps {role := 1, own := true, link := true, phealth := fitH, phealthAt := some 0},
     ps {role := 1, own := true, link := true, partner := some hb, sensed := true},
 ps {role := 2, relPend := true, joining := true, link := true, ps := .syncing},
     ps {role := 2, joining := true, link := true, ps := .catchup, joinReady := true},
     ps {role := 2, joining := true, link := true, ps := .catchup},
     ps {role := 1, joining := true, hold := true, link := true}, ps {role := 1, joining := true, link := true},
 ps {role := 2, ps := .sync, ownSigs := [(0, 1, 1)], link := true},
     ps {role := 2, ps := .sync, ownSigs := [(1, 1, 1)], link := true},  ps {role := 0},
     {ps {role := 1, joining := true, hold := true, link := true} with lps := []},
     ps {role := 2, link := true, ps := .ready, sensed := true, own := false},
     ps {role := 2, link := true, ps := .unsync, sensed := true, own := false, rxSeq := some 4, autoDue := true, joining := true},
     ps {role := 2, link := true, ps := .sync, rxSeq := some 1, ownSigs := [(0, 1, 5)]},
     ps {role := 1, own := true, link := true, joining := true, joinReady := true, rounds := 16, partner := some hb},
     ps {role := 1, own := true, link := true, joining := true, hold := true, switching := true, rounds := 16},
     ps {role := 2, link := true, joining := true, ps := .catchup, rounds := 16},
     ps {role := 2, link := true, joining := true, ps := .ready},
     ps {role := 0, own := true, sensed := true, phealth := fitH, phealthAt := some 0},
     ps {role := 1, own := true, sensed := true},
     {ps {role := 2, link := true, ps := .sync} with regions := [(0, {cov := .paired, errs := [(1,2,false),(3,4,true)]})], wlog := [(0, 900000*86400)], mram := {log := [{runs := []}]}},
     {ps {role := 0, waitRun := some (1, false), lane0 := true, waitAt := 0} with time := 12*20000000},
     {ps {role := 0, lane0 := true} with wlog := [(0, 900000*86400)]},
     {ps {role := 1, own := true, link := true, joining := true, hold := true, switching := true, rounds := 16} with lps := []},
     ps {role := 2, link := true, ps := .unsync, health := fitH, osigN := 3} ]
def st (n : Nat) : State := states.getD n State.reset
theorem owls_ok (s : State) (h : ∀ r, r < 4 → (s.region r).owlt = true) : s.owlsOk = true := by
  unfold State.owlsOk
  have e : (List.range 4).all (fun r => !regionPresent r || (s.region r).owlt) = true := by
    rw [List.all_eq_true]
    intro r hr
    simp [h r (List.mem_range.mp hr)]
  simp [e]
theorem lseq_reached (s : State) (ls : List Word) (h : ∀ p, p < 8 → ((s.lp p).lseq - wordAt ls p).toNat < 2 ^ 31) :
    ∀ p, p < 8 → s.lseqReached p ls = true := by
  intro p hp
  unfold State.lseqReached
  rw [decide_eq_true (h p hp), Bool.or_true]

theorem witness_ControlToken :
    ¬ (∀ (s : State), let x := s.pl; x.role = 2 → False) ∧
    ¬ (∀ (s : State), let x := s.pl; x.role ≠ 2 → False) ∧
    ¬ (∀ (s : State), let x := s.pl; x.own = true → x.role = 1 → s.partnerFit = true → False) ∧
    ¬ (∀ (s : State), let x := s.pl; x.own = true → x.role ≠ 1 ∨ s.partnerFit = false → False) ∧
    ¬ (∀ (s : State), let x := s.pl; x.own = false → x.role ≠ 2 ∨ x.sensed = false ∨ x.relPend = true → False) ∧
    ¬ (∀ (s : State), let x := s.pl; x.role = 2 → x.own = false → x.sensed = true → x.relPend = false →
        x.lastRel ≠ none ∨ s.mayTake 0 = true → False) ∧
    ¬ (∀ (s : State), let x := s.pl; x.role = 2 → x.own = false → x.sensed = true → x.relPend = false → x.lastRel = none →
        s.mayTake 0 = false → False) ∧
    ¬ (∀ (s : State), let x := s.pl; ∀ (mask : BitVec 8) (cold : Bool), x.waitRun = some (mask, cold) → x.sensed = false →
        s.halted = false → x.waitAt + (if x.psel then 510 else 10) * 12000000 ≤ s.time → False) ∧
    ¬ (∀ (s : State), let x := s.pl;
        x.waitRun = none ∨ x.sensed = true ∨ s.halted = true ∨ s.time < x.waitAt + (if x.psel then 510 else 10) * 12000000 →
        False) ∧
    ¬ (∀ (s : State), let x := s.pl; ∀ (rc : BitVec 8), x.lastRel = some rc → x.sensed = true → False) ∧
    ¬ (∀ (s : State), let x := s.pl; x.lastRel = none ∨ x.sensed = false → False) ∧
    ¬ (∀ (s : State), let x := s.pl; ∀ rc : BitVec 4, 1 ≤ rc.toNat → rc.toNat ≤ 6 → rc ≠ 1 → rc ≠ 5 →
        x.role ≠ 1 ∨ s.partnerFit = false → False) ∧
    ¬ (∀ (s : State), let x := s.pl; ∀ rc : BitVec 4, 1 ≤ rc.toNat → rc.toNat ≤ 6 → x.role = 1 → s.partnerFit = true →
        False) ∧
    ¬ (∀ (s : State), let x := s.pl;
        ∀ rc : BitVec 4, rc = 0 ∨ 7 ≤ rc.toNat ∨ ((rc = 1 ∨ rc = 5) ∧ (x.role ≠ 1 ∨ s.partnerFit = false)) → False) ∧
    ¬ (∀ (s : State), let x := s.pl; x.relPend = true → False) ∧
    ¬ (∀ (s : State), let x := s.pl; x.relPend = false → False) ∧
    ¬ (∀ (s : State), let x := s.pl;
        let good := fun (hd : LinkHead) => x.link = true ∧ hd.tag = true ∧ newerSeq hd.seq x.rxSeq = true;
        ∀ (rc : BitVec 8) (ls : List Word) (hd : LinkHead), good hd → x.role = 2 → x.relPend = false → s.mayTake rc = true →
        x.sensed = true → False) ∧
    ¬ (∀ (s : State), let x := s.pl;
        let good := fun (hd : LinkHead) => x.link = true ∧ hd.tag = true ∧ newerSeq hd.seq x.rxSeq = true;
        ∀ (rc : BitVec 8) (ls : List Word) (hd : LinkHead), good hd → x.role = 2 → x.relPend = false → s.mayTake rc = true →
        x.sensed = false → False) ∧
    ¬ (∀ (s : State), let x := s.pl;
        let good := fun (hd : LinkHead) => x.link = true ∧ hd.tag = true ∧ newerSeq hd.seq x.rxSeq = true;
        ∀ (rc : BitVec 8) (ls : List Word) (hd : LinkHead), good hd → x.role = 2 → x.relPend = false → s.mayTake rc = false →
        False) ∧
    ¬ (∀ (s : State), let x := s.pl;
        let good := fun (hd : LinkHead) => x.link = true ∧ hd.tag = true ∧ newerSeq hd.seq x.rxSeq = true;
        ∀ (rc : BitVec 8) (ls : List Word) (hd : LinkHead), good hd → x.role ≠ 2 ∨ x.relPend = true → False) ∧
    ¬ (∀ (s : State) (m : Master), s.lets m 0xA88 → let x := s.pl; x.role = 1 → s.partnerFit = true → False) ∧
    ¬ (∀ (s : State) (m : Master), s.lets m 0xA88 → let x := s.pl; x.role = 1 → s.partnerFit = false →
        s.partnerReady = true → False) ∧
    ¬ (∀ (s : State) (m : Master), s.lets m 0xA88 → let x := s.pl;
        x.role ≠ 1 ∨ (s.partnerFit = false ∧ s.partnerReady = false) → False) ∧
    ¬ (∀ (s : State) (m : Master), s.lets m 0xA88 → let x := s.pl; x.role = 2 → False) ∧
    ¬ (∀ (s : State) (m : Master), s.lets m 0xA88 → let x := s.pl; x.role ≠ 2 → False) ∧
    ¬ (∀ (s : State) (m : Master), s.lets m 0xA88 → let x := s.pl;
        let joins := x.link = true ∧ (x.lane0 = true ∨ x.lane1 = true) ∧ s.halted = false ∧ s.owlsOk = true ∧ s.sameProtocol = true ∧ x.joining = false ∧ x.osigN < 3;
        x.role = 2 → joins → False) ∧
    ¬ (∀ (s : State) (m : Master), s.lets m 0xA88 → let x := s.pl;
        let joins := x.link = true ∧ (x.lane0 = true ∨ x.lane1 = true) ∧ s.halted = false ∧ s.owlsOk = true ∧ s.sameProtocol = true ∧ x.joining = false ∧ x.osigN < 3;
        x.role = 2 → ¬ joins → False) :=
  ⟨fun h => h (st 0) (by decide),
   fun h => h (st 3) (by decide),
   fun h => h (st 5) (by decide) (by decide) (by decide),
   fun h => h (st 6) (by decide) (by decide),
   fun h => h (st 2) (by decide) (by decide),
   fun h => h (st 0) (by decide) (by decide) (by decide) (by decide) (by decide),
   fun h => h (st 1) (by decide) (by decide) (by decide) (by decide) (by decide) (by decide),
   fun h => h (st 26) (0x01#8) (false) (by decide) (by decide) (by decide) (by decide),
   fun h => h (st 0) (by decide),
   fun h => h (st 4) (0x01#8) (by decide) (by decide),
   fun h => h (st 0) (by decide),
   fun h => h (st 0) (0x2#4) (by decide) (by decide) (by decide) (by decide) (by decide),
   fun h => h (st 5) (0x1#4) (by decide) (by decide) (by decide) (by decide),
   fun h => h (st 0) (0x0#4) (by decide),
   fun h => h (st 7) (by decide),
   fun h => h (st 0) (by decide),
   fun h => h (st 0) (0x00#8) ([]) ({ seq := 0x00000001#32, ptime := 0x0000000000000005#64, tag := true }) (by decide)
       (by decide) (by decide) (by decide) (by decide),
   fun h => h (st 2) (0x00#8) ([]) ({ seq := 0x00000001#32, ptime := 0x0000000000000005#64, tag := true }) (by decide)
       (by decide) (by decide) (by decide) (by decide),
   fun h => h (st 1) (0x00#8) ([]) ({ seq := 0x00000001#32, ptime := 0x0000000000000005#64, tag := true }) (by decide)
       (by decide) (by decide) (by decide),
   fun h => h (st 5) (0x00#8) ([]) ({ seq := 0x00000001#32, ptime := 0x0000000000000005#64, tag := true }) (by decide)
       (by decide),
   fun h => h (st 5) (Sys2Proof.Master.house) (by unfold State.lets; decide) (by decide) (by decide),
   fun h => h (st 6) (Sys2Proof.Master.house) (by unfold State.lets; decide) (by decide) (by decide) (by decide),
   fun h => h (st 0) (Sys2Proof.Master.house) (by unfold State.lets; decide) (by decide),
   fun h => h (st 0) (Sys2Proof.Master.house) (by unfold State.lets; decide) (by decide),
   fun h => h (st 3) (Sys2Proof.Master.house) (by unfold State.lets; decide) (by decide),
   fun h => h (st 0) (Sys2Proof.Master.house) (by unfold State.lets; decide)
       (by decide) ⟨by decide, by decide, by decide, owls_ok _ (by decide), by decide, by decide, by decide⟩,
   fun h => h (st 4) (Sys2Proof.Master.house) (by unfold State.lets; decide) (by decide) (by decide)⟩

theorem witness_PairLink :
    (∀ eph nonce sig : List Byte, Config.sm2Verify ((st 3).slot 5).key (sm3Z ((st 3).slot 5).key (eph ++ nonce)) sig = true →
        ¬ (∀ (s : State), let x := s.pl;
        let starts := s.provisioned = true ∧ (x.lane0 = true ∨ x.lane1 = true) ∧ x.link = false;
        let holds := fun (eph nonce sig : List Byte) => Config.sm2Verify (s.slot 5).key (sm3Z (s.slot 5).key (eph ++ nonce)) sig = true;
        ∀ (eph : List Byte) (nonce : List Byte) (sig : List Byte), starts → holds eph nonce sig → False)) ∧
    (∀ eph nonce sig : List Byte, Config.sm2Verify ((st 3).slot 5).key (sm3Z ((st 3).slot 5).key (eph ++
        nonce)) sig = false → ¬ (∀ (s : State), let x := s.pl;
        let starts := s.provisioned = true ∧ (x.lane0 = true ∨ x.lane1 = true) ∧ x.link = false;
        let holds := fun (eph nonce sig : List Byte) => Config.sm2Verify (s.slot 5).key (sm3Z (s.slot 5).key (eph ++ nonce)) sig = true;
        ∀ (eph : List Byte) (nonce : List Byte) (sig : List Byte), starts → ¬ holds eph nonce sig → False)) ∧
    ¬ (∀ (s : State), let x := s.pl; let starts := s.provisioned = true ∧ (x.lane0 = true ∨ x.lane1 = true) ∧ x.link = false;
        ∀ (eph : List Byte) (nonce : List Byte) (sig : List Byte), ¬ starts → False) ∧
    ¬ (∀ (s : State), let x := s.pl; x.link = true → x.role = 2 → False) ∧
    ¬ (∀ (s : State), let x := s.pl; x.link = true → x.role ≠ 2 → False) ∧
    ¬ (∀ (s : State), let x := s.pl; x.link = false → False) ∧
    ¬ (∀ (s : State), let x := s.pl;
        let good := fun (hd : LinkHead) => x.link = true ∧ hd.tag = true ∧ newerSeq hd.seq x.rxSeq = true;
        ∀ (h : PairHeartbeat) (hd : LinkHead), good hd → x.autoDue = false ∨ x.ps ≠ .unsync → False) ∧
    ¬ (∀ (s : State), let x := s.pl;
        let bad := fun (hd : LinkHead) => x.link = true ∧ (hd.tag = false ∨ newerSeq hd.seq x.rxSeq = false);
        ∀ (h : PairHeartbeat) (hd : LinkHead), bad hd → False) ∧
    ¬ (∀ (s : State), let x := s.pl; ∀ (h : PairHeartbeat) (hd : LinkHead), x.link = false → False) ∧
    ¬ (∀ (s : State), s.inStep = true → False) ∧
    ¬ (∀ (s : State), s.inStep = false → False) ∧
    ¬ (∀ (s : State), let x := s.pl;
        let bad := fun (hd : LinkHead) => x.link = true ∧ (hd.tag = false ∨ newerSeq hd.seq x.rxSeq = false);
        ∀ (w : Fwd) (p : Fin 8) (lseq : Word) (b : Option Word) (q : Fin 256) (c : PairCmd) (ls : List Word) (k : StateBlock) (hd : LinkHead),
        bad hd → x.role = 2 → False) ∧
    ¬ (∀ (s : State), let x := s.pl;
        let bad := fun (hd : LinkHead) => x.link = true ∧ (hd.tag = false ∨ newerSeq hd.seq x.rxSeq = false);
        ∀ (p : Fin 8) (lseq : Word) (sig : BitVec 64) (rc : BitVec 8) (ls : List Word) (sm3 : List Byte) (fw : Word) (proto : BitVec 16) (ready : Bool) (hd : LinkHead),
        bad hd → False) ∧
    ¬ (∀ (s : State), let x := s.pl; ∀ (h : List Word) (hd : LinkHead), x.role = 2 → x.link = true → False) ∧
    ¬ (∀ (s : State), let x := s.pl;
        let good := fun (hd : LinkHead) => x.link = true ∧ hd.tag = true ∧ newerSeq hd.seq x.rxSeq = true;
        ∀ (h : List Word) (hd : LinkHead), x.role = 1 → good hd → False) ∧
    ¬ (∀ (s : State), let x := s.pl; ∀ (h : List Word) (hd : LinkHead), x.role = 1 → x.link = true →
        hd.tag = false ∨ newerSeq hd.seq x.rxSeq = false → False) ∧
    ¬ (∀ (s : State), let x := s.pl; ∀ (h : List Word) (hd : LinkHead), x.role ≠ 1 → x.role ≠ 2 → False) ∧
    ¬ (∀ (s : State), let x := s.pl; ∀ (n : Nat) (bad : Bool), x.role = 2 → False) ∧
    ¬ (∀ (s : State), let x := s.pl; ∀ (n : Nat) (bad : Bool), x.role ≠ 2 → False) ∧
    ¬ (∀ (s : State), let x := s.pl;
        let idle := fun (r : Fin 4) => x.role = 2 ∧ regionPresent r.val = true ∧ s.regionIdle r.val = true;
        ∀ (r : Fin 4) (pass : Bool), idle r → False) ∧
    ¬ (∀ (s : State), let x := s.pl;
        let idle := fun (r : Fin 4) => x.role = 2 ∧ regionPresent r.val = true ∧ s.regionIdle r.val = true;
        ∀ (r : Fin 4) (pass : Bool), ¬ idle r → False) ∧
    ¬ (∀ (s : State), ∀ m : Master, mayRead m.world 0xA81 = true → False) ∧
    ¬ (∀ (s : State), ∀ m : Master, mayRead m.world 0xA83 = true → False) :=
  ⟨fun eph nonce sig e h => h (st 3) eph nonce sig (by decide) e,
   fun eph nonce sig e h => h (st 3) eph nonce sig (by decide) (fun x => Bool.false_ne_true (e.symm.trans x)),
   fun h => h (st 0) ([]) ([]) ([]) (by decide),
   fun h => h (st 0) (by decide) (by decide),
   fun h => h (st 5) (by decide) (by decide),
   fun h => h (st 3) (by decide),
   fun h => h (st 0) ({ role := 0x1#2, pstate := 0x4#3, mstate := 0x3#2, prog := 0x0000000000000000#64, fw := 0x00000000#32, proto := 0x0000#16 }) ({ seq := 0x00000001#32, ptime := 0x0000000000000005#64, tag := true })
       (by decide) (by decide),
   fun h => h (st 0) ({ role := 0x1#2, pstate := 0x4#3, mstate := 0x3#2, prog := 0x0000000000000000#64, fw := 0x00000000#32, proto := 0x0000#16 }) ({ seq := 0x00000001#32, ptime := 0x00000000000001f4#64, tag := false })
       (by decide),
   fun h => h (st 3) ({ role := 0x1#2, pstate := 0x4#3, mstate := 0x3#2, prog := 0x0000000000000000#64, fw := 0x00000000#32, proto := 0x0000#16 }) ({ seq := 0x00000001#32, ptime := 0x0000000000000005#64, tag := true })
       (by decide),
   fun h => h (st 1) (by decide),
   fun h => h (st 0) (by decide),
   fun h => h (st 0) ({ lp := 0, task := 1, init := false, nw := 0, lseq := 0x00000001#32, ltime := 0x0000000000000000#64, ttf := 0x0000000000000000#64, axsnap := [], delta := [] }) (0) (0x00000000#32) (none) (0) (Sys2Proof.PairCmd.ftClrall) ([]) ({ space := Sys2Proof.StateSpace.force, base := 0, words := [0x00000001#32, 0x00000002#32] }) ({ seq := 0x00000001#32, ptime := 0x00000000000001f4#64, tag := false })
       (by decide) (by decide),
   fun h => h (st 0) (0) (0x00000000#32) (0x0000000000000000#64) (0x00#8) ([]) ([]) (0x00000000#32) (0x0000#16) (false) ({ seq := 0x00000001#32, ptime := 0x00000000000001f4#64, tag := false })
       (by decide),
   fun h => h (st 0) ([]) ({ seq := 0x00000001#32, ptime := 0x0000000000000005#64, tag := true }) (by decide) (by decide),
   fun h => h (st 5) ([]) ({ seq := 0x00000001#32, ptime := 0x0000000000000005#64, tag := true }) (by decide) (by decide),
   fun h => h (st 5) ([]) ({ seq := 0x00000001#32, ptime := 0x00000000000001f4#64, tag := false }) (by decide) (by decide)
       (by decide),
   fun h => h (st 3) ([]) ({ seq := 0x00000001#32, ptime := 0x0000000000000005#64, tag := true }) (by decide) (by decide),
   fun h => h (st 0) (0) (false) (by decide),
   fun h => h (st 3) (0) (false) (by decide),
   fun h => h (st 0) (0) (false) (by decide),
   fun h => h (st 3) 0 false (by decide),
   fun h => h (st 0) (Sys2Proof.Master.house) (by decide),
   fun h => h (st 0) (Sys2Proof.Master.house) (by decide)⟩

theorem witness_ForwardedMessages :
    ¬ (∀ (s : State) (hd : LinkHead), s.pl.link = true → hd.tag = true → newerSeq hd.seq s.pl.rxSeq = true → ∀ (w : Fwd),
        s.takesForwarded = true → False) ∧
    ¬ (∀ (s : State) (hd : LinkHead), s.pl.link = true → hd.tag = true → newerSeq hd.seq s.pl.rxSeq = true →
        ∀ (p : Fin 8) (lseq : Word) (b : Option Word) (q : Fin 256), s.takesForwarded = true → s.entryPoint p.val = false →
        False) ∧
    ¬ (∀ (s : State) (hd : LinkHead), s.pl.link = true → hd.tag = true → newerSeq hd.seq s.pl.rxSeq = true →
        let x := { s.pl with rxSeq := some hd.seq }; ∀ (p : Fin 8) (lseq : Word) (sig : BitVec 64), s.inStep = true →
        x.ownSigs = [] → False) ∧
    ¬ (∀ (s : State) (hd : LinkHead), s.pl.link = true → hd.tag = true → newerSeq hd.seq s.pl.rxSeq = true →
        let x := { s.pl with rxSeq := some hd.seq }; ∀ (p : Fin 8) (lseq : Word) (sig : BitVec 64) (own : BitVec 64),
        s.inStep = true → x.ownSigs = [(p.val, lseq, own)] → x.osigs = [] → sig ≠ own → False) ∧
    ¬ (∀ (s : State) (hd : LinkHead), s.pl.link = true → hd.tag = true → newerSeq hd.seq s.pl.rxSeq = true →
        let x := { s.pl with rxSeq := some hd.seq }; ∀ (p : Fin 8) (lseq : Word) (sig : BitVec 64), s.inStep = true →
        x.ownSigs = [(p.val, lseq, sig)] → x.osigs = [] → False) ∧
    ¬ (∀ (s : State) (hd : LinkHead), s.pl.link = true → hd.tag = true → newerSeq hd.seq s.pl.rxSeq = true →
        let x := { s.pl with rxSeq := some hd.seq }; ∀ (i : Fin 1024) (ls : List Word), s.takesForwarded = true →
        x.cmds = [] → (∀ p, p < 8 → s.lseqReached p ls = true) → False) ∧
    ¬ (∀ (s : State) (hd : LinkHead), s.pl.link = true → hd.tag = true → newerSeq hd.seq s.pl.rxSeq = true →
        let x := { s.pl with rxSeq := some hd.seq }; ∀ (c : PairCmd) (ls : List Word), c ≠ .preset → cmdParts c = [c] →
        s.takesForwarded = true → x.cmds = [] → (∃ p ∈ cmdLps c, s.lseqReached p ls = false) → False) ∧
    ¬ (∀ (s : State) (hd : LinkHead), s.pl.link = true → hd.tag = true → newerSeq hd.seq s.pl.rxSeq = true →
        s.takesForwarded = false → ∀ (w : Fwd), False) ∧
    ¬ (∀ (s : State) (hd : LinkHead), s.pl.link = true → hd.tag = true → newerSeq hd.seq s.pl.rxSeq = true →
        s.takesForwarded = false → ∀ (p : Fin 8) (lseq : Word) (b : Option Word) (q : Fin 256), False) ∧
    ¬ (∀ (s : State) (hd : LinkHead), s.pl.link = true → hd.tag = true → newerSeq hd.seq s.pl.rxSeq = true →
        s.takesForwarded = false → ∀ (c : PairCmd) (ls : List Word), c ≠ .preset → False) ∧
    ¬ (∀ (s : State) (hd : LinkHead), s.pl.link = true → hd.tag = true → newerSeq hd.seq s.pl.rxSeq = true →
        s.inStep = false → ∀ (p : Fin 8) (lseq : Word) (sig : BitVec 64), False) :=
  ⟨fun h => h (st 1) ({ seq := 0x00000001#32, ptime := 0x0000000000000005#64, tag := true }) (by decide) (by decide)
      (by decide) ({ lp := 0, task := 1, init := false, nw := 0, lseq := 0x00000001#32, ltime := 0x0000000000000000#64, ttf := 0x0000000000000000#64, axsnap := [], delta := [] })
      (by decide),
   fun h => h (st 1) ({ seq := 0x00000001#32, ptime := 0x0000000000000005#64, tag := true }) (by decide) (by decide)
       (by decide) (0) (0x00000000#32) (none) (0) (by decide) (by decide),
   fun h => h (st 1) ({ seq := 0x00000001#32, ptime := 0x0000000000000005#64, tag := true }) (by decide) (by decide)
       (by decide) (0) (0x00000000#32) (0x0000000000000000#64) (by decide) (by decide),
   fun h => h (st 12) ({ seq := 0x00000001#32, ptime := 0x0000000000000005#64, tag := true }) (by decide) (by decide)
       (by decide) (0) (0x00000001#32) (0x0000000000000000#64) (0x0000000000000001#64) (by decide) (by decide) (by decide)
       (by decide),
   fun h => h (st 12) ({ seq := 0x00000001#32, ptime := 0x0000000000000005#64, tag := true }) (by decide) (by decide)
       (by decide) (0) (0x00000001#32) (0x0000000000000001#64) (by decide) (by decide) (by decide),
   fun h => h (st 1) ({ seq := 0x00000001#32, ptime := 0x0000000000000005#64, tag := true }) (by decide) (by decide)
       (by decide) (0) ([]) (by decide) (by decide) (lseq_reached _ _ (by decide)),
   fun h => h (st 1) ({ seq := 0x00000001#32, ptime := 0x0000000000000005#64, tag := true }) (by decide) (by decide)
       (by decide) (Sys2Proof.PairCmd.ftClrall) ([0x00000001#32, 0x00000001#32, 0x00000001#32, 0x00000001#32, 0x00000001#32, 0x00000001#32, 0x00000001#32, 0x00000001#32])
       (by decide) (by decide) (by decide) (by decide) (by decide),
   fun h => h (st 0) ({ seq := 0x00000001#32, ptime := 0x0000000000000005#64, tag := true }) (by decide) (by decide)
       (by decide)
       (by decide) ({ lp := 0, task := 1, init := false, nw := 0, lseq := 0x00000001#32, ltime := 0x0000000000000000#64, ttf := 0x0000000000000000#64, axsnap := [], delta := [] }),
   fun h => h (st 0) ({ seq := 0x00000001#32, ptime := 0x0000000000000005#64, tag := true }) (by decide) (by decide)
       (by decide) (by decide) (0) (0x00000000#32) (none) (0),
   fun h => h (st 0) ({ seq := 0x00000001#32, ptime := 0x0000000000000005#64, tag := true }) (by decide) (by decide)
       (by decide) (by decide) (Sys2Proof.PairCmd.ftClrall) ([]) (by decide),
   fun h => h (st 0) ({ seq := 0x00000001#32, ptime := 0x0000000000000005#64, tag := true }) (by decide) (by decide)
       (by decide) (by decide) (0) (0x00000000#32) (0x0000000000000000#64)⟩

theorem witness_PairJoin :
    ¬ (∀ (s : State) (hd : LinkHead), s.pl.link = true → hd.tag = true → newerSeq hd.seq s.pl.rxSeq = true →
        let x := { s.pl with rxSeq := some hd.seq };
        let runs := x.joining = true ∧ (s.pl.partner.map (fun h => h.pstate != 0)).getD false = true;
        ∀ (sm3 : List Byte) (fw : Word) (proto : BitVec 16) (ready : Bool), x.role = 1 → runs → False) ∧
    ¬ (∀ (s : State) (hd : LinkHead), s.pl.link = true → hd.tag = true → newerSeq hd.seq s.pl.rxSeq = true →
        let x := { s.pl with rxSeq := some hd.seq };
        let runs := x.joining = true ∧ (s.pl.partner.map (fun h => h.pstate != 0)).getD false = true;
        ∀ (sm3 : List Byte) (fw : Word) (proto : BitVec 16) (ready : Bool), x.role = 1 → ¬ runs → proto ≠ s.fwProto → False) ∧
    ¬ (∀ (s : State) (hd : LinkHead), s.pl.link = true → hd.tag = true → newerSeq hd.seq s.pl.rxSeq = true →
        let x := { s.pl with rxSeq := some hd.seq };
        let runs := x.joining = true ∧ (s.pl.partner.map (fun h => h.pstate != 0)).getD false = true;
        ∀ (sm3 : List Byte) (fw : Word) (proto : BitVec 16) (ready : Bool), x.role = 1 → ¬ runs → proto = s.fwProto →
        sm3 ≠ s.prog.sm3 → ready = false → False) ∧
    ¬ (∀ (s : State) (hd : LinkHead), s.pl.link = true → hd.tag = true → newerSeq hd.seq s.pl.rxSeq = true →
        let x := { s.pl with rxSeq := some hd.seq };
        let runs := x.joining = true ∧ (s.pl.partner.map (fun h => h.pstate != 0)).getD false = true;
        ∀ (sm3 : List Byte) (fw : Word) (proto : BitVec 16) (ready : Bool), x.role = 1 → ¬ runs → proto = s.fwProto →
        (sm3 = s.prog.sm3 ∨ ready = true) → False) ∧
    ¬ (∀ (s : State) (hd : LinkHead), s.pl.link = true → hd.tag = true → newerSeq hd.seq s.pl.rxSeq = true →
        let x := { s.pl with rxSeq := some hd.seq }; ∀ (sm3 : List Byte) (fw : Word) (proto : BitVec 16) (ready : Bool),
        x.role ≠ 1 → False) ∧
    ¬ (∀ (s : State) (hd : LinkHead), s.pl.link = true → hd.tag = true → newerSeq hd.seq s.pl.rxSeq = true →
        let x := { s.pl with rxSeq := some hd.seq }; x.role = 2 → x.joining = true → False) ∧
    ¬ (∀ (s : State) (hd : LinkHead), s.pl.link = true → hd.tag = true → newerSeq hd.seq s.pl.rxSeq = true →
        let x := { s.pl with rxSeq := some hd.seq }; ∀ (c : BitVec 8), c ≠ 0 → x.role = 2 → x.joining = true → False) ∧
    ¬ (∀ (s : State) (hd : LinkHead), s.pl.link = true → hd.tag = true → newerSeq hd.seq s.pl.rxSeq = true →
        let x := { s.pl with rxSeq := some hd.seq }; ∀ (c : BitVec 8), x.role ≠ 2 ∨ x.joining = false → False) ∧
    ¬ (∀ (s : State) (hd : LinkHead), s.pl.link = true → hd.tag = true → newerSeq hd.seq s.pl.rxSeq = true →
        ∀ (i : Nat) (w : List Word), i < 1024 → s.takesState = true → w.length = 2 → False) ∧
    ¬ (∀ (s : State) (hd : LinkHead), s.pl.link = true → hd.tag = true → newerSeq hd.seq s.pl.rxSeq = true →
        ∀ (a : Nat) (v : Word), 0x200000 ≤ a → a < 0x3FFFFF → s.takesState = true → False) ∧
    ¬ (∀ (s : State) (hd : LinkHead), s.pl.link = true → hd.tag = true → newerSeq hd.seq s.pl.rxSeq = true →
        ∀ (b : StateBlock), s.takesState = false → False) ∧
    ¬ (∀ (s : State) (hd : LinkHead), s.pl.link = true → hd.tag = true → newerSeq hd.seq s.pl.rxSeq = true →
        let x := { s.pl with rxSeq := some hd.seq }; x.joining = true → x.role = 2 → ∀ (d : Nat),
        x.ps = .syncing ∨ x.ps = .catchup → d ≤ 65536 → x.joinReady = false → False) ∧
    ¬ (∀ (s : State) (hd : LinkHead), s.pl.link = true → hd.tag = true → newerSeq hd.seq s.pl.rxSeq = true →
        let x := { s.pl with rxSeq := some hd.seq }; x.joining = true → x.role = 2 → ∀ (d : Nat),
        x.ps = .syncing ∨ x.ps = .catchup → d ≤ 65536 → x.joinReady = true → False) ∧
    ¬ (∀ (s : State) (hd : LinkHead), s.pl.link = true → hd.tag = true → newerSeq hd.seq s.pl.rxSeq = true →
        let x := { s.pl with rxSeq := some hd.seq }; x.joining = true → x.role = 2 → ∀ (d : Nat),
        x.ps = .syncing ∨ x.ps = .catchup → 65536 < d → x.rounds < 16 → False) ∧
    ¬ (∀ (s : State) (hd : LinkHead), s.pl.link = true → hd.tag = true → newerSeq hd.seq s.pl.rxSeq = true →
        let x := { s.pl with rxSeq := some hd.seq }; x.joining = true → x.role = 2 → ∀ (d : Nat),
        x.ps = .syncing ∨ x.ps = .catchup → 65536 < d → 16 ≤ x.rounds → False) ∧
    ¬ (∀ (s : State) (hd : LinkHead), s.pl.link = true → hd.tag = true → newerSeq hd.seq s.pl.rxSeq = true →
        let x := { s.pl with rxSeq := some hd.seq }; x.joining = true → x.role = 1 → ∀ (d : Nat), d ≤ 65536 →
        x.joinReady = false ∨ x.switching = true → False) ∧
    ¬ (∀ (s : State) (hd : LinkHead), s.pl.link = true → hd.tag = true → newerSeq hd.seq s.pl.rxSeq = true →
        let x := { s.pl with rxSeq := some hd.seq }; x.joining = true → x.role = 1 → ∀ (d : Nat), d ≤ 65536 →
        x.joinReady = true → x.switching = false → False) ∧
    ¬ (∀ (s : State) (hd : LinkHead), s.pl.link = true → hd.tag = true → newerSeq hd.seq s.pl.rxSeq = true →
        let x := { s.pl with rxSeq := some hd.seq }; x.joining = true → x.role = 1 → ∀ (d : Nat), 65536 < d →
        x.rounds < 16 ∨ x.joinReady = true → False) ∧
    ¬ (∀ (s : State) (hd : LinkHead), s.pl.link = true → hd.tag = true → newerSeq hd.seq s.pl.rxSeq = true →
        let x := { s.pl with rxSeq := some hd.seq }; x.joining = true → x.role = 1 → ∀ (d : Nat), 65536 < d → 16 ≤ x.rounds →
        x.joinReady = false → False) ∧
    ¬ (∀ (s : State) (hd : LinkHead), s.pl.link = true → hd.tag = true → newerSeq hd.seq s.pl.rxSeq = true →
        let x := { s.pl with rxSeq := some hd.seq }; ∀ (d : Nat), x.joining = false → False) ∧
    ¬ (∀ (s : State) (hd : LinkHead), s.pl.link = true → hd.tag = true → newerSeq hd.seq s.pl.rxSeq = true →
        let x := { s.pl with rxSeq := some hd.seq }; x.joining = true → x.role = 2 → x.ps = .catchup → False) ∧
    ¬ (∀ (s : State) (hd : LinkHead), s.pl.link = true → hd.tag = true → newerSeq hd.seq s.pl.rxSeq = true →
        let x := { s.pl with rxSeq := some hd.seq }; x.joining = true → x.role = 2 → x.ps = .ready → False) ∧
    ¬ (∀ (s : State) (hd : LinkHead), s.pl.link = true → hd.tag = true → newerSeq hd.seq s.pl.rxSeq = true →
        let x := { s.pl with rxSeq := some hd.seq }; x.joining = true → x.role = 1 → x.hold = true → s.tasksDone = true →
        x.switching = false → False) ∧
    ¬ (∀ (s : State) (hd : LinkHead), s.pl.link = true → hd.tag = true → newerSeq hd.seq s.pl.rxSeq = true →
        let x := { s.pl with rxSeq := some hd.seq }; x.joining = true → x.role = 1 → x.hold = true → s.tasksDone = true →
        x.switching = true → False) ∧
    ¬ (∀ (s : State) (hd : LinkHead), s.pl.link = true → hd.tag = true → newerSeq hd.seq s.pl.rxSeq = true →
        let x := { s.pl with rxSeq := some hd.seq }; x.joining = true → x.role = 1 → x.hold = false ∨ s.tasksDone = false →
        False) ∧
    ¬ (∀ (s : State) (hd : LinkHead), s.pl.link = true → hd.tag = true → newerSeq hd.seq s.pl.rxSeq = true →
        let x := { s.pl with rxSeq := some hd.seq };
        let joins := x.ps = .unsync ∧ s.sameProgram = true ∧ x.role = 2 ∧ (x.lane0 = true ∨ x.lane1 = true) ∧ s.halted = false ∧ s.owlsOk = true ∧ s.sameProtocol = true ∧ x.osigN < 3;
        joins → False) ∧
    ¬ (∀ (s : State) (hd : LinkHead), s.pl.link = true → hd.tag = true → newerSeq hd.seq s.pl.rxSeq = true →
        let x := { s.pl with rxSeq := some hd.seq };
        let joins := x.ps = .unsync ∧ s.sameProgram = true ∧ x.role = 2 ∧ (x.lane0 = true ∨ x.lane1 = true) ∧ s.halted = false ∧ s.owlsOk = true ∧ s.sameProtocol = true ∧ x.osigN < 3;
        x.ps = .unsync → x.role = 2 → ¬ joins → False) :=
  ⟨fun h => h (st 19) ({ seq := 0x00000001#32, ptime := 0x0000000000000005#64, tag := true }) (by decide) (by decide)
      (by decide) ([]) (0x00000000#32) (0x0000#16) (false) (by decide) (by decide),
   fun h => h (st 5) ({ seq := 0x00000001#32, ptime := 0x0000000000000005#64, tag := true }) (by decide) (by decide)
       (by decide) ([]) (0x00000000#32) (0x0001#16) (false) (by decide) (by decide) (by decide),
   fun h => h (st 5) ({ seq := 0x00000001#32, ptime := 0x0000000000000005#64, tag := true }) (by decide) (by decide)
       (by decide) ([0x01#8]) (0x00000000#32) (0x0000#16) (false) (by decide) (by decide) (by decide) (by decide) (by decide),
   fun h => h (st 5) ({ seq := 0x00000001#32, ptime := 0x0000000000000005#64, tag := true }) (by decide) (by decide)
       (by decide) ([]) (0x00000000#32) (0x0000#16) (false) (by decide) (by decide) (by decide) (by decide),
   fun h => h (st 0) ({ seq := 0x00000001#32, ptime := 0x0000000000000005#64, tag := true }) (by decide) (by decide)
       (by decide) ([]) (0x00000000#32) (0x0000#16) (false) (by decide),
   fun h => h (st 7) ({ seq := 0x00000001#32, ptime := 0x0000000000000005#64, tag := true }) (by decide) (by decide)
       (by decide) (by decide) (by decide),
   fun h => h (st 7) ({ seq := 0x00000001#32, ptime := 0x0000000000000005#64, tag := true }) (by decide) (by decide)
       (by decide) (0x01#8) (by decide) (by decide) (by decide),
   fun h => h (st 0) ({ seq := 0x00000001#32, ptime := 0x0000000000000005#64, tag := true }) (by decide) (by decide)
       (by decide) (0x00#8) (by decide),
   fun h => h (st 7) ({ seq := 0x00000001#32, ptime := 0x0000000000000005#64, tag := true }) (by decide) (by decide)
       (by decide) (0) ([0x00000005#32, 0x00000007#32]) (by decide) (by decide) (by decide),
   fun h => h (st 7) ({ seq := 0x00000001#32, ptime := 0x0000000000000005#64, tag := true }) (by decide) (by decide)
       (by decide) (2097152) (0x00000000#32) (by decide) (by decide) (by decide),
   fun h => h (st 0) ({ seq := 0x00000001#32, ptime := 0x0000000000000005#64, tag := true }) (by decide) (by decide)
       (by decide) ({ space := Sys2Proof.StateSpace.force, base := 0, words := [0x00000001#32, 0x00000002#32] }) (by decide),
   fun h => h (st 7) ({ seq := 0x00000001#32, ptime := 0x0000000000000005#64, tag := true }) (by decide) (by decide)
       (by decide) (by decide) (by decide) (0) (by decide) (by decide) (by decide),
   fun h => h (st 8) ({ seq := 0x00000001#32, ptime := 0x0000000000000005#64, tag := true }) (by decide) (by decide)
       (by decide) (by decide) (by decide) (0) (by decide) (by decide) (by decide),
   fun h => h (st 7) ({ seq := 0x00000001#32, ptime := 0x0000000000000005#64, tag := true }) (by decide) (by decide)
       (by decide) (by decide) (by decide) (65537) (by decide) (by decide) (by decide),
   fun h => h (st 21) ({ seq := 0x00000001#32, ptime := 0x0000000000000005#64, tag := true }) (by decide) (by decide)
       (by decide) (by decide) (by decide) (65537) (by decide) (by decide) (by decide),
   fun h => h (st 10) ({ seq := 0x00000001#32, ptime := 0x0000000000000005#64, tag := true }) (by decide) (by decide)
       (by decide) (by decide) (by decide) (0) (by decide) (by decide),
   fun h => h (st 19) ({ seq := 0x00000001#32, ptime := 0x0000000000000005#64, tag := true }) (by decide) (by decide)
       (by decide) (by decide) (by decide) (0) (by decide) (by decide) (by decide),
   fun h => h (st 10) ({ seq := 0x00000001#32, ptime := 0x0000000000000005#64, tag := true }) (by decide) (by decide)
       (by decide) (by decide) (by decide) (65537) (by decide) (by decide),
   fun h => h (st 20) ({ seq := 0x00000001#32, ptime := 0x0000000000000005#64, tag := true }) (by decide) (by decide)
       (by decide) (by decide) (by decide) (65537) (by decide) (by decide) (by decide),
   fun h => h (st 0) ({ seq := 0x00000001#32, ptime := 0x0000000000000005#64, tag := true }) (by decide) (by decide)
       (by decide) (0) (by decide),
   fun h => h (st 8) ({ seq := 0x00000001#32, ptime := 0x0000000000000005#64, tag := true }) (by decide) (by decide)
       (by decide) (by decide) (by decide) (by decide),
   fun h => h (st 22) ({ seq := 0x00000001#32, ptime := 0x0000000000000005#64, tag := true }) (by decide) (by decide)
       (by decide) (by decide) (by decide) (by decide),
   fun h => h (st 15) ({ seq := 0x00000001#32, ptime := 0x0000000000000005#64, tag := true }) (by decide) (by decide)
       (by decide) (by decide) (by decide) (by decide) (by decide) (by decide),
   fun h => h (st 28) ({ seq := 0x00000001#32, ptime := 0x0000000000000005#64, tag := true }) (by decide) (by decide)
       (by decide) (by decide) (by decide) (by decide) (by decide) (by decide),
   fun h => h (st 10) ({ seq := 0x00000001#32, ptime := 0x0000000000000005#64, tag := true }) (by decide) (by decide)
       (by decide) (by decide) (by decide) (by decide),
   fun h => h (st 0) ({ seq := 0x00000001#32, ptime := 0x0000000000000005#64, tag := true }) (by decide) (by decide)
       (by decide) ⟨by decide, by decide, by decide, by decide, by decide, owls_ok _ (by decide), by decide, by decide⟩,
   fun h => h (st 29) ({ seq := 0x00000001#32, ptime := 0x0000000000000005#64, tag := true }) (by decide) (by decide)
       (by decide) (by decide) (by decide) (by decide)⟩

end Sys2Proof.Tests.Pairs

namespace Sys2Proof.Tests.Misc

open Sys2Proof Sys2Proof.Machine Sys2Proof.Tests

def tb : SMap Entry := [(3, {w0 := 0x38000000, hyst := 1, posn := 3}),
    (4, {w0 := 0x4FFF0000, hyst := 1, posn := 700, armf := true}), (6, {w0 := 0x30000000, hyst := 1, posn := 300})]
def tb2 : SMap Entry := [(3, {w0 := 0x18000000, hyst := 1, posn := 120001000}),
    (4, {w0 := 0x3C000000, hyst := 0, posn := 1000, armf := true}),
    (5, {w0 := 0x38000000, hyst := 1, posn := 1500, armf := true}),
    (6, {w0 := 0x18000000, hyst := 1, posn := 120002000, armf := true}),
    (7, {w0 := 0x3C000000, hyst := 0, posn := 3, armr := true})]
def axs : SMap Axis := [(1, {desc := {en := true, mod := 0}, prev := 5}), (2, {desc := {en := true, mod := 1000}, prev := 5})]
def axs2 : SMap Axis := [(0, {prev := 120000000}),
    (1, {desc := {en := true, mod := 0}, prev := 5, pos := 2000, mpos := 2000}),
    (2, {desc := {en := true, mod := 65536}, vel := ⟨65536*4000, 1⟩, stale := true, base := ⟨65536*4000, 1⟩}),
    (3, {desc := {en := true}, frozen := true}),
    (6, {desc := {en := true, mod := 65536}, vel := ⟨65536*4000, 1⟩, base := ⟨65536*4000, 1⟩})]
def axs3 : SMap Axis := [(1, {desc := {en := true, mod := 0}, prev := 5000, pos := 2, mpos := 2})]
def states : List State :=
  [ { s0 with field := { powered := true, outs := [(0,{extdrv := true}),(1,{extdrv := true, sw := .off})], cfgok := true, cfgAxes := [], axes := axs, table := tb } },
      s0,
  { s0 with time := 12 * 120000, field := { powered := true, ax0set := true, ax0off := 120000000 - 120000, cfgok := true, axes := axs2, table := tb2 } },
  { s0 with time := 12 * 120000, field := { powered := true, ax0set := true, ax0off := 120000000 - 120000, cfgok := true, axes := axs3, table := tb2, decided := [⟨9, 0, 0, false, 7⟩] } } ]
def st (n : Nat) : State := states.getD n State.reset

theorem witness_FieldEvents_misc :
    ¬ (∀ (s : State) (d : Fin 16), s.field.powered = true → (s.field.out d.val).extdrv = true → False) ∧
    ¬ (∀ (s : State) (d : Fin 16), s.field.powered = true → (s.field.out d.val).extdrv = false → False) ∧
    ¬ (∀ (s : State) (x : Fin 8), s.field.powered = true → let f := s.field; let a := f.axis x.val; let m := a.desc.mod;
        let now := s.fieldNs; let way := (f.posAt x.val (now + 2000) - f.posAt x.val (now + 1992)).toInt;
        f.axisOn x.val = true → f.axisFrozen x.val = false → (m = 0 ∨ 4 * way.natAbs < m.toNat) →
        SMap.wf (fun _ => {}) f.table = true → False) ∧
    ¬ (∀ (s : State) (x : Fin 8), s.field.powered = true → let f := s.field; let a := f.axis x.val; let m := a.desc.mod;
        let now := s.fieldNs; let way := (f.posAt x.val (now + 2000) - f.posAt x.val (now + 1992)).toInt;
        f.axisOn x.val = true → f.axisFrozen x.val = false → m ≠ 0 → m.toNat ≤ 4 * way.natAbs → False) ∧
    ¬ (∀ (s : State) (x : Fin 8), s.field.powered = true → let f := s.field;
        f.axisOn x.val = false ∨ f.axisFrozen x.val = true → False) :=
  ⟨fun h => h (st 0) (0) (by decide) (by decide),
   fun h => h (st 0) (2) (by decide) (by decide),
   fun h => h (st 0) (1) (by decide) (by decide) (by decide) (by decide) (by decide),
   fun h => h (st 2) (2) (by decide) (by decide) (by decide) (by decide) (by decide),
   fun h => h (st 0) (0) (by decide) (by decide)⟩

end Sys2Proof.Tests.Misc

namespace Sys2Proof.Tests.General

open Sys2Proof Sys2Proof.Machine Sys2Proof.Tests

def sp : SMap Region := (List.range 4).map (fun r => (r, {cov := .split}))
def lpsOf (x : Lp) : SMap Lp := (List.range 8).map (fun p => (p, x))
def rec1 (ty axis : Nat) (p : Nat) : State := { s0 with regions := sp, lps := lpsOf {st := .run, phase := .exec}, lanes := (List.range 8).map (fun l => (l, { ports := [(0x200, BitVec.ofNat 32 p), (0x201, 1), (0x202, 5), (0x210, 9), (0x214, 3)] })), mem := (List.range 8).filterMap (fun k => if p + k < 0x400000 ∧ 0x200000 ≤ p + k then some (p + k, if k = 0 then BitVec.ofNat 32 (ty * 2^24 + axis * 2^20 + 0x1FF) else BitVec.ofNat 32 (k + 1)) else none) }
def C : SMap SettCh := [(0, {gtot := 5, remn := 7, qtot := 9, batch := true, btot := 2, ca := 3, cb := 3, per := some 100}),
    (1, {gtot := 5, fidalm := true})]
def mskp : Masks := { crst := 3, rst := 5, dclr := 9 }
def sts : List State := [ { s0 with rtc := {secs := secondsIn400 - 1} }, { s0 with rtc := {secs := secondsIn400 - 86400*3} },
    rec1 1 0 0x200010, rec1 0x22 0 0x200010, rec1 0x33 0 0x200010, rec1 2 8 0x200008, rec1 3 7 0x200012, rec1 0x11 7 0x100000, rec1 0x12 0 0x3FFFF8, rec1 0x21 0 0x20F000,
 { s0 with sett := { on := true, params := [(0x10,1)], chans := C }, mrSett := [1,2,3] },
 { s0 with reqNow := some mskp, reqn := 1, field := {powered := true}, hrx := {epoch := some 1} },
     { s0 with reqNow := some {crst := 3}, reqn := 2, hrxMsgs := [.inImage 1 1 1 [1] 1 1 1 1 1 true true true] },
     { s0 with reqNow := some mskp, reqn := 1, hrxMsgs := [.inImage 1 1 1 [1] 1 1 1 1 1 true true true] },
     {s0 with mem := [(0x200000, 1)]} ]
def states : List State :=
  sts
def st (n : Nat) : State := states.getD n State.reset
theorem s0_inv : s0.Inv := by
  refine ⟨rfl, fun a _ => ?_, by show 0 ≤ 64; decide, by decide, by decide⟩
  show (0 : Word) &&& 1 = 0
  decide

theorem witness_IdleStep :
    ¬ (∀ (s : State), s.pending = [] → False) :=
  fun h => h (st 0) (by decide)

theorem witness_EveryCommandGoesOn :
    ¬ (∀ (i : Instr) (s : State), i.wf = true → False) ∧
    ¬ (∀ (i : Instr) (s : State), i.wf = false → False) :=
  ⟨fun h => h .powerOn State.reset rfl,
   fun h => h (.stationRequest 0 0) State.reset rfl⟩

theorem witness_ResetState :
    ¬ (∀ (p : Nat), p < 8 → False) :=
  fun h => h (0) (by decide)

theorem witness_StepKeepsInvariant :
    ¬ (∀ (s t : State), s.Inv → step s = .next t → False) :=
  fun h => h s0 _ s0_inv rfl

theorem witness_MemoryPlaces :
    ¬ (∀ (s : State) (a b : Nat) (v : Word), b ≠ a → False) ∧
    ¬ (∀ (s : State) (a b : Nat) (v : Word), s.memWf → False) ∧
    ¬ (∀ (s : State) (a b : Nat) (v : Word), s.memWf → s.memGet a = v → (place a).isBit = false → False) :=
  ⟨fun h => h (st 0) (0) (1) (0x00000000#32) (by decide),
   fun h => h (st 0) (0) (0) (0x00000000#32) (by unfold State.memWf; decide),
   fun h => h (st 0) (0) (0) (0x00000000#32) (by unfold State.memWf; decide) (by decide) (by decide)⟩

theorem witness_InstanceClear :
    ¬ (∀ (s : State) (l : Fin 8) (v : Word), s.ready l.val → (s.region (l.val / 2)).errs = [] →
        let ptr := ((s.lane l.val).port 0x200).toNat; ptr % 8 = 0 → inSlice (l.val / 2) ptr = true →
        validType ((s.memGet ptr).toNat / 2 ^ 24) = true → fld (s.memGet ptr) 23 20 ≤ 7 → False) :=
  fun h => h (st 2) (0) (0x00000000#32) (by unfold State.ready; decide) (by decide) (by decide) (by decide) (by decide)
      (by decide)

theorem witness_InstanceRefusal :
    ¬ (∀ (s : State) (l : Fin 8) (v : Word), s.ready l.val → (s.region (l.val / 2)).errs = [] → let x := s.lane l.val;
        let ptr := (x.port 0x200).toNat; let w := (s.memGet ptr).toNat;
        let bad := ptr % 8 ≠ 0 ∨ inSlice (l.val / 2) ptr = false ∨ 7 < w / 2 ^ 20 % 16; (bad ∨ w / 2 ^ 24 ≠ 0x01) → False) ∧
    ¬ (∀ (s : State) (l : Fin 8) (v : Word), s.ready l.val → (s.region (l.val / 2)).errs = [] → let x := s.lane l.val;
        let ptr := (x.port 0x200).toNat; let w := (s.memGet ptr).toNat;
        let bad := ptr % 8 ≠ 0 ∨ inSlice (l.val / 2) ptr = false ∨ 7 < w / 2 ^ 20 % 16; (bad ∨ w / 2 ^ 24 ≠ 0x02) → False) ∧
    ¬ (∀ (s : State) (l : Fin 8) (v : Word), s.ready l.val → (s.region (l.val / 2)).errs = [] → let x := s.lane l.val;
        let ptr := (x.port 0x200).toNat; let w := (s.memGet ptr).toNat;
        let bad := ptr % 8 ≠ 0 ∨ inSlice (l.val / 2) ptr = false ∨ 7 < w / 2 ^ 20 % 16; (bad ∨ w / 2 ^ 24 ≠ 0x03) → False) ∧
    ¬ (∀ (s : State) (l : Fin 8) (v : Word), s.ready l.val → (s.region (l.val / 2)).errs = [] → let x := s.lane l.val;
        let ptr := (x.port 0x200).toNat; let w := (s.memGet ptr).toNat;
        let bad := ptr % 8 ≠ 0 ∨ inSlice (l.val / 2) ptr = false ∨ 7 < w / 2 ^ 20 % 16; (bad ∨ w / 2 ^ 24 ≠ 0x11) → False) ∧
    ¬ (∀ (s : State) (l : Fin 8) (v : Word), s.ready l.val → (s.region (l.val / 2)).errs = [] → let x := s.lane l.val;
        let ptr := (x.port 0x200).toNat; let w := (s.memGet ptr).toNat;
        let bad := ptr % 8 ≠ 0 ∨ inSlice (l.val / 2) ptr = false ∨ 7 < w / 2 ^ 20 % 16; (bad ∨ w / 2 ^ 24 ≠ 0x12) → False) ∧
    ¬ (∀ (s : State) (l : Fin 8) (v : Word), s.ready l.val → (s.region (l.val / 2)).errs = [] → let x := s.lane l.val;
        let ptr := (x.port 0x200).toNat; let w := (s.memGet ptr).toNat;
        let bad := ptr % 8 ≠ 0 ∨ inSlice (l.val / 2) ptr = false ∨ 7 < w / 2 ^ 20 % 16; (bad ∨ w / 2 ^ 24 ≠ 0x13) → False) ∧
    ¬ (∀ (s : State) (l : Fin 8) (v : Word), s.ready l.val → (s.region (l.val / 2)).errs = [] → let x := s.lane l.val;
        let ptr := (x.port 0x200).toNat; let w := (s.memGet ptr).toNat;
        let bad := ptr % 8 ≠ 0 ∨ inSlice (l.val / 2) ptr = false ∨ 7 < w / 2 ^ 20 % 16; (bad ∨ w / 2 ^ 24 ≠ 0x21) → False) ∧
    ¬ (∀ (s : State) (l : Fin 8) (v : Word), s.ready l.val → (s.region (l.val / 2)).errs = [] → let x := s.lane l.val;
        let ptr := (x.port 0x200).toNat; let w := (s.memGet ptr).toNat;
        let bad := ptr % 8 ≠ 0 ∨ inSlice (l.val / 2) ptr = false ∨ 7 < w / 2 ^ 20 % 16; (bad ∨ w / 2 ^ 24 ≠ 0x22) → False) ∧
    ¬ (∀ (s : State) (l : Fin 8) (v : Word), s.ready l.val → (s.region (l.val / 2)).errs = [] → let x := s.lane l.val;
        let ptr := (x.port 0x200).toNat; let w := (s.memGet ptr).toNat;
        let bad := ptr % 8 ≠ 0 ∨ inSlice (l.val / 2) ptr = false ∨ 7 < w / 2 ^ 20 % 16;
        (bad ∨ validType (w / 2 ^ 24) = false) → False) :=
  ⟨fun h => h (st 3) (0) (0x00000000#32) (by unfold State.ready; decide) (by decide) (by decide),
   fun h => h (st 2) (0) (0x00000000#32) (by unfold State.ready; decide) (by decide) (by decide),
   fun h => h (st 2) (0) (0x00000000#32) (by unfold State.ready; decide) (by decide) (by decide),
   fun h => h (st 2) (0) (0x00000000#32) (by unfold State.ready; decide) (by decide) (by decide),
   fun h => h (st 2) (0) (0x00000000#32) (by unfold State.ready; decide) (by decide) (by decide),
   fun h => h (st 2) (0) (0x00000000#32) (by unfold State.ready; decide) (by decide) (by decide),
   fun h => h (st 2) (0) (0x00000000#32) (by unfold State.ready; decide) (by decide) (by decide),
   fun h => h (st 2) (0) (0x00000000#32) (by unfold State.ready; decide) (by decide) (by decide),
   fun h => h (st 4) (0) (0x00000000#32) (by unfold State.ready; decide) (by decide) (by decide)⟩

theorem witness_RequestHeld :
    ¬ (∀ (s : State) (m : Masks), s.reqNow = some m → s.boot = .done → False) ∧
    ¬ (∀ (s : State) (m : Masks), s.reqNow = some m →
        ∀ (rest : List FieldMsg) (di : Word) (ts : BitVec 64) (st : BitVec 224) (ctr : List Word) (carry : BitVec 12) (id : Word) (re : BitVec 8) (sc : BitVec 8) (he : BitVec 16) (sa : Bool) (ok : Bool) (fr : Bool),
        s.hrxMsgs = .inImage di ts st ctr carry id re sc he sa ok fr :: rest → False) :=
  ⟨fun h => h (st 11) ({ rst := 0x0005#16, crst := 0x003#12, dclr := 0x0009#16 }) (by decide) (by decide),
   fun h => h (st 12) ({ rst := 0x0000#16, crst := 0x003#12, dclr := 0x0000#16 })
       (by decide) ([]) (0x00000001#32) (0x0000000000000001#64) (0x00000000000000000000000000000000000000000000000000000001#224) ([0x00000001#32]) (0x001#12) (0x00000001#32) (0x01#8) (0x01#8) (0x0001#16) (true) (true) (true)
       (by decide)⟩

theorem witness_SettMirror :
    ¬ (∀ (s : State), ∀ (m : Nat), m < 4 → False) ∧
    ¬ (∀ (s : State), ∀ (intact : Bool), s.sett.on = true → False) :=
  ⟨fun h => h (st 0) (0) (by decide),
   fun h => h (st 0) (true) (by decide)⟩

theorem witness_ClockRollover :
    ¬ (∀ (s : State),
        calOf s.rtc.secs = { y := 399, mon := 12, day := 31, wday := (calOf s.rtc.secs).wday, hour := 23, min := 59, sec := 59 } →
        s.rtc.secs < secondsIn400 → False) :=
  fun h => h (st 0) (by decide +kernel) (by decide)

end Sys2Proof.Tests.General
end

/-! PROOFS of the family 00_scope: the step of a block with nothing waiting. -/

namespace Sys2Proof.Machine

/-- An empty queue makes a step a lane cycle of idling. -/
theorem step_of_pending_nil {s : State} (h : s.pending = []) : step s = .next s.idle := by
  simp only [step, h]

/-- Idling writes the time alone, and adds the lane cycle of the clock mode in twelfths of a nanosecond (00 R7). -/
theorem State.idle_eq (s : State) : s.idle = { s with time := s.time + if s.warm then 20 else 15 } :=
  rfl

/-- Settles O2: the step idles, and idling adds one lane cycle to the time. -/
theorem idleStep : Obligations.IdleStep := by
  intro s hpending
  rw [step_of_pending_nil hpending, State.idle_eq]

end Sys2Proof.Machine

/-! PROOFS of the family 01_architecture: the supply of the field die. -/

namespace Sys2Proof.Machine

theorem Answers.mono {i : Instr} {s : State} {P Q : State → Prop} (h : Answers i s P) (hPQ : ∀ t, P t → Q t) : Answers i s Q :=
  h.imp fun _ ⟨he, hp⟩ => ⟨he, hPQ _ hp⟩

/-! ### The table of the output switches (09 R345) -/

/-- The safe value of DOn where its switch stands at `w`; the value hold is the only reading of the switch in the table. -/
def Field.safeSwitch (f : Field) (n : Nat) (w : Switch) : Switch :=
  match f.safeOf n with
  | 1 => .on
  | 2 => if f.everCfgMatch ∧ w = .on then .on else .off
  | _ => .off

/-- What the first row of 09 R345 that applies to DOn gives, where it is not the safe value. -/
def Field.drivenSwitch (f : Field) (n : Nat) : Option Switch :=
  let l := f.out (f.leader n)
  let level := fun (b : Bool) => some (if b then Switch.on else Switch.off)
  let cmd := if f.everCfgMatch then l.cmd else .safe
  if (f.out n).latched then some .off
  else if f.lstate = .missing then some .off
  else if f.shared n ∧ (cmd = .pdrive ∨ f.safeact) then some .partner
  else if f.safeact then none
  else match cmd with
    | .safe | .pdrive => none
    | .forced => level l.val
    | .run => level (if f.isPlaced (f.leader n) then l.placed else l.val)

/-- The model's table of 09 R345 in these two parts. -/
theorem Field.switchOf_eq (f : Field) (n : Nat) :
    f.switchOf n = (f.drivenSwitch n).getD (f.safeSwitch n (f.out n).sw) := by
  unfold Field.switchOf Field.drivenSwitch
  dsimp only
  generalize (if f.everCfgMatch = true then (f.out (f.leader n)).cmd else OutCmd.safe) = cmd
  split
  · rfl
  split
  · rfl
  split
  · rfl
  split
  · rfl
  cases cmd
  case safe => rfl
  case pdrive => rfl
  case forced => rfl
  case run => exact (apply_ite (fun b : Bool => if b then Switch.on else .off) ..).symm

/-- What a change of a channel's switch leaves of its record. -/
def OutCh.kept (o : OutCh) : OutCh := { o with sw := .off, extdrv := false, offAt := none, onCycles := [] }

/-- The driven rows read no switch and nothing that a change of a switch writes. -/
theorem Field.drivenSwitch_congr {f : Field} {outs : SMap OutCh} {q : List DiagEnt} {d : BitVec 8}
    (h : ∀ k, (outs.get (fun _ => {}) k).kept = (f.out k).kept) (n : Nat) :
    Field.drivenSwitch { f with outs := outs, diagq := q, dovf := d } n = f.drivenSwitch n := by
  have hout : ∀ k, Field.out { f with outs := outs, diagq := q, dovf := d } k = outs.get (fun _ => {}) k := fun _ => rfl
  have hleader : Field.leader { f with outs := outs, diagq := q, dovf := d } n = f.leader n := rfl
  have hlatched : ∀ k, (outs.get (fun _ => {}) k).latched = (f.out k).latched := fun k => (congrArg OutCh.latched (h k) :)
  have hcmd : ∀ k, (outs.get (fun _ => {}) k).cmd = (f.out k).cmd := fun k => (congrArg OutCh.cmd (h k) :)
  have hval : ∀ k, (outs.get (fun _ => {}) k).val = (f.out k).val := fun k => (congrArg OutCh.val (h k) :)
  have hplaced : ∀ k, (outs.get (fun _ => {}) k).placed = (f.out k).placed := fun k => (congrArg OutCh.placed (h k) :)
  simp only [Field.drivenSwitch, hout, hleader, hlatched, hcmd, hval, hplaced]
  rfl

/-- Without L+ every switch is off (09 R355). -/
theorem Field.switchOf_of_missing {f : Field} (h : f.lstate = .missing) (n : Nat) : f.switchOf n = .off := by
  simp only [Field.switchOf, h, if_true, ite_self]

/-- A channel that has taken its safe value keeps it. -/
theorem Field.safeSwitch_safeSwitch (f : Field) (n : Nat) (w : Switch) :
    f.safeSwitch n (f.safeSwitch n w) = f.safeSwitch n w := by
  unfold Field.safeSwitch
  split
  · rfl
  · by_cases h : f.everCfgMatch ∧ w = .on
    · simp [h]
    · simp [h]
  · rfl

/-! ### What each operation leaves alone -/

/-- A DIAG entry writes the queue of entries and the count of dropped ones (09 R340). -/
theorem Field.diagnose_frame (f : Field) (set : Bool) (code : Nat) (param : BitVec 8) (chan : Nat) (time : BitVec 64) :
    ∃ q d, f.diagnose set code param chan time = { f with diagq := q, dovf := d } := by
  unfold Field.diagnose
  split
  · exact ⟨_, f.dovf, rfl⟩
  · exact ⟨f.diagq, _, rfl⟩

/-- A DIAG entry enters a queue with room for it. -/
theorem Field.diagnose_of_room {f : Field} (h : f.diagq.length < 256) (set : Bool) (code : Nat) (param : BitVec 8)
    (chan : Nat) (time : BitVec 64) :
    f.diagnose set code param chan time = { f with diagq := f.diagq ++ [⟨set, code, param, chan, time⟩] } :=
  if_pos h

/-- `g` is `f` with the record `o` for channel n; beside it only the diagnosis queue may differ. -/
structure Field.OneOut (f g : Field) (n : Nat) (o : OutCh) : Prop where
  frame : ∃ outs q d, g = { f with outs := outs, diagq := q, dovf := d }
  out : ∀ k, g.out k = if k = n then o else f.out k

theorem Field.OneOut.refl (f : Field) (n : Nat) : f.OneOut f n (f.out n) where
  frame := ⟨_, _, _, rfl⟩
  out k := by
    split
    · next h => rw [h]
    · rfl

theorem Field.OneOut.modOut {f g : Field} {n : Nat} {o : OutCh} (h : f.OneOut g n o) (u : OutCh → OutCh) :
    f.OneOut (g.modOut n u) n (u o) where
  frame := by
    obtain ⟨_, q, d, rfl⟩ := h.frame
    exact ⟨_, q, d, rfl⟩
  out k := by
    have hn : g.out n = o := (h.out n).trans (if_pos rfl)
    have hk : (g.modOut n u).out k = if k = n then u (g.out n) else g.out k := SMap.get_set ..
    rw [hk, hn, h.out]
    split <;> rfl

theorem Field.OneOut.diagnose {f g : Field} {n : Nat} {o : OutCh} (h : f.OneOut g n o) (set : Bool) (code : Nat)
    (param : BitVec 8) (chan : Nat) (time : BitVec 64) : f.OneOut (g.diagnose set code param chan time) n o := by
  obtain ⟨q, d, hg⟩ := g.diagnose_frame set code param chan time
  rw [hg]
  refine ⟨?_, h.out⟩
  obtain ⟨outs, _, _, rfl⟩ := h.frame
  exact ⟨outs, q, d, rfl⟩

/-- A channel that follows the table takes its switch, and keeps what no change of a switch writes. -/
theorem State.refreshOut_spec (s : State) (n : Nat) :
    ∃ f o, s.refreshOut n = { s with field := f } ∧ s.field.OneOut f n o ∧ o.kept = (s.field.out n).kept ∧
      o.sw = s.field.switchOf n := by
  have hsame := Field.OneOut.refl s.field n
  unfold State.refreshOut
  dsimp only
  split
  · next h => exact ⟨_, _, rfl, hsame, rfl, h.symm⟩
  split
  · exact ⟨_, _, rfl, ((hsame.modOut _).modOut _).diagnose .., rfl, rfl⟩
  · exact ⟨_, _, rfl, hsame.modOut _, rfl, rfl⟩

/-- The channels `ns` follow the table of 09 R345: in `t` each has the switch that `s` gives it, and beside the switches only
what a change of a switch writes may differ. -/
structure Refreshed (ns : List Nat) (s t : State) : Prop where
  frame : ∃ outs q d, t = { s with field := { s.field with outs := outs, diagq := q, dovf := d } }
  kept : ∀ k, (t.field.out k).kept = (s.field.out k).kept
  sw : ∀ k, (t.field.out k).sw = if k ∈ ns then s.field.switchOf k else (s.field.out k).sw

/-- A channel that has taken its switch asks for the same switch again. -/
theorem Refreshed.switchOf {ns : List Nat} {s t : State} (h : Refreshed ns s t) (n : Nat) :
    t.field.switchOf n = s.field.switchOf n := by
  have hsw := h.sw n
  obtain ⟨⟨outs, q, d, rfl⟩, hkept, -⟩ := h
  have hsafe : ∀ w, Field.safeSwitch { s.field with outs := outs, diagq := q, dovf := d } n w = s.field.safeSwitch n w :=
    fun _ => rfl
  rw [Field.switchOf_eq, Field.drivenSwitch_congr hkept, hsafe, hsw, Field.switchOf_eq]
  cases s.field.drivenSwitch n with
  | some w => rfl
  | none =>
    dsimp only [Option.getD_none]
    split
    · exact Field.safeSwitch_safeSwitch ..
    · rfl

theorem Refreshed.nil (s : State) : Refreshed [] s s where
  frame := ⟨_, _, _, rfl⟩
  kept _ := rfl
  sw _ := rfl

theorem State.refreshOut_refreshed (s : State) (n : Nat) : Refreshed [n] s (s.refreshOut n) := by
  obtain ⟨f, o, hf, hone, hkept, hsw⟩ := s.refreshOut_spec n
  rw [hf]
  refine ⟨?_, fun k => ?_, fun k => ?_⟩
  · obtain ⟨outs, q, d, rfl⟩ := hone.frame
    exact ⟨outs, q, d, rfl⟩
  · rw [hone.out]
    split
    · next h => rw [h, hkept]
    · rfl
  · rw [hone.out]
    by_cases h : k = n <;> simp [h, hsw]

theorem Refreshed.cons {n : Nat} {ns : List Nat} {s t : State} (h : Refreshed ns (s.refreshOut n) t) :
    Refreshed (n :: ns) s t := by
  have hn := s.refreshOut_refreshed n
  refine ⟨?_, fun k => (h.kept k).trans (hn.kept k), fun k => ?_⟩
  · obtain ⟨_, _, _, hs⟩ := hn.frame
    obtain ⟨outs, q, d, ht⟩ := h.frame
    exact ⟨outs, q, d, by rw [ht, hs]⟩
  · rw [h.sw, hn.switchOf, hn.sw]
    by_cases hk : k ∈ ns <;> simp [hk]

/-- All sixteen channels follow the table, one after another. -/
theorem State.refreshOuts_refreshed (s : State) : Refreshed (List.range 16) s s.refreshOuts := by
  unfold State.refreshOuts
  generalize List.range 16 = ns
  induction ns generalizing s with
  | nil => exact Refreshed.nil s
  | cons n ns ih => exact (ih (s.refreshOut n)).cons

/-- After the refresh every switch stands as the table gives it (09 R345). -/
theorem State.refreshOuts_sw (s : State) {n : Nat} (hn : n < 16) :
    (s.refreshOuts.field.out n).sw = s.refreshOuts.field.switchOf n := by
  rw [s.refreshOuts_refreshed.switchOf, s.refreshOuts_refreshed.sw, if_pos (List.mem_range.mpr hn)]

/-- The switches' refresh writes the field die alone. -/
theorem State.refreshOuts_field (s : State) : s.refreshOuts = { s with field := s.refreshOuts.field } := by
  obtain ⟨_, _, _, h⟩ := s.refreshOuts_refreshed.frame
  rw [h]

/-- The switches' refresh leaves the supply and the safe state alone. -/
theorem State.refreshOuts_supply (s : State) :
    s.refreshOuts.field.lstate = s.field.lstate ∧ s.refreshOuts.field.high = s.field.high ∧
      s.refreshOuts.field.safeact = s.field.safeact ∧ s.refreshOuts.field.safeWait = s.field.safeWait ∧
      s.refreshOuts.field.sscnt = s.field.sscnt := by
  obtain ⟨_, _, _, h⟩ := s.refreshOuts_refreshed.frame
  rw [h]
  exact ⟨rfl, rfl, rfl, rfl, rfl⟩

/-! ### What an operation on the axes and the channels leaves alone -/

/-- `g` is `f` but for its axes, its channels and the records that wait for BUS_RX_NOTE. -/
def Field.AxesBusOnly (f g : Field) : Prop :=
  ∃ axes cans ps, g = { f with axes := axes, cans := cans, busPend := ps }

namespace Field.AxesBusOnly

variable {f g : Field}

theorem refl (f : Field) : f.AxesBusOnly f :=
  ⟨_, _, _, rfl⟩

theorem modAxis (h : f.AxesBusOnly g) (x : Nat) (u : Axis → Axis) : f.AxesBusOnly (g.modAxis x u) := by
  obtain ⟨_, _, _, rfl⟩ := h
  exact ⟨_, _, _, rfl⟩

theorem modCan (h : f.AxesBusOnly g) (c : Nat) (u : Can → Can) : f.AxesBusOnly (g.modCan c u) := by
  obtain ⟨_, _, _, rfl⟩ := h
  exact ⟨_, _, _, rfl⟩

theorem noteObject (h : f.AxesBusOnly g) (c i : Nat) (new : Bool) (n : Nat) : f.AxesBusOnly (g.noteObject c i new n) := by
  obtain ⟨_, _, _, rfl⟩ := h
  exact ⟨_, _, _, rfl⟩

theorem noteDone (h : f.AxesBusOnly g) (c i : Nat) (r : BitVec 3) (n : Nat) : f.AxesBusOnly (g.noteDone c i r n) := by
  obtain ⟨_, _, _, rfl⟩ := h
  exact ⟨_, _, _, rfl⟩

theorem noteStatus (h : f.AxesBusOnly g) (c : Nat) : f.AxesBusOnly (g.noteStatus c) := by
  unfold Field.noteStatus
  split
  · exact h
  · obtain ⟨_, _, _, rfl⟩ := h
    exact ⟨_, _, _, rfl⟩

theorem channel (h : f.AxesBusOnly g) (c : Nat) (u : Can → Can) : f.AxesBusOnly (g.channel c u) := by
  unfold Field.channel
  dsimp only
  split
  · exact h.modCan c u
  · exact (h.modCan c u).noteStatus c

theorem finish (h : f.AxesBusOnly g) (c b : Nat) (r : BitVec 3) : f.AxesBusOnly (g.finish c b r) :=
  (h.modCan c _).noteDone ..

/-- Transmission stops or resumes in the channel alone (10 R386). -/
theorem refreshTx (h : f.AxesBusOnly g) (c : Nat) : f.AxesBusOnly (g.refreshTx c) := by
  unfold Field.refreshTx
  split
  · exact h.channel c _
  · refine List.foldlRecOn _ _ (h.channel c _) fun k hk b _ => ?_
    split
    · exact hk
    split
    · exact hk.modCan c _
    · exact hk.finish ..

/-- The axes take their descriptors (05 R191). -/
theorem bindAxes (h : f.AxesBusOnly g) (axes : List Word) (now : Nat) : f.AxesBusOnly (g.bindAxes axes now) := by
  refine List.foldlRecOn _ _ h fun k hk x _ => ?_
  unfold Field.bindAxis
  dsimp only
  split
  · exact (hk.modAxis x _).modAxis 0 _
  · exact hk.modAxis x _

/-- The channels take their descriptors (10 R366). -/
theorem bindBus (h : f.AxesBusOnly g) (fbus : List Word) : f.AxesBusOnly (g.bindBus fbus) := by
  refine List.foldlRecOn _ _ h fun k hk c _ => ?_
  refine noteStatus (List.foldlRecOn _ _ (hk.channel c _) fun j hj n _ => ?_) c
  split
  · exact hj.noteObject ..
  · exact hj

end Field.AxesBusOnly

/-! ### The safe-state timeout (09 R342) -/

/-- SSTO in ns, as the configuration's word 0 gives it. -/
theorem Field.ssto_eq (f : Field) :
    f.ssto = (if f.cfgok then (wordAt f.cfg 0).toNat % 1024 else 50) * 1000000 := by
  unfold Field.ssto Field.cfgWord
  split <;> simp [fld]

theorem safeStateTimeoutOp_of_not_due {s : State}
    (h : s.field.powered = false ∨ s.field.safeWait = true ∨ s.fieldNs < s.field.lastAccept + s.field.ssto) :
    safeStateTimeoutOp s = s := by
  refine if_pos ?_
  simpa using h

/-- SSTO after the latest accepted frame the safe state is entered and counted with its DIAG entry, the channels' transmission
stops, and the switches follow the table. -/
theorem safeStateTimeoutOp_of_due {s : State} (hp : s.field.powered = true) (hw : s.field.safeWait = false)
    (ht : s.field.lastAccept + s.field.ssto ≤ s.fieldNs) :
    ∃ f q d, safeStateTimeoutOp s = State.refreshOuts { s with field := f } ∧ Field.AxesBusOnly
      { s.field with safeact := true, safeWait := true, sscnt := s.field.sscnt + 1, diagq := q, dovf := d } f := by
  have hdue : ¬ ((!s.field.powered) = true ∨ s.field.safeWait = true ∨ s.fieldNs < s.field.lastAccept + s.field.ssto) := by
    simpa [hp, hw] using ht
  obtain ⟨q, d, hdiag⟩ := Field.diagnose_frame { s.field with safeact := true, safeWait := true, sscnt := s.field.sscnt + 1 }
    true 0x07 (s.field.sscnt + 1) 0x41 s.fieldAx0
  refine ⟨_, q, d, if_neg hdue, ?_⟩
  rw [hdiag]
  exact ((Field.AxesBusOnly.refl _).refreshTx 0).refreshTx 1

theorem answers_safeStateTimeout_of_due {s : State} (hp : s.field.powered = true) (hw : s.field.safeWait = false)
    (ht : s.field.lastAccept + s.field.ssto ≤ s.fieldNs) :
    Answers .safeStateTimeout s (fun t => t.field.safeact = true ∧ t.field.safeWait = true ∧
      t.field.sscnt = s.field.sscnt + 1 ∧ (∀ n, n < 16 → (t.field.out n).sw = t.field.switchOf n) ∧
      t = { s with field := t.field }) := by
  obtain ⟨f, q, d, hop, axes, cans, ps, hf⟩ := safeStateTimeoutOp_of_due hp hw ht
  obtain ⟨-, -, hact, hwait, hcnt⟩ := State.refreshOuts_supply { s with field := f }
  have hkept := State.refreshOuts_field { s with field := f }
  refine ⟨_, congrArg Host.Outcome.next hop, ?_, ?_, ?_, fun n => State.refreshOuts_sw _, hkept⟩
  · rw [hact, hf]
  · rw [hwait, hf]
  · rw [hcnt, hf]

theorem answers_safeStateTimeout_of_not_due {s : State}
    (h : s.field.powered = false ∨ s.field.safeWait = true ∨ s.fieldNs < s.field.lastAccept + s.field.ssto) :
    Answers .safeStateTimeout s (fun t => t = s) :=
  ⟨_, rfl, safeStateTimeoutOp_of_not_due h⟩

/-! ### The reset of the field die (09 R344) -/

/-- What a reset keeps of the field die before its axes and channels take the stored configuration. -/
def Field.afterReset (f : Field) (up : Bool) (now : Nat) : Field :=
  { powered := up, clk := f.clk, epoch := f.epoch + 1, cfgok := f.cfgok, cfg := f.cfg, cfgAxes := f.cfgAxes
    cfgFbus := f.cfgFbus, cfgid := f.cfgid, sscnt := f.sscnt, frst := true, lastAccept := now }

/-- The stored configuration, where there is one, binds the axes and the channels alone. -/
theorem Field.axesBusOnly_bindStored (f : Field) (now : Nat) :
    f.AxesBusOnly (if f.cfgok then (f.bindAxes f.cfgAxes now).bindBus f.cfgFbus else f) := by
  split
  · exact ((Field.AxesBusOnly.refl f).bindAxes ..).bindBus _
  · exact .refl f

/-- A reset leaves that, the configured axes and channels, and one DIAG entry (09 R340). -/
theorem fieldDieResetOp_eq (up : Bool) (s : State) :
    ∃ axes cans ps, fieldDieResetOp up s = { s with field := { s.field.afterReset up s.fieldNs with
      axes := axes, cans := cans, busPend := ps, diagq := [⟨true, 9, 0, 0x41, 0⟩] } } := by
  obtain ⟨axes, cans, ps, hbind⟩ := (s.field.afterReset up s.fieldNs).axesBusOnly_bindStored s.fieldNs
  refine ⟨axes, cans, ps, congrArg (fun f => { s with field := f }) ?_⟩
  refine (congrArg (·.diagnose true 0x09 0 0x41 0) hbind).trans (Field.diagnose_of_room ?_ ..)
  exact Nat.succ_pos 255

theorem answers_fieldDieReset (up : Bool) (s : State) :
    Answers (.fieldDieReset up) s (fun t => ∃ axes cans ps, t = { s with field := { s.field.afterReset up s.fieldNs with
      axes := axes, cans := cans, busPend := ps, diagq := [⟨true, 9, 0, 0x41, 0⟩] } }) :=
  ⟨_, rfl, fieldDieResetOp_eq up s⟩

/-! ### The states of the supply (09 R355) -/

/-- The supply state after a transition: OK is reached from LOW alone. -/
def LState.after (l : LState) (c : SupplyChange) : LState :=
  match c with
  | .toOk => if l = .low then .ok else l
  | .toLow => .low
  | .toMissing => .missing
  | .highOn | .highOff => l

/-- The HIGH flag after a transition. -/
def highAfter (h : Bool) (c : SupplyChange) : Bool :=
  match c with
  | .highOn => true
  | .highOff => false
  | .toOk | .toLow | .toMissing => h

/-- A transition sets the supply's state and flag, and then the switches follow the table. -/
theorem supplyTransitionOp_eq (c : SupplyChange) (s : State) :
    supplyTransitionOp c s = State.refreshOuts
      { s with field := { s.field with lstate := s.field.lstate.after c, high := highAfter s.field.high c } } := by
  unfold supplyTransitionOp
  refine congrArg (fun f => State.refreshOuts { s with field := f }) ?_
  cases c
  case toOk =>
    by_cases h : s.field.lstate = .low
    · simp only [LState.after, highAfter, h, if_true]
    · simp only [LState.after, highAfter, h, if_false]
  case toLow =>
    cases h : s.field.lstate
    · rfl
    · simp [LState.after, highAfter, ← h]
    · rfl
  all_goals rfl

/-- With L+ there, a transition has its effect, and every switch stands as the table gives it. -/
theorem answers_supplyTransition {s : State} (hp : s.field.powered = true) (c : SupplyChange) :
    Answers (.supplyTransition c) s (fun t => t.field.lstate = s.field.lstate.after c ∧
      t.field.high = highAfter s.field.high c ∧ (∀ n, n < 16 → (t.field.out n).sw = t.field.switchOf n) ∧
      t = { s with field := t.field }) := by
  obtain ⟨f, hop, hlstate, hhigh⟩ : ∃ f, s.onField (supplyTransitionOp c) = State.refreshOuts { s with field := f } ∧
      f.lstate = s.field.lstate.after c ∧ f.high = highAfter s.field.high c :=
    ⟨_, (if_pos hp).trans (supplyTransitionOp_eq c s), rfl, rfl⟩
  obtain ⟨hl, hh, -⟩ := State.refreshOuts_supply { s with field := f }
  have hkept := State.refreshOuts_field { s with field := f }
  exact ⟨_, congrArg Host.Outcome.next hop, hl.trans hlstate, hh.trans hhigh, fun n => State.refreshOuts_sw _, hkept⟩

/-! ### The field die without L+ (01 R47) -/

/-- A command that acts on the field die alone leaves the state where the die is without supply. -/
theorem answers_still_of_onField {i : Instr} {s : State} {f : State → State} (hp : s.field.powered = false)
    (hi : exec i s = .next (s.onField f)) : Answers i s (fun t => t = s) :=
  ⟨_, hi, if_neg (by simp [hp])⟩

theorem answers_fieldCycleStart_of_unpowered {s : State} (hp : s.field.powered = false) (mv lo rb : BitVec 16) :
    Answers (.fieldCycleStart mv lo rb) s (fun t => t = s) :=
  ⟨_, rfl, if_pos (by simp [hp])⟩

/-- Settles O37: with supply the operations enter the safe state, reset the die and follow L+; without supply each command of
the die stands behind the test of L+. -/
theorem fieldWithoutSupply : Obligations.FieldWithoutSupply := by
  refine ⟨fun s => ?_, fun s hp => ?_⟩
  · dsimp only
    rw [← Field.ssto_eq]
    refine ⟨answers_safeStateTimeout_of_due, answers_safeStateTimeout_of_not_due, fun up => ?_, fun hp => ⟨?_, ?_, ?_, ?_, ?_⟩⟩
    · refine (answers_fieldDieReset up s).mono ?_
      rintro _ ⟨axes, cans, ps, rfl⟩
      exact ⟨rfl, rfl, rfl, rfl, rfl, rfl, rfl, rfl, rfl, rfl, rfl, rfl, rfl, rfl, rfl⟩
    · exact (answers_supplyTransition hp .toOk).mono fun t ⟨hl, _, _, hk⟩ => ⟨hl, hk⟩
    · exact (answers_supplyTransition hp .toLow).mono fun t ⟨hl, _, _, hk⟩ => ⟨hl, hk⟩
    · exact (answers_supplyTransition hp .toMissing).mono fun t ⟨hl, _, hsw, hk⟩ =>
        ⟨hl, fun n hn => (hsw n hn).trans (Field.switchOf_of_missing hl n), hk⟩
    · exact (answers_supplyTransition hp .highOn).mono fun t ⟨hl, hh, _, hk⟩ => ⟨hh, hl, hk⟩
    · exact (answers_supplyTransition hp .highOff).mono fun t ⟨hl, hh, _, hk⟩ => ⟨hh, hl, hk⟩
  · have still : ∀ {i : Instr} {f : State → State}, exec i s = .next (s.onField f) → Answers i s (fun t => t = s) :=
      fun hi => answers_still_of_onField hp hi
    dsimp only
    refine ⟨?axes, ?home, ?sync, ?motion, ?actions, ?write, ?disable, ?preset, ?schedHome, ?safe, ?cycle, ?supply, ?latch,
      ?slot, ?extdrv, ?filter, ?counter, ?bus⟩
    case axes => exact fun _ _ _ => still rfl
    case home => exact fun _ => still rfl
    case sync => exact fun _ => still rfl
    case motion => exact fun _ => ⟨still rfl, still rfl, still rfl⟩
    case actions => exact fun _ => ⟨still rfl, still rfl, still rfl, still rfl, still rfl, still rfl, still rfl, still rfl⟩
    case write => exact still rfl
    case disable => exact still rfl
    case preset => exact still rfl
    case schedHome => exact still rfl
    case safe => exact answers_safeStateTimeout_of_not_due (.inl hp)
    case cycle => exact answers_fieldCycleStart_of_unpowered hp
    case supply => exact fun _ => still rfl
    case latch => exact fun _ _ => still rfl
    case slot => exact fun _ _ _ => still rfl
    case extdrv => exact fun _ => ⟨still rfl, still rfl⟩
    case filter => exact fun _ _ => still rfl
    case counter => exact fun _ _ => still rfl
    case bus => exact fun _ => ⟨still rfl, still rfl, still rfl, still rfl, still rfl, still rfl, still rfl, still rfl⟩

end Sys2Proof.Machine

/-! PROOFS of the family 03_function_units: timers, counters and edge detectors. -/

namespace Sys2Proof.Machine

/-! ### The trigger ports of the unit (03 R133) -/

/-- The trigger port of an operation of the unit. -/
def IuOp.port : IuOp → Nat
  | .ton => 0x204 | .tof => 0x205 | .tp => 0x206 | .ctu => 0x207 | .ctd => 0x208 | .ctud => 0x209
  | .rtrig => 0x20A | .ftrig => 0x20B | .clr => 0x20C

theorem iuOpOf_port (op : IuOp) : iuOpOf op.port = some op := by cases op <;> rfl

theorem mayWrite_program_port (op : IuOp) : mayWrite .program op.port = true := by cases op <;> rfl

theorem getLsbD_narrow {n k : Nat} (hk : k < n) (w : Word) : (narrow n w).getLsbD k = w.getLsbD k := by
  rcases Nat.lt_or_ge k 32 with h | h
  · simp [narrow, BitVec.getLsbD_and, BitVec.getLsbD_ofNat, Nat.testBit_two_pow_sub_one, -BitVec.getLsbD_eq_getElem, hk, h]
  · rw [BitVec.getLsbD_of_ge _ _ h, BitVec.getLsbD_of_ge _ _ h]

/-- The operand bits that an operation evaluates lie inside the width of its port. -/
theorem IuOp.eval_portValue (op : IuOp) (r : IRec) (w : Word) (v : BitVec 64) :
    op.eval r (portValue op.port w) v = op.eval r w v := by
  cases op with
  | ton => exact congrArg (r.ton · v) (getLsbD_narrow (by decide) w)
  | tof => exact congrArg (r.tof · v) (getLsbD_narrow (by decide) w)
  | tp => exact congrArg (r.tp · v) (getLsbD_narrow (by decide) w)
  | rtrig => exact congrArg r.rtrig (getLsbD_narrow (by decide) w)
  | ftrig => exact congrArg r.ftrig (getLsbD_narrow (by decide) w)
  | ctu =>
    show r.ctu (narrow 2 w) = r.ctu w
    simp only [IRec.ctu, getLsbD_narrow, Nat.reduceLT]
  | ctd =>
    show r.ctd (narrow 2 w) = r.ctd w
    simp only [IRec.ctd, getLsbD_narrow, Nat.reduceLT]
  | ctud =>
    show r.ctud (narrow 4 w) = r.ctud w
    simp only [IRec.ctud, getLsbD_narrow, Nat.reduceLT]
  | clr => rfl

/-- A record of a valid place and AXIS is accepted by the trigger of its TYPE, and by `iu.clr` where its TYPE is valid (03 R134). -/
theorem IuOp.refuses_eq_false {op : IuOp} {region ptr : Nat} {r : IRec} (h8 : ptr % 8 = 0) (hin : inSlice region ptr = true)
    (hax : r.axis ≤ 7) (ht : if op = .clr then validType r.type = true else r.type = op.type) :
    op.refuses region ptr r = false := by
  have hplace : ¬ 7 < r.axis := by omega
  cases op <;> simpa [IuOp.refuses, h8, hin, hplace] using ht

/-! ### Stores of words -/

/-- Words stored one after another. -/
def State.storeWords (s : State) (es : List (Nat × Word)) : State := es.foldl (fun s e => s.memSet e.1 e.2) s

@[simp] theorem State.memGet_memSet (s : State) (a b : Nat) (v : Word) :
    (s.memSet a v).memGet b = if b = a then storedValue a v else s.memGet b := SMap.get_set ..

theorem State.storeWords_eq (es : List (Nat × Word)) (s : State) : s.storeWords es = { s with mem := (s.storeWords es).mem } := by
  induction es generalizing s with
  | nil => rfl
  | cons e es ih => exact ih (s.memSet e.1 e.2)

/-- Memory reads as `g` once every word in which it differed from `g` is stored. -/
theorem State.memGet_storeWords (g : Nat → Word) (es : List (Nat × Word)) (s : State)
    (hval : ∀ e ∈ es, storedValue e.1 e.2 = g e.1) (hrest : ∀ a, (∀ e ∈ es, e.1 ≠ a) → s.memGet a = g a) (a : Nat) :
    (s.storeWords es).memGet a = g a := by
  induction es generalizing s with
  | nil => exact hrest a (by simp)
  | cons e es ih =>
    refine ih (s.memSet e.1 e.2) (fun d hd => hval d (.tail _ hd)) (fun b hb => ?_)
    rw [State.memGet_memSet]
    split
    · next h => rw [h, hval e (.head _)]
    · next h => exact hrest b (List.forall_mem_cons.2 ⟨Ne.symm h, hb⟩)

theorem State.memGetList_eq_map (s : State) (a n : Nat) : s.memGetList a n = (List.range n).map (fun k => s.memGet (a + k)) := by
  induction n generalizing a with
  | zero => rfl
  | succ n ih =>
    rw [List.range_succ_eq_map, List.map_cons, List.map_map]
    exact congrArg (s.memGet a :: ·) ((ih (a + 1)).trans (by simp [Nat.add_assoc, Nat.add_comm 1, State.memGet]))

theorem State.wordAt_memGetList (s : State) (a : Nat) {n k : Nat} (hk : k < n) : wordAt (s.memGetList a n) k = s.memGet (a + k) := by
  simp [wordAt, State.memGetList_eq_map, hk]

/-- Word data keeps whole words (02 R68, R69). -/
theorem storedValue_of_word_data {a : Nat} (h : 0x200000 ≤ a) (v : Word) : storedValue a v = v := by
  have hplace : (place a).isBit = false := by
    unfold place
    iterate 8 rw [if_neg (by omega)]
    split
    · split <;> rfl
    · rfl
  simp [storedValue, hplace]

theorem inSlice_le {r a : Nat} (h : inSlice r a = true) : 0x200000 ≤ a := by
  have hbase := (of_decide_eq_true h).1
  simp only [sliceBase] at hbase
  omega

/-! ### The words that a write-back stores (03 R140) -/

/-- The words of the record at `ptr` that differ between `old` and `new`. -/
def changedWords (ptr : Nat) (old new : List Word) : List (Nat × Word) :=
  (List.range 8).filterMap (fun k => if wordAt new k = wordAt old k then none else some (ptr + k, wordAt new k))

theorem mem_changedWords {ptr : Nat} {old new : List Word} {e : Nat × Word} :
    e ∈ changedWords ptr old new ↔ ∃ k, k < 8 ∧ wordAt new k ≠ wordAt old k ∧ e = (ptr + k, wordAt new k) := by
  simp [changedWords, eq_comm]

/-- Memory with the record `ws` at `ptr`. -/
def State.withRecord (s : State) (ptr : Nat) (ws : List Word) (a : Nat) : Word :=
  if ptr ≤ a ∧ a < ptr + 8 then wordAt ws (a - ptr) else s.memGet a

/-- Storing the words that changed puts the whole new record in place, and nothing else. -/
theorem State.memGet_storeWords_changedWords (s : State) {ptr : Nat} (hptr : 0x200000 ≤ ptr) (ws : List Word) (a : Nat) :
    (s.storeWords (changedWords ptr (s.memGetList ptr 8) ws)).memGet a = s.withRecord ptr ws a := by
  refine State.memGet_storeWords (s.withRecord ptr ws) _ s (fun e he => ?_) (fun b hb => ?_) a
  · obtain ⟨k, hk, -, rfl⟩ := mem_changedWords.1 he
    rw [storedValue_of_word_data (by simp only; omega)]
    simp [State.withRecord, hk]
  · unfold State.withRecord
    split
    · next h =>
      obtain ⟨k, rfl⟩ := Nat.exists_eq_add_of_le h.1
      have hk : k < 8 := by omega
      rw [Nat.add_sub_cancel_left]
      refine Decidable.byContradiction fun hne => hb (ptr + k, wordAt ws k) (mem_changedWords.2 ⟨k, hk, ?_, rfl⟩) rfl
      rw [s.wordAt_memGetList ptr hk]
      exact Ne.symm hne
    · rfl

theorem State.memGetList_of_withRecord {s u : State} {ptr : Nat} {ws : List Word} (hlen : ws.length = 8)
    (h : ∀ a, u.memGet a = s.withRecord ptr ws a) : u.memGetList ptr 8 = ws := by
  rw [State.memGetList_eq_map]
  refine List.ext_getElem (by simp [hlen]) (fun k hk _ => ?_)
  have hk8 : k < 8 := by simpa using hk
  simp [h, State.withRecord, hk8, wordAt, hlen]

/-! ### A lane alone with nothing in flight -/

/-- Lane l runs alone, and none of its moves, stores and events waits. -/
structure State.Quiet (s : State) (l : Nat) : Prop where
  solo : s.side l = .solo
  items : (s.lane l).items = []
  blq : (s.lane l).blq = []
  iuq : (s.lane l).iuq = []
  evq : (s.lane l).evq = []

theorem State.ready.quiet {s : State} {l : Nat} (h : s.ready l) : s.Quiet l := by
  obtain ⟨-, solo, items, -, blq, iuq, evq, -, -⟩ := h
  exact ⟨solo, items, blq, iuq, evq⟩

theorem State.Quiet.ownGet {s : State} {l : Nat} (h : s.Quiet l) (a lim : Nat) : s.ownGet l a lim = some (s.memGet a) := by
  simp [State.ownGet, Lane.lastStore, h.items, h.blq, h.iuq]

theorem State.Quiet.recordWordsAt {s : State} {l : Nat} (h : s.Quiet l) (ptr seq : Nat) :
    s.recordWordsAt l ptr seq = some (s.memGetList ptr 8) := by
  simp [State.recordWordsAt, h.ownGet, State.memGetList_eq_map, List.range_succ]

theorem State.Quiet.resolveEv {s : State} {l : Nat} (h : s.Quiet l) (tag : Nat × Nat) (ws : List (BitVec 64)) :
    s.onlyLane (s.resolveEv l tag ws) l ∧ (s.resolveEv l tag ws).lane l = s.lane l := by
  refine ⟨State.onlyLane.set s l _, ?_⟩
  simp only [State.resolveEv, State.modLane, State.lane_setLane, h.evq, List.flatMap_nil]
  rw [← h.evq]

theorem State.memCheck_of_errs_nil {s : State} {r : Nat} (h : (s.region r).errs = []) (l m : Nat) (t : Nat → Bool) (baddr : Nat) :
    s.memCheck l r m t baddr = (s, true) := by
  simp [State.memCheck, State.bitErrors, h]

/-! ### An operation that the unit accepts (03 R135, R140) -/

/-- iu.ptr of a lane. -/
def State.iuPtr (s : State) (l : Nat) : Nat := ((s.lane l).port 0x200).toNat

/-- The record at iu.ptr. -/
def State.iuRecord (s : State) (l : Nat) : IRec := IRec.ofWords (s.memGetList (s.iuPtr l) 8)

/-- The record after an operation at the axis value of the latest latch. -/
def State.iuAfter (s : State) (l : Nat) (op : IuOp) (w : Word) : IRec :=
  op.eval (s.iuRecord l) w ((s.lp (s.lpFor l)).ax.get (fun _ => 0) (s.iuRecord l).axis)

/-- The write-back that an accepted operation leaves waiting. -/
def State.iuPending (s : State) (l : Nat) (op : IuOp) (seq : Nat) (w : Word) : IuPend :=
  let e := s.iuAfter l op w
  { seq := seq, changed := changedWords (s.iuPtr l) (s.memGetList (s.iuPtr l) 8) e.words
    q := e.q, q2 := decide (op = .ctud) && e.qd, et := e.elapsed, st := e.word0 }

theorem State.iuPending_portValue (s : State) (l : Nat) (op : IuOp) (seq : Nat) (w : Word) :
    s.iuPending l op seq (portValue op.port w) = s.iuPending l op seq w := by
  simp only [State.iuPending, State.iuAfter, IuOp.eval_portValue]

/-- The record at iu.ptr lies where the unit reaches it, no bit error stands in the way, and the unit does not refuse it. -/
structure State.IuAccepts (s : State) (l : Nat) (op : IuOp) : Prop where
  errs : (s.region (l / 2)).errs = []
  aligned : s.iuPtr l % 8 = 0
  slice : inSlice (l / 2) (s.iuPtr l) = true
  accepted : op.refuses (l / 2) (s.iuPtr l) (s.iuRecord l) = false

/-- The operation computes at once from the memory words, and its events and its write-back join the lane. -/
theorem State.iuStart_eq {s : State} {l : Nat} {op : IuOp} (hq : s.Quiet l) (ha : s.IuAccepts l op) (seq baddr : Nat)
    (w : Word) (replay : List (BitVec 64)) :
    s.iuStart l op.port seq baddr w replay =
      some ((s.resolveEv l (seq, 0) ((s.iuPending l op seq w).changed.map (fun e => eventWord 1 e.1 e.2))).modLane l
        (fun x => { x with iuq := x.iuq ++ [s.iuPending l op seq w] })) := by
  obtain ⟨herr, h8, hin, hacc⟩ := ha
  have hfill : (List.range 8).foldl
      (fun t k => State.fill t l seq (s.iuPtr l + k) (wordAt (s.memGetList (s.iuPtr l) 8) k)) s = s := by
    simp [List.range_succ, State.fill_solo, hq.solo]
  unfold State.iuStart
  simp only [State.iuPtr, State.iuRecord] at hfill h8 hin hacc
  simp only [hq.solo, h8, hin, reduceCtorEq, if_false, if_true, and_self, false_and, not_true_eq_false, or_self,
    hq.recordWordsAt, iuOpOf_port, hfill, State.memCheck_of_errs_nil herr, Bool.true_eq_false, hacc, Bool.false_eq_true]
  rfl

theorem State.iuStart_of_accepts {s : State} {l : Nat} {op : IuOp} (hq : s.Quiet l) (ha : s.IuAccepts l op) (seq baddr : Nat)
    (w : Word) (replay : List (BitVec 64)) :
    ∃ t, s.iuStart l op.port seq baddr w replay = some t ∧ s.onlyLane t l ∧
      t.lane l = { s.lane l with iuq := [s.iuPending l op seq w] } := by
  obtain ⟨hev, hlane⟩ := hq.resolveEv (seq, 0) ((s.iuPending l op seq w).changed.map (fun e => eventWord 1 e.1 e.2))
  refine ⟨_, State.iuStart_eq hq ha seq baddr w replay, hev.trans (State.onlyLane.set _ l _), ?_⟩
  simp only [State.modLane, State.lane_setLane, hlane, hq.iuq, List.nil_append]

/-! ### The trigger move and the write-back of a ready lane -/

/-- A move that takes effect at a trigger port of the unit starts the operation. -/
theorem State.land_iuTrigger (s : State) (l : Nat) (i : Item) (w : Word) (op : IuOp) (hd : i.dst = op.port) (hu : i.unit = false) :
    s.land l i w = s.iuStart l op.port i.seq i.baddr (portValue op.port w) i.replay := by
  unfold State.land
  simp only [hd, hu, Bool.false_eq_true, if_false, mayWrite_program_port, Bool.not_true]
  cases op <;> rfl

/-- What an operation reads stands outside the moves of its lane. -/
theorem State.onlyLane.iuReads {s t : State} {l n : Nat} (h : s.onlyLane t l) (hl : t.lane l = { s.lane l with seq := n }) :
    t.iuPtr l = s.iuPtr l ∧ t.iuRecord l = s.iuRecord l ∧ t.iuPending l = s.iuPending l := by
  obtain ⟨ht, -⟩ := h
  have hptr : t.iuPtr l = s.iuPtr l := by simp only [State.iuPtr, hl]; rfl
  have hmem : t.memGetList = s.memGetList := by rw [ht]; rfl
  have hlp : t.lp (t.lpFor l) = s.lp (s.lpFor l) := by rw [ht]; rfl
  have hrec : t.iuRecord l = s.iuRecord l := by simp only [State.iuRecord, hptr, hmem]
  exact ⟨hptr, hrec, by funext op seq w; simp only [State.iuPending, State.iuAfter, hptr, hmem, hlp, hrec]⟩

theorem laneTrigger_iu {s : State} {l : Fin 8} {op : IuOp} (hr : s.ready l.val) (ha : s.IuAccepts l.val op) (w : Word) :
    s.onlyLane (laneTrigger op.port l w s) l.val ∧ (laneTrigger op.port l w s).lane l.val =
      { s.lane l.val with
        seq := s.nextSeq l.val
        iuq := [s.iuPending l.val op (64 * s.nextSeq l.val) w] } := by
  have hq := hr.quiet
  refine s.trigger_ready l op.port w _ hr (by cases op <;> rfl) hq.items hq.evq ?_
  intro t i ht hl hd hseq _ _ _ _ hu
  obtain ⟨hptr, hrec, hpend⟩ := ht.iuReads hl
  have hq' : t.Quiet l.val := by
    refine ⟨?solo, ?items, ?blq, ?iuq, ?evq⟩
    case solo => rw [ht.side, hq.solo]
    case items => rw [hl]; exact hq.items
    case blq => rw [hl]; exact hq.blq
    case iuq => rw [hl]; exact hq.iuq
    case evq => rw [hl]; exact hq.evq
  have ha' : t.IuAccepts l.val op := by
    refine ⟨?errs, ?aligned, ?slice, ?accepted⟩
    case errs => rw [ht.1]; exact ha.errs
    case aligned => rw [hptr]; exact ha.aligned
    case slice => rw [hptr]; exact ha.slice
    case accepted => rw [hptr, hrec]; exact ha.accepted
  obtain ⟨u, hu1, hu2, hu3⟩ := State.iuStart_of_accepts hq' ha' i.seq i.baddr (portValue op.port w) i.replay
  refine ⟨u, (t.land_iuTrigger l.val i w op hd hu).trans hu1, ht.trans hu2, ?_⟩
  rw [hu3, hl, hpend, hseq, State.iuPending_portValue]

/-- The result ports after an operation of the unit. -/
def IuPend.ports (q : IuPend) : List (Nat × Word) :=
  [(0x210, bit q.q), (0x211, bit q.q2), (0x212, loWord q.et), (0x213, hiWord q.et), (0x214, q.st)]

/-- The write-back of a lane alone with nothing else in flight. -/
theorem iuWritebackOp_of_single {s : State} {l : Fin 8} {q : IuPend} (hp : regionPresent (l.val / 2) = true)
    (hs : s.side l.val = .solo) (hq : (s.lane l.val).iuq = [q]) (hi : (s.lane l.val).items = []) (he : (s.lane l.val).evq = [])
    (hb : s.storeBefore l.val q.seq = false) :
    (s.storeWords q.changed).onlyLane (iuWritebackOp l s) l.val ∧
      (iuWritebackOp l s).lane l.val = { (s.lane l.val).setPorts q.ports with iuq := [] } := by
  generalize hw : (s.storeWords q.changed).modLane l.val (fun x => { x.setPorts q.ports with iuq := [] }) = w
  have hop : iuWritebackOp l s = w.settle l.val := by
    unfold iuWritebackOp
    simp only [hp, hq, hs, hb, Bool.true_eq_false, Bool.false_eq_true, if_false, reduceCtorEq, and_false]
    rw [← hw]
    rfl
  have hlane : (s.storeWords q.changed).lane l.val = s.lane l.val := by rw [State.storeWords_eq]; rfl
  have hw1 : (s.storeWords q.changed).onlyLane w l.val := by rw [← hw]; exact State.onlyLane.set _ l.val _
  have hw2 : w.lane l.val = { (s.lane l.val).setPorts q.ports with iuq := [] } := by
    rw [← hw]
    simp only [State.modLane, State.lane_setLane, hlane]
  have hws : w.side l.val = .solo := by rw [hw1.side, State.storeWords_eq]; exact hs
  obtain ⟨h1, h2⟩ := w.settle_nil l.val hws (by rw [hw2, Lane.setPorts_eq]; exact he) (by rw [hw2, Lane.setPorts_eq]; exact hi)
  rw [hop]
  exact ⟨hw1.trans h1, h2.trans hw2⟩

/-! ### The order of stores (01 R35) -/

theorem Lane.storeBefore_mono {x : Lane} {m n : Nat} (hmn : m ≤ n) (h : x.storeBefore n = false) : x.storeBefore m = false := by
  simp only [Lane.storeBefore, Bool.or_eq_false_iff, List.any_eq_false, Bool.and_eq_true, decide_eq_true_eq, not_and] at h ⊢
  obtain ⟨⟨hi, hb⟩, hq⟩ := h
  exact ⟨⟨fun i m hs => hi i m (by omega), fun b m hs => hb b m (by omega)⟩, fun q m hs => hq q m (by omega)⟩

/-- The write-back of a ready lane's operation waits for no store, if no earlier store of the region waits. -/
theorem State.storeBefore_of_pending {s t : State} {l : Nat} {q : IuPend} (hq : s.Quiet l) (hs : s.storesBefore l)
    (ht : s.onlyLane t l) (hl : t.lane l = { s.lane l with seq := s.nextSeq l, iuq := [q] }) (hseq : q.seq = 64 * s.nextSeq l) :
    t.storeBefore l q.seq = false := by
  have hother : (if l % 2 = 0 then l + 1 else l - 1) ≠ l := by split <;> omega
  have hsister := (Bool.or_eq_false_iff.1 hs).2
  simp only [hq.solo, beq_self_eq_true, Bool.true_and] at hsister
  have hown : (t.lane l).storeBefore q.seq = false := by simp [Lane.storeBefore, hl, hq.items, hq.blq]
  simp only [State.storeBefore, hown, Bool.false_or, ht.2 _ hother]
  rw [Lane.storeBefore_mono (by omega) hsister, Bool.and_false]

/-! ### The evaluation of a record (03 R135-R139) -/

/-- The command leaves the record `e` at iu.ptr and shows its results in the ports, once its write-back is performed; nothing
else differs. -/
def IuEvaluates (i : Instr) (l : Fin 8) (s : State) (e : IRec) (q2 : Bool) : Prop :=
  Answers i s (fun t => Answers (.iuWriteback l) t (fun u =>
    u = { s with lanes := u.lanes, mem := u.mem } ∧ (∀ k, k ≠ l.val → u.lane k = s.lane k) ∧
    u.memGetList (s.iuPtr l.val) 8 = e.words ∧ (∀ a, a < s.iuPtr l.val ∨ s.iuPtr l.val + 8 ≤ a → u.memGet a = s.memGet a) ∧
    u.lane l.val = { (s.lane l.val).setPorts [(0x210, bit e.q), (0x211, bit q2), (0x212, loWord e.elapsed),
                                              (0x213, hiWord e.elapsed), (0x214, e.word0)] with seq := s.nextSeq l.val }))

theorem iuEvaluates_of_accepts {s : State} {l : Fin 8} {op : IuOp} {i : Instr} {w : Word} (hr : s.ready l.val)
    (hs : s.storesBefore l.val) (ha : s.IuAccepts l.val op) (hi : exec i s = .next (laneTrigger op.port l w s)) :
    IuEvaluates i l s (s.iuAfter l.val op w) (decide (op = .ctud) && (s.iuAfter l.val op w).qd) := by
  obtain ⟨ht, hl⟩ := laneTrigger_iu hr ha w
  refine ⟨_, hi, _, rfl, ?_⟩
  generalize laneTrigger op.port l w s = t at ht hl
  have hq := hr.quiet
  obtain ⟨hu, hul⟩ := iuWritebackOp_of_single (s := t) (l := l) hr.1 (by rw [ht.side, hq.solo]) (by rw [hl])
    (by rw [hl]; exact hq.items) (by rw [hl]; exact hq.evq) (State.storeBefore_of_pending hq hs ht hl rfl)
  generalize iuWritebackOp l t = u at hu hul
  have hmem : ∀ a, u.memGet a = s.withRecord (s.iuPtr l.val) (s.iuAfter l.val op w).words a := by
    intro a
    have hstored := t.memGet_storeWords_changedWords (inSlice_le ha.slice) (s.iuAfter l.val op w).words a
    have hlist : t.memGetList = s.memGetList := by rw [ht.1]; rfl
    have hrecord : t.withRecord = s.withRecord := by rw [ht.1]; rfl
    rw [hlist, hrecord] at hstored
    rw [hu.1]
    exact hstored
  refine ⟨?_, fun k hk => ?_, State.memGetList_of_withRecord rfl hmem, fun a ha => ?_, ?_⟩
  · rw [hu.1, State.storeWords_eq, ht.1]
  · rw [hu.2 k hk, State.storeWords_eq]
    exact ht.2 k hk
  · rw [hmem, State.withRecord, if_neg (by omega)]
  · rw [hul, hl]
    simp only [Lane.setPorts_eq]
    rw [← hq.iuq]
    rfl

/-- Settles O21: the unit accepts the record, for its TYPE is the trigger's, and the lane's one write-back stores the words that
changed. The axis value before the first latch, the ports of an edge detector and word 7 of the last record of region 3 are the
model's own (notes/assumptions/305.md, 306.md, 301.md). -/
theorem instanceUnit : Obligations.InstanceUnit := by
  intro s l b hr hs he x ptr r v gives h8 hin hax
  have evaluates : ∀ (op : IuOp) {i : Instr}, exec i s = .next (laneTrigger op.port l b s) →
      (if op = .clr then validType r.type = true else r.type = op.type) →
      IuEvaluates i l s (op.eval r b v) (decide (op = .ctud) && (op.eval r b v).qd) :=
    fun op _ hi ht => iuEvaluates_of_accepts hr hs ⟨he, h8, hin, IuOp.refuses_eq_false h8 hin hax ht⟩ hi
  exact ⟨evaluates .ton rfl, evaluates .tof rfl, evaluates .tp rfl, evaluates .ctu rfl, evaluates .ctd rfl,
    evaluates .ctud rfl, evaluates .rtrig rfl, evaluates .ftrig rfl, evaluates .clr rfl⟩

/-! ### A write-back that waits for the sister lane (01 R35) -/

/-- Lane 0 of the split region 0 points at a TON record with Q = 1; an earlier store of lane 1 to word 0x200020 waits. -/
def sisterStorePending : State :=
  { State.reset with
    boot := .done
    regions := [(0, { cov := .split })]
    lanes := [(0, { ports := [(0x200, 0x200000)] }),
      (1, { seq := 1, items := [{ seq := 64, baddr := 0, slot := 0, dst := 0x200020, val := some 5, ld := none, cin := false, replay := [] }] })]
    mem := [(0x200000, 0x01000008)] }

theorem sisterStorePending_ready : sisterStorePending.ready 0 := by
  unfold State.ready
  decide

theorem answers_iff_of_next {i : Instr} {s t : State} {P : State → Prop} (h : exec i s = .next t) : Answers i s P ↔ P t :=
  ⟨fun ⟨u, hu, hP⟩ => by rw [h] at hu; cases hu; exact hP, fun hP => ⟨t, h, hP⟩⟩

/-- Refutes O22: `iu.clr` behind an earlier store of the sister lane leaves Q = 1 in the record, for its write-back waits for
that store (01 R35); the statement has no premise that excludes it. -/
theorem not_instanceClear : ¬ Obligations.InstanceClear := by
  intro h
  have hclear := h sisterStorePending 0 0 sisterStorePending_ready (by decide) (by decide) (by decide) (by decide) (by decide)
  rw [answers_iff_of_next (t := laneTrigger 0x20C 0 0 sisterStorePending) rfl,
    answers_iff_of_next (t := iuWritebackOp 0 (laneTrigger 0x20C 0 0 sisterStorePending)) rfl] at hclear
  have hword := congrArg List.head? hclear.1
  revert hword
  decide

/-- Refutes O23: `iu.tof` refuses the TON record, and behind an earlier store of the sister lane its results still wait when
IU_WRITEBACK comes (01 R35); the statement has no premise that excludes it. -/
theorem not_instanceRefusal : ¬ Obligations.InstanceRefusal := by
  intro h
  obtain ⟨-, htof, -⟩ := h sisterStorePending 0 0 sisterStorePending_ready (by decide)
  obtain ⟨-, -, -, hresults⟩ :=
    (answers_iff_of_next (t := laneTrigger 0x205 0 0 sisterStorePending) rfl).1 (htof (.inr (by decide)))
  obtain ⟨-, hlane⟩ :=
    (answers_iff_of_next (t := iuWritebackOp 0 (laneTrigger 0x205 0 0 sisterStorePending)) rfl).1 hresults
  have hiuq := congrArg Lane.iuq hlane
  revert hiuq
  decide

end Sys2Proof.Machine

/-! PROOFS of the family 06_lanes_and_owl: coverage changes and the online exchange. -/

namespace Sys2Proof.Machine

/-! ### What the operations of an exchange write -/

theorem State.region_modRegion_same (s : State) (r : Nat) (f : Region → Region) : (s.modRegion r f).region r = f (s.region r) := by
  simp [State.region, State.modRegion, State.setRegion]

theorem State.enqueue_frame (s : State) (q : QEvent) : ∃ er, s.enqueue q = { s with er := er } := by
  unfold State.enqueue
  split
  · exact ⟨_, rfl⟩
  · exact ⟨_, rfl⟩

theorem State.event_frame (s : State) (code sev source : Nat) (ps : List Word) :
    ∃ er, s.event code sev source ps = { s with er := er } :=
  s.enqueue_frame _

theorem State.reply_frame (s : State) (i : Nat) (cmd tag : BitVec 16) (st : RStat) (reason : BitVec 16) (payload : List Word) :
    ∃ hc, s.reply i cmd tag st reason payload = { s with hc := hc } := by
  dsimp only [State.reply]
  split
  · exact ⟨_, rfl⟩
  · exact ⟨_, rfl⟩

theorem State.finishOp_frame (s : State) (st : RStat) (reason : BitVec 16) (payload : List Word) :
    ∃ hc er, s.finishOp st reason payload = { s with hc := hc, er := er } := by
  unfold State.finishOp
  split
  · exact ⟨_, _, rfl⟩
  · rename_i o _
    obtain ⟨er, hrecord⟩ := State.enqueue_frame { s with hc := { s.hc with op := none, last := o.cmd ++ st.code } } _
    dsimp only [State.record]
    rw [hrecord]
    split
    · obtain ⟨hc, hreply⟩ := State.reply_frame _ _ _ _ _ _ _
      exact ⟨hc, er, hreply⟩
    · exact ⟨_, er, rfl⟩

/-- Marking the free bank empty writes MRAM alone, and leaves the program of the current bank. -/
theorem State.emptyFreeBank_frame (s : State) :
    ∃ mram : Mram, s.emptyFreeBank = { s with mram := mram } ∧ mram.current = s.mram.current := by
  unfold State.emptyFreeBank
  split
  next hB => exact ⟨_, rfl, by simp [Mram.current, hB]⟩
  next hB => exact ⟨_, rfl, by simp [Mram.current, hB]⟩

theorem Mram.current_setFree (m : Mram) (bs : List Byte) : (m.setFree bs).current = m.current := by
  unfold Mram.setFree
  split
  next hB => simp [Mram.current, hB]
  next hB => simp [Mram.current, hB]

/-- The bank that is not the current one holds the image written to it. -/
theorem Mram.free_setFree (m : Mram) (bs : List Byte) :
    (if m.curB then (m.setFree bs).bankA else (m.setFree bs).bankB) = bs := by
  unfold Mram.setFree
  split <;> rfl

/-- From s to t only memory, the interrupt sources, the tasks and the lanes differ. -/
def State.CarryOnly (s t : State) : Prop :=
  ∃ mem srcs tasks lanes, t = { s with mem := mem, srcs := srcs, tasks := tasks, lanes := lanes }

namespace State.CarryOnly

variable {s t : State}

theorem refl (s : State) : s.CarryOnly s := ⟨_, _, _, _, rfl⟩

theorem memSet (h : s.CarryOnly t) (a : Nat) (v : Word) : s.CarryOnly (t.memSet a v) := by
  obtain ⟨_, _, _, _, rfl⟩ := h
  exact ⟨_, _, _, _, rfl⟩

theorem memSetList (h : s.CarryOnly t) (a : Nat) (vs : List Word) : s.CarryOnly (t.memSetList a vs) := by
  induction vs generalizing t a with
  | nil => exact h
  | cons v vs ih => exact ih (h.memSet a v) (a + 1)

theorem modSrc (h : s.CarryOnly t) (q : Nat) (f : Source → Source) : s.CarryOnly (t.modSrc q f) := by
  obtain ⟨_, _, _, _, rfl⟩ := h
  exact ⟨_, _, _, _, rfl⟩

theorem modTask (h : s.CarryOnly t) (p k : Nat) (f : TaskSt → TaskSt) : s.CarryOnly (t.modTask p k f) := by
  obtain ⟨_, _, _, _, rfl⟩ := h
  exact ⟨_, _, _, _, rfl⟩

theorem setProg (h : s.CarryOnly t) (g : Prog) : { s with prog := g }.CarryOnly { t with prog := g } := by
  obtain ⟨_, _, _, _, rfl⟩ := h
  exact ⟨_, _, _, _, rfl⟩

theorem copyLane (h : s.CarryOnly t) (src dst : Nat) : s.CarryOnly (t.copyLane src dst) := by
  obtain ⟨_, _, _, _, rfl⟩ := h
  exact ⟨_, _, _, _, rfl⟩

/-- Steps 2 and 3 of a hand-over (06 R260). -/
theorem carryOver (h : s.CarryOnly t) (g : Prog) (r : Nat) : s.CarryOnly (t.carryOver g r) := by
  unfold State.carryOver
  refine List.foldlRecOn _ _ (List.foldlRecOn _ _ (List.foldlRecOn _ _ h ?wdata) ?blocks) ?records
  case wdata => exact fun u hu e _ => hu.memSet _ _
  case blocks => exact fun u hu b _ => hu.memSetList _ _
  case records =>
    intro u hu x _
    dsimp only
    split
    · exact hu.memSetList _ _
    · exact hu.memSetList _ _

theorem loadIrqOf (h : s.CarryOnly t) (old new : Prog) (p : Nat) : s.CarryOnly (t.loadIrqOf old new p) := by
  unfold State.loadIrqOf
  exact List.foldlRecOn _ _ (List.foldlRecOn _ _ h fun u hu e _ => hu.modSrc _ _) fun u hu e _ => hu.modSrc _ _

theorem carryTasks (h : s.CarryOnly t) (old new : Prog) (p : Nat) : s.CarryOnly (t.carryTasks old new p) := by
  unfold State.carryTasks
  exact List.foldlRecOn _ _ h fun u hu k _ => hu.modTask _ _ _

end State.CarryOnly

/-- From s to t only tasks and the recorder differ. -/
def State.TriggersOnly (s t : State) : Prop := ∃ tasks er, t = { s with tasks := tasks, er := er }

/-- Outside a hand-over a trigger reaches its task or counts as an overrun (04 R154). -/
theorem State.TriggersOnly.trigger {s t : State} (h : s.TriggersOnly t) {p : Nat} (hcov : (s.region (p / 2)).cov ≠ .handover)
    (k : Nat) (tf : BitVec 64) : s.TriggersOnly (t.trigger p k tf) := by
  obtain ⟨tasks, er, rfl⟩ := h
  dsimp only [State.trigger]
  split
  · exact ⟨_, _, rfl⟩
  split
  · exact ⟨_, _, rfl⟩
  split
  next hheld => exact absurd hheld hcov
  split
  · obtain ⟨er', hrecord⟩ := State.enqueue_frame _ _
    exact ⟨_, er', hrecord⟩
  · exact ⟨_, _, rfl⟩

theorem State.countWrites_frame (s : State) (n : Nat) :
    ∃ wlog rwl er, s.countWrites n = { s with wlog := wlog, mram := { s.mram with rwl := rwl }, er := er } := by
  dsimp only [State.countWrites]
  split
  · obtain ⟨er, hevent⟩ := State.event_frame _ _ _ _ _
    exact ⟨_, _, er, hevent⟩
  · exact ⟨_, _, _, rfl⟩

/-- A log commit leaves the banks and the bank pointer. -/
theorem State.logWhole_frame (s : State) (bs : List RetBlock) :
    ∃ wlog log rwl er, s.logWhole bs = { s with wlog := wlog, mram := { s.mram with log := log, rwl := rwl }, er := er } := by
  dsimp only [State.logWhole, State.logAppend]
  split
  · exact ⟨_, _, _, _, rfl⟩
  · obtain ⟨wlog, rwl, er, hcount⟩ := State.countWrites_frame _ _
    exact ⟨wlog, _, rwl, er, hcount⟩

/-! ### The steps of an exchange -/

theorem exchangePreparedOp_of_accepted {s : State} {r : Nat} (hcov : (s.region r).cov = .exPrep) (hstage : (s.region r).exStage = 2)
    (himage : s.exchangeImage r (s.region r).exBytes (s.region r).exForce = 0) :
    ∃ hc code, exchangePreparedOp r s =
      { s with mram := s.mram.setFree (s.region r).exBytes, hc := hc, code := code }.modRegion r (fun x => { x with exStage := 3 }) := by
  simp only [exchangePreparedOp, hcov, hstage, himage, and_self, if_true, ne_eq, not_true_eq_false, if_false]
  exact ⟨_, _, rfl⟩

theorem exchangePreparedOp_of_refused {s : State} {r : Nat} (hcov : (s.region r).cov = .exPrep) (hstage : (s.region r).exStage = 2)
    (himage : s.exchangeImage r (s.region r).exBytes (s.region r).exForce ≠ 0) :
    ∃ (mram : Mram) (hc : HostCh) (er : Recorder), mram.current = s.mram.current ∧ exchangePreparedOp r s =
      { s with mram := mram, hc := hc, er := er }.modRegion r (fun x => { x with cov := .paired, exStage := 0, exBytes := [] }) := by
  simp only [exchangePreparedOp, hcov, hstage, himage, and_self, if_true, ne_eq, not_false_eq_true]
  obtain ⟨mram, hempty, hcurrent⟩ :=
    (s.modRegion r (fun x => { x with cov := .paired, exStage := 0, exBytes := [] })).emptyFreeBank_frame
  obtain ⟨hc, er, hfinish⟩ := State.finishOp_frame _ .refused (s.exchangeImage r (s.region r).exBytes (s.region r).exForce) []
  rw [hfinish, hempty]
  exact ⟨mram, hc, er, hcurrent, rfl⟩

/-- A region whose windows and FIFO start empty (06 R242, R250, R253). -/
def Region.freshOwl (x : Region) : Region :=
  { x with fifo := [], outstanding := [], leadSigs := [], trailSigs := [], leadFault := none, trailFault := none, mxWait := false,
           trailWin := x.leadWin }

theorem State.region_freshOwl (s : State) (r : Nat) : (s.freshOwl r).region r = (s.region r).freshOwl :=
  s.region_modRegion_same r Region.freshOwl

/-- A region whose hand-over starts at an instant (06 R260). -/
def Region.startHandover (x : Region) (now : BitVec 64) : Region :=
  { x with cov := .handover, ucstart := now, ucend := 0, heldTrig := [] }

/-- The state that steps 1 to 4 of a hand-over to program g make, apart from the Owl and the forces (06 R260). -/
def State.handedOver (s : State) (g : Prog) (r : Nat) : State :=
  let u := (s.modRegion r (·.startHandover s.ax0)).carryOver g r
  let u := if (s.region r).exKeep then u.copyLane (2 * r) (2 * r + 1) else u
  ({ u with prog := g }.loadIrqOf s.prog g (2 * r)).carryTasks s.prog g (2 * r)

theorem State.handedOver_frame (s : State) (g : Prog) (r : Nat) :
    { s.modRegion r (·.startHandover s.ax0) with prog := g }.CarryOnly (s.handedOver g r) := by
  have hcarry := (State.CarryOnly.refl (s.modRegion r (·.startHandover s.ax0))).carryOver g r
  refine State.CarryOnly.carryTasks (State.CarryOnly.loadIrqOf (State.CarryOnly.setProg ?_ g) _ _ _) _ _ _
  split
  · exact hcarry.copyLane _ _
  · exact hcarry

theorem handoverOp_of_boundary {s : State} {r : Nat} (hcov : (s.region r).cov = .exPrep) (hstage : (s.region r).exStage = 3)
    (hbound : s.atBoundary r = true) (hrun : (s.lp (2 * r)).st = .run) (howl : s.owlPassed (2 * r) = true) :
    handoverOp r s =
      if (s.region r).exForce then { (s.handedOver (parseImage (s.region r).exBytes) r).freshOwl r with force := [] }
      else (s.handedOver (parseImage (s.region r).exBytes) r).freshOwl r :=
  if_pos ⟨hcov, hstage, hbound, hrun, howl⟩

/-- At the boundary the region's state and the program are the new ones, whatever the carried tables hold. -/
theorem handoverOp_frame {s : State} {r : Nat} (hcov : (s.region r).cov = .exPrep) (hstage : (s.region r).exStage = 3)
    (hbound : s.atBoundary r = true) (hrun : (s.lp (2 * r)).st = .run) (howl : s.owlPassed (2 * r) = true) :
    ∃ mem srcs tasks lanes force, handoverOp r s =
      { s.modRegion r (·.startHandover s.ax0) with
        prog := parseImage (s.region r).exBytes, mem := mem, srcs := srcs, tasks := tasks, lanes := lanes, force := force }.freshOwl r := by
  rw [handoverOp_of_boundary hcov hstage hbound hrun howl]
  obtain ⟨mem, srcs, tasks, lanes, hcarried⟩ := s.handedOver_frame (parseImage (s.region r).exBytes) r
  rw [hcarried]
  split
  · exact ⟨mem, srcs, tasks, lanes, [], rfl⟩
  · exact ⟨mem, srcs, tasks, lanes, s.force, rfl⟩

/-- The end of a hand-over: the bank pointer is switched and lane 2r+1 executes; nothing else of the region's state, memory or
the program differs (06 R260, R262; notes/assumptions/609.md). -/
theorem handoverDoneOp_of_handover {s : State} {r : Nat} (hcov : (s.region r).cov = .handover) :
    ∃ (mram : Mram) (wlog : List (Nat × Nat)) (tasks : SMap TaskSt) (er : Recorder), mram.curB = (!s.mram.curB) ∧ handoverDoneOp r s =
      { s with mram := mram, wlog := wlog, tasks := tasks, er := er }.modRegion r
        (fun x => { x with cov := .exRun, back := .exRun, onTrail := true, exStage := 4, exBytes := [], heldTrig := [] }) := by
  simp only [handoverDoneOp, hcov, if_true]
  obtain ⟨wlog, log, rwl, er, hlog⟩ := State.logWhole_frame (s.dropLog (fun a =>
      ((parseImage s.mram.current).blocksOf (2 * r)).any (fun o => decide (o.addr ≤ a ∧ a < o.addr + o.len)) && !s.prog.retentive a))
    ((s.prog.blocksOf (2 * r)).filter (fun b => !(((parseImage s.mram.current).blocksOf (2 * r)).any (fun o => o == b))))
  rw [hlog]
  generalize hu : State.modRegion _ r _ = u
  have hexRun : (u.region (2 * r / 2)).cov ≠ .handover := by
    rw [← hu, Nat.mul_div_cancel_left r (by decide), State.region_modRegion_same]
    exact nofun
  have htriggers : u.TriggersOnly ((List.range 32).foldl (fun s t =>
      if (s.prog.task (2 * r) t).trig = 0 ∧ (s.task (2 * r) t).pend = false then s.trigger (2 * r) t 0 else s)
      ((s.region r).heldTrig.foldl (fun s t => s.trigger (2 * r) t.1 t.2) u)) := by
    refine List.foldlRecOn _ _ (List.foldlRecOn _ _ ⟨_, _, rfl⟩ ?held) ?free
    case held => exact fun v hv e _ => hv.trigger hexRun _ _
    case free =>
      intro v hv k _
      split
      · exact hv.trigger hexRun _ _
      · exact hv
  obtain ⟨tasks, er', htriggers⟩ := htriggers
  rw [htriggers, ← hu]
  exact ⟨_, wlog, tasks, er', rfl, rfl⟩

/-- Settles O29: each step of an exchange says what it writes of the region, of MRAM and of the program. That triggers are
held until the end of the hand-over is the model's reading (notes/assumptions/609.md). -/
theorem programExchange : Obligations.ProgramExchange := by
  intro s r
  refine ⟨fun hcov hstage => ⟨fun himage => ?accepted, fun himage => ?refused⟩, fun hcov hstage hbound hrun howl => ?boundary,
    fun hcov => ?done⟩
  case accepted =>
    obtain ⟨hc, code, ht⟩ := exchangePreparedOp_of_accepted hcov hstage himage
    refine (answers_iff_of_next (congrArg _ ht)).2 ?_
    rw [State.region_modRegion_same]
    exact ⟨hcov, rfl, Mram.free_setFree _ _, Mram.current_setFree _ _, rfl, rfl⟩
  case refused =>
    obtain ⟨mram, hc, er, hcurrent, ht⟩ := exchangePreparedOp_of_refused hcov hstage himage
    refine (answers_iff_of_next (congrArg _ ht)).2 ?_
    rw [State.region_modRegion_same]
    exact ⟨rfl, rfl, hcurrent, rfl, rfl⟩
  case boundary =>
    obtain ⟨mem, srcs, tasks, lanes, force, ht⟩ := handoverOp_frame hcov hstage hbound hrun howl
    refine (answers_iff_of_next (congrArg _ ht)).2 ?_
    have hregion := (State.region_freshOwl _ r.val).trans (congrArg Region.freshOwl (State.region_modRegion_same s r.val (·.startHandover s.ax0)))
    exact ⟨congrArg Region.cov hregion, congrArg Region.ucstart hregion, rfl, rfl, rfl⟩
  case done =>
    obtain ⟨mram, wlog, tasks, er, hbank, ht⟩ := handoverDoneOp_of_handover hcov
    refine (answers_iff_of_next (congrArg _ ht)).2 ?_
    rw [State.region_modRegion_same]
    exact ⟨rfl, rfl, rfl, hbank, rfl, rfl⟩

/-! ### A failed rejoin and the long operation (06 R254; 11 R424) -/

/-- Region 0 is in a rejoin that began in SPLIT, and the long operation in progress is an EXCHANGE of region 0. -/
def splitRejoinWithExchange : State :=
  { State.reset with
    regions := [(0, { cov := .rejoin, back := .split })]
    hc := { op := some { cmd := 0x11, sess := 0, key := [], phase := 3, region := 0 } } }

/-- Refutes O28: a rejoin that fails its verify ends the EXCHANGE of its region as a long operation, in whichever coverage it
began, so that the host channel changes after a rejoin from SPLIT too; no premise says that the region has no EXCHANGE in
progress. -/
theorem not_coverage : ¬ Obligations.Coverage := by
  rintro ⟨-, ⟨-, -, hrejoinDone⟩, -⟩
  obtain ⟨-, -, hfailed⟩ := hrejoinDone splitRejoinWithExchange 0 [] (by decide)
  obtain ⟨-, -, hhost, -⟩ :=
    (answers_iff_of_next (t := rejoinDoneOp 0 false [] splitRejoinWithExchange) rfl).1 hfailed
  have hop := congrArg HostCh.op (hhost (by decide))
  revert hop
  decide

end Sys2Proof.Machine

/-! PROOFS of the family 07_hot_standby: what a standby in step takes. -/

namespace Sys2Proof.Machine

/-! ### A frame that the link accepts (07 R277) -/

/-- The state in which an accepted frame's message is taken: its SEQ is the last accepted one. -/
def State.accepted (s : State) (hd : LinkHead) : State := s.modPair (fun x => { x with rxSeq := some hd.seq })

theorem State.linkFrame_of_newer {s : State} {hd : LinkHead} (hlink : s.pl.link = true) (htag : hd.tag = true)
    (hnewer : newerSeq hd.seq s.pl.rxSeq = true) (stepped : Bool) (f : State → State) :
    s.linkFrame hd stepped f = f (s.accepted hd) := by
  simp [State.linkFrame, State.accepted, hlink, htag, hnewer]

/-! ### Forwarded latches and interrupts (07 R280) -/

theorem State.inStep_of_takesForwarded {s : State} (htakes : s.takesForwarded = true) : s.inStep = true :=
  (Bool.and_eq_true_iff.1 htakes).1

theorem State.role_of_inStep {s : State} (hstep : s.inStep = true) : s.pl.role = 2 :=
  (of_decide_eq_true hstep).1

theorem fwdOp_of_taken {s : State} (htakes : s.takesForwarded = true) (w : Fwd) :
    fwdOp w s = { s with psrc := true, pl := { s.pl with fwds := s.pl.fwds ++ [w] } } :=
  if_pos htakes

theorem fwdOp_of_not_taken {s : State} (htakes : s.takesForwarded = false) (w : Fwd) : fwdOp w s = s :=
  if_neg (Bool.eq_false_iff.1 htakes)

/-- An LP that stands at no entry point takes no interrupt (08 R311). -/
theorem handlerDeliveryOp_of_no_entryPoint {s : State} {p : Fin 8} (hentry : s.entryPoint p.val = false) :
    handlerDeliveryOp p.val s = s := by
  have hlp : p.val ≠ 8 := Nat.ne_of_lt p.isLt
  simp [handlerDeliveryOp, hlp, hentry]

/-- A forwarded interrupt waits where its LP stands at no entry point. -/
theorem iarrOp_of_waiting {s : State} {p : Fin 8} (htakes : s.takesForwarded = true) (hentry : s.entryPoint p.val = false)
    (lseq : Word) (bcnt : Option Word) (q : Fin 256) :
    iarrOp p lseq bcnt q s = { s with pl := { s.pl with iarrs := s.pl.iarrs ++ [(p.val, lseq, bcnt, q.val)] } } :=
  (if_pos htakes).trans (handlerDeliveryOp_of_no_entryPoint hentry)

theorem iarrOp_of_not_taken {s : State} (htakes : s.takesForwarded = false) (p : Fin 8) (lseq : Word) (bcnt : Option Word)
    (q : Fin 256) : iarrOp p lseq bcnt q s = s :=
  if_neg (Bool.eq_false_iff.1 htakes)

/-! ### Forwarded commands (07 R280) -/

theorem cmdfwdOp_of_taken {s : State} {c : PairCmd} (hpreset : c ≠ .preset) (htakes : s.takesForwarded = true) (ls : List Word) :
    cmdfwdOp c ls s = (s.modPair (fun x => { x with cmds := x.cmds ++ (cmdParts c).map (fun c => (c, ls)) })).applyCmds := by
  cases c
  case preset => exact absurd rfl hpreset
  all_goals exact if_pos htakes

theorem cmdfwdOp_of_not_taken {s : State} {c : PairCmd} (hpreset : c ≠ .preset) (htakes : s.takesForwarded = false)
    (ls : List Word) : cmdfwdOp c ls s = s := by
  cases c
  case preset => exact absurd rfl hpreset
  all_goals exact if_neg (Bool.eq_false_iff.1 htakes)

/-- A command that waits alone is due where each of its logical processors has come to its LSEQ. -/
theorem State.firstDue_single_of_reached {s : State} {c : PairCmd} {ls : List Word}
    (hreached : ∀ p ∈ cmdLps c, s.lseqReached p ls = true) : s.firstDue [] [(c, ls)] = some (c, ls) :=
  if_pos (List.all_eq_true.2 fun p hp => by simp [hreached p hp])

theorem State.firstDue_single_of_not_reached {s : State} {c : PairCmd} {ls : List Word}
    (hwaits : ∃ p ∈ cmdLps c, s.lseqReached p ls = false) : s.firstDue [] [(c, ls)] = none := by
  obtain ⟨p, hp, hls⟩ := hwaits
  exact if_neg fun hall => by simpa [hls] using List.all_eq_true.1 hall p hp

/-- The only waiting command takes effect at its LSEQ. -/
theorem State.applyCmds_of_reached {s : State} {c : PairCmd} {ls : List Word} (hstep : s.inStep = true)
    (hcmds : s.pl.cmds = [(c, ls)]) (hreached : ∀ p ∈ cmdLps c, s.lseqReached p ls = true) :
    s.applyCmds = State.applyCmd { s with pl := { s.pl with cmds := [] } } c := by
  simp [State.applyCmds, hstep, hcmds, applyDueCmds, State.firstDue_single_of_reached hreached, State.modPair]

/-- The only waiting command waits on before its LSEQ. -/
theorem State.applyCmds_of_not_reached {s : State} {c : PairCmd} {ls : List Word} (hstep : s.inStep = true)
    (hcmds : s.pl.cmds = [(c, ls)]) (hwaits : ∃ p ∈ cmdLps c, s.lseqReached p ls = false) : s.applyCmds = s := by
  simp [State.applyCmds, hstep, hcmds, applyDueCmds, State.firstDue_single_of_not_reached hwaits]

/-- A forwarded command that is no PRESET, goes to one place in the queue and finds it empty is the only one that waits. -/
theorem cmdfwdOp_of_no_command_waiting {s : State} {c : PairCmd} (hpreset : c ≠ .preset) (hparts : cmdParts c = [c])
    (htakes : s.takesForwarded = true) (hcmds : s.pl.cmds = []) (ls : List Word) :
    cmdfwdOp c ls s = State.applyCmds { s with pl := { s.pl with cmds := [(c, ls)] } } := by
  rw [cmdfwdOp_of_taken hpreset htakes, hparts]
  simp only [State.modPair, hcmds, List.map_cons, List.map_nil, List.nil_append]

/-- Every logical processor at the LSEQ: the force entry is off at once, and no command waits. -/
theorem cmdfwdOp_ftClr_of_reached {s : State} {i : Fin 1024} {ls : List Word} (htakes : s.takesForwarded = true)
    (hcmds : s.pl.cmds = []) (hreached : ∀ p, p < 8 → s.lseqReached p ls = true) :
    cmdfwdOp (.ftClr i) ls s = { s with force := cmdForces (.ftClr i) s.force } := by
  have hpreset : PairCmd.ftClr i ≠ .preset := nofun
  have hall : ∀ p ∈ cmdLps (.ftClr i), s.lseqReached p ls = true := fun p hp => hreached p (List.mem_range.1 hp)
  have hdue := State.applyCmds_of_reached (s := { s with pl := { s.pl with cmds := [(.ftClr i, ls)] } })
    (State.inStep_of_takesForwarded htakes) rfl hall
  rw [cmdfwdOp_of_no_command_waiting hpreset rfl htakes hcmds, hdue, ← hcmds]
  rfl

theorem cmdfwdOp_of_not_reached {s : State} {c : PairCmd} {ls : List Word} (hpreset : c ≠ .preset) (hparts : cmdParts c = [c])
    (htakes : s.takesForwarded = true) (hcmds : s.pl.cmds = []) (hwaits : ∃ p ∈ cmdLps c, s.lseqReached p ls = false) :
    cmdfwdOp c ls s = { s with pl := { s.pl with cmds := [(c, ls)] } } :=
  (cmdfwdOp_of_no_command_waiting hpreset hparts htakes hcmds ls).trans
    (State.applyCmds_of_not_reached (State.inStep_of_takesForwarded htakes) rfl hwaits)

/-! ### Leaving RUN keeps the pair unit and the operating states (04 R165) -/

theorem State.lp_modLp (s : State) (p q : Nat) (f : Lp → Lp) : (s.modLp p f).lp q = if q = p then f (s.lp p) else s.lp q :=
  SMap.get_set ..

/-- From s to t the pair unit and every LP's operating state are the same. -/
structure State.SameRoles (s t : State) : Prop where
  pl : t.pl = s.pl
  st : ∀ q, (t.lp q).st = (s.lp q).st

namespace State.SameRoles

variable {s t u : State}

theorem refl (s : State) : s.SameRoles s := ⟨rfl, fun _ => rfl⟩

theorem trans (h : s.SameRoles t) (k : t.SameRoles u) : s.SameRoles u := ⟨k.pl.trans h.pl, fun q => (k.st q).trans (h.st q)⟩

/-- A state with the pair unit and the LPs of t. -/
theorem same (h : s.SameRoles t) (hpl : u.pl = t.pl) (hlps : u.lps = t.lps) : s.SameRoles u :=
  h.trans ⟨hpl, fun q => by rw [State.lp, hlps, State.lp]⟩

theorem modLp (h : s.SameRoles t) (p : Nat) {f : Lp → Lp} (hf : ∀ x, (f x).st = x.st) : s.SameRoles (t.modLp p f) := by
  refine h.trans ⟨rfl, fun q => ?_⟩
  rw [State.lp_modLp]
  split
  next hq => rw [hf, hq]
  next => rfl

theorem setLevels (h : s.SameRoles t) (p : Nat) (ls : List Level) : s.SameRoles (t.setLevels p ls) := by
  unfold State.setLevels
  split
  · exact h.modLp p fun _ => rfl
  · exact h.same rfl rfl

theorem dropActive (h : s.SameRoles t) (p : Nat) : s.SameRoles (t.dropActive p) := by
  unfold State.dropActive
  refine List.foldlRecOn _ _ (h.setLevels p []) fun u hu q _ => ?_
  split
  · exact hu.same rfl rfl
  · exact hu

theorem abortExchange (h : s.SameRoles t) (r : Nat) : s.SameRoles (t.abortExchange r) := by
  unfold State.abortExchange
  split
  · generalize hu : t.modRegion r (fun x => { x with cov := .paired, exStage := 0, exBytes := [] }) = u
    obtain ⟨mram, hempty, -⟩ := u.emptyFreeBank_frame
    obtain ⟨hc, er, hfinish⟩ := (u.emptyFreeBank.emptyLoadBank r).finishOp_frame .aborted 0 []
    rw [hfinish, hempty, ← hu]
    exact h.same rfl rfl
  · exact h

theorem modTask (h : s.SameRoles t) (p k : Nat) (f : TaskSt → TaskSt) : s.SameRoles (t.modTask p k f) := h.same rfl rfl

theorem modLane (h : s.SameRoles t) (l : Nat) (f : Lane → Lane) : s.SameRoles (t.modLane l f) := h.same rfl rfl

theorem erqDrop (h : s.SameRoles t) (p : Nat) : s.SameRoles (t.erqDrop p) := h.same rfl rfl

theorem leaveRun (h : s.SameRoles t) (p : Nat) : s.SameRoles (t.leaveRun p) := by
  unfold State.leaveRun
  extract_lets tasksDone idle laneIdle
  have htasks : s.SameRoles tasksDone := List.foldlRecOn _ _ h fun u hu k _ => hu.modTask p k _
  have hidle : s.SameRoles idle := (htasks.dropActive p).modLp p fun _ => rfl
  have hlane : s.SameRoles laneIdle := (hidle.modLane _ _).erqDrop p
  split
  · exact hlane.abortExchange _
  · exact hlane

theorem discardStaged (h : s.SameRoles t) (m : Nat) : s.SameRoles (t.discardStaged m) := h.same rfl rfl

theorem freshOwl (h : s.SameRoles t) (r : Nat) : s.SameRoles (t.freshOwl r) := h.same rfl rfl

end State.SameRoles

/-! ### A standby that falls out of step (07 R275, R280) -/

/-- LP p leaves RUN for STOP, and nothing that it staged is released (04 R162, R165). -/
def State.enterStop (s : State) (p : Nat) : State :=
  ((s.leaveRun p).discardStaged (2 + p)).modLp p (fun x => { x with st := .stop })

theorem State.enterStop_spec (s : State) (p : Nat) :
    (s.enterStop p).pl = s.pl ∧ ∀ q, ((s.enterStop p).lp q).st = if q = p then .stop else (s.lp q).st := by
  have hleft := ((State.SameRoles.refl s).leaveRun p).discardStaged (2 + p)
  refine ⟨hleft.pl, fun q => ?_⟩
  rw [State.enterStop, State.lp_modLp, ← hleft.st q]
  exact apply_ite Lp.st ..

/-- LP p enters STOP where it is in RUN, and the Owl of its checked region starts empty. -/
def State.stopAtOnce (s : State) (p : Nat) : State :=
  if (s.lp p).st = .run then
    if p % 2 = 0 ∧ (s.enterStop p).paired (p / 2) then (s.enterStop p).freshOwl (p / 2) else s.enterStop p
  else s

theorem State.stopRunning_eq (s : State) : s.stopRunning = (List.range 8).foldl State.stopAtOnce s := rfl

/-- An LP in RUN enters STOP, and nothing else of the pair unit and of the operating states differs. -/
theorem State.stopAtOnce_spec (s : State) (p : Nat) :
    (s.stopAtOnce p).pl = s.pl ∧
      ∀ q, ((s.stopAtOnce p).lp q).st = if q = p ∧ (s.lp p).st = .run then .stop else (s.lp q).st := by
  obtain ⟨hpl, hst⟩ := s.enterStop_spec p
  unfold State.stopAtOnce
  split
  next hrun =>
    simp only [hrun, and_true]
    split
    · have howl := (State.SameRoles.refl (s.enterStop p)).freshOwl (p / 2)
      exact ⟨howl.pl.trans hpl, fun q => (howl.st q).trans (hst q)⟩
    · exact ⟨hpl, hst⟩
  next hstill => exact ⟨rfl, fun q => (if_neg fun h => hstill h.2).symm⟩

/-- Stopping LPs one after another leaves none of them in RUN, and the pair unit alone. -/
theorem State.foldl_stopAtOnce_spec (ps : List Nat) (s : State) :
    (ps.foldl State.stopAtOnce s).pl = s.pl ∧
      ∀ q, q ∈ ps ∨ (s.lp q).st ≠ .run → ((ps.foldl State.stopAtOnce s).lp q).st ≠ .run := by
  induction ps generalizing s with
  | nil => exact ⟨rfl, fun q hq => hq.resolve_left List.not_mem_nil⟩
  | cons p ps ih =>
    obtain ⟨hpl, hst⟩ := s.stopAtOnce_spec p
    obtain ⟨ihpl, ihst⟩ := ih (s.stopAtOnce p)
    refine ⟨ihpl.trans hpl, fun q hq => ihst q ?_⟩
    rw [hst q, List.mem_cons] at *
    by_cases hqp : q = p
    · subst hqp
      refine .inr ?_
      split
      · exact nofun
      next hstill => exact fun hrun => hstill ⟨rfl, hrun⟩
    · rw [if_neg fun h => hqp h.1]
      exact hq.imp_left (·.resolve_left hqp)

/-- A standby out of step has no LP in RUN, and keeps what it knows of signature differences. -/
theorem State.unsync_spec {s : State} (hrole : s.pl.role = 2) :
    s.unsync.pl.ps = .unsync ∧ s.unsync.pl.osigmm = s.pl.osigmm ∧ s.unsync.pl.osigN = s.pl.osigN ∧
      ∀ q, q < 8 → (s.unsync.lp q).st ≠ .run := by
  obtain ⟨hpl, hst⟩ := State.foldl_stopAtOnce_spec (List.range 8) s
  rw [← State.stopRunning_eq] at hpl hst
  unfold State.unsync
  rw [if_pos hrole]
  generalize s.stopRunning = t at hpl hst
  have hmm : t.pl.osigmm = s.pl.osigmm := congrArg Pair.osigmm hpl
  have hn : t.pl.osigN = s.pl.osigN := congrArg Pair.osigN hpl
  exact ⟨rfl, hmm, hn, fun q hq => hst q (.inl (List.mem_range.2 hq))⟩

/-! ### Output signatures (07 R282) -/

/-- The standby has found a difference: it is shown, counted and recorded, and the standby is out of step and joins again. -/
def State.signatureDiffers (s : State) : State :=
  let t := ({ s with pl := { s.pl with osigmm := true, osigN := s.pl.osigN + 1 } }.event 0x0705 5 0x3A []).unsync
  { t with pl := { t.pl with autoDue := true } }

theorem State.signatureDiffers_spec {s : State} (hrole : s.pl.role = 2) :
    s.signatureDiffers.pl.ps = .unsync ∧ s.signatureDiffers.pl.osigmm = true ∧ s.signatureDiffers.pl.osigN = s.pl.osigN + 1 ∧
      ∀ q, q < 8 → (s.signatureDiffers.lp q).st ≠ .run := by
  obtain ⟨er, hevent⟩ :=
    State.event_frame { s with pl := { s.pl with osigmm := true, osigN := s.pl.osigN + 1 } } 0x0705 5 0x3A []
  dsimp only [State.signatureDiffers]
  rw [hevent]
  exact State.unsync_spec hrole

theorem State.compareSigs_of_none {s : State} (hown : s.pl.ownSigs = []) : s.compareSigs = s := by
  rw [State.compareSigs, hown, List.foldl_nil]

/-- The only own signature and the only OSIG, of the same LP and LSEQ, are both done with. -/
theorem State.compareSigs_of_pair {s : State} {p : Nat} {lseq : Word} {own sig : BitVec 64}
    (hown : s.pl.ownSigs = [(p, lseq, own)]) (hosig : s.pl.osigs = [(p, lseq, sig)]) :
    s.compareSigs =
      if sig = own then { s with pl := { s.pl with osigs := [], ownSigs := [] } }
      else State.signatureDiffers { s with pl := { s.pl with osigs := [], ownSigs := [] } } := by
  simp [State.compareSigs, hown, hosig, State.signatureDiffers]

theorem osigOp_of_inStep {s : State} (hstep : s.inStep = true) (p : Nat) (lseq : Word) (sig : BitVec 64) :
    osigOp p lseq sig s = State.compareSigs { s with pl := { s.pl with osigs := s.pl.osigs ++ [(p, lseq, sig)] } } :=
  if_pos hstep

theorem osigOp_of_not_inStep {s : State} (hstep : s.inStep = false) (p : Nat) (lseq : Word) (sig : BitVec 64) :
    osigOp p lseq sig s = s :=
  if_neg (Bool.eq_false_iff.1 hstep)

/-- An OSIG without an own signature to compare waits. -/
theorem osigOp_of_none {s : State} (hstep : s.inStep = true) (hown : s.pl.ownSigs = []) (p : Nat) (lseq : Word) (sig : BitVec 64) :
    osigOp p lseq sig s = { s with pl := { s.pl with osigs := s.pl.osigs ++ [(p, lseq, sig)] } } :=
  (osigOp_of_inStep hstep p lseq sig).trans (State.compareSigs_of_none hown)

/-- An OSIG that meets the own signature of its LP and LSEQ, where no other waits, is compared with it. -/
theorem osigOp_of_pair {s : State} {p : Nat} {lseq : Word} {own : BitVec 64} (hstep : s.inStep = true)
    (hown : s.pl.ownSigs = [(p, lseq, own)]) (hosigs : s.pl.osigs = []) (sig : BitVec 64) :
    osigOp p lseq sig s =
      if sig = own then { s with pl := { s.pl with ownSigs := [] } }
      else State.signatureDiffers { s with pl := { s.pl with ownSigs := [] } } := by
  have hempty : { s.pl with osigs := [], ownSigs := [] } = { s.pl with ownSigs := [] } :=
    congrArg (fun o => { s.pl with osigs := o, ownSigs := [] }) hosigs.symm
  rw [osigOp_of_inStep hstep, hosigs, ← hempty]
  exact State.compareSigs_of_pair (s := { s with pl := { s.pl with osigs := [(p, lseq, sig)] } }) hown rfl

/-! ### The messages of the pair link -/

/-- Settles O59: each message comes in a frame that the link accepts, and the standby then does what the message's operation
does in step or out of step. -/
theorem forwardedMessages : Obligations.ForwardedMessages := by
  intro s hd hlink htag hnewer
  have hframe : ∀ {i stepped f P}, exec i s = .next (s.linkFrame hd stepped f) → P (f (s.accepted hd)) → Answers i s P :=
    fun hi hP => ⟨_, hi.trans (congrArg _ (State.linkFrame_of_newer hlink htag hnewer _ _)), hP⟩
  refine ⟨fun w htakes => hframe rfl ?fwd, fun p lseq b q htakes hentry => hframe rfl ?iarr,
    fun p lseq sig hstep hown => hframe rfl ?osigWaits, fun p lseq sig own hstep hown hosigs hne => hframe rfl ?osigDiffers,
    fun p lseq sig hstep hown hosigs => hframe rfl ?osigEqual, fun i ls htakes hcmds hreached => hframe rfl ?cmdDue,
    fun c ls hpreset hparts htakes hcmds hwaits => hframe rfl ?cmdWaits,
    fun htakes => ⟨fun w => hframe rfl ?noFwd, fun p lseq b q => hframe rfl ?noIarr, fun c ls hpreset => hframe rfl ?noCmd⟩,
    fun hstep p lseq sig => hframe rfl ?noOsig⟩
  case fwd => exact fwdOp_of_taken (s := s.accepted hd) htakes w
  case iarr => exact iarrOp_of_waiting (s := s.accepted hd) htakes hentry lseq b q
  case osigWaits => exact osigOp_of_none (s := s.accepted hd) hstep hown p.val lseq sig
  case osigDiffers =>
    rw [osigOp_of_pair (s := s.accepted hd) hstep hown hosigs, if_neg hne]
    exact State.signatureDiffers_spec (State.role_of_inStep hstep)
  case osigEqual => exact (osigOp_of_pair (s := s.accepted hd) hstep hown hosigs sig).trans (if_pos rfl)
  case cmdDue =>
    rw [cmdfwdOp_ftClr_of_reached (s := s.accepted hd) htakes hcmds hreached]
    exact ⟨congrArg Force.en (SMap.get_set_same ..), fun k hk => SMap.get_set_other _ _ _ hk, rfl⟩
  case cmdWaits => exact cmdfwdOp_of_not_reached (s := s.accepted hd) hpreset hparts htakes hcmds hwaits
  case noFwd => exact fwdOp_of_not_taken (s := s.accepted hd) htakes w
  case noIarr => exact iarrOp_of_not_taken (s := s.accepted hd) htakes p lseq b q
  case noCmd => exact cmdfwdOp_of_not_taken (s := s.accepted hd) hpreset htakes ls
  case noOsig => exact osigOp_of_not_inStep (s := s.accepted hd) hstep p.val lseq sig

end Sys2Proof.Machine

/-! PROOFS of the family 11_rack_and_host: what a host request meets before it is carried out. -/

namespace Sys2Proof.Machine

/-! ### The commands that carry a request (11 R418, R421) -/

theorem exec_of_requestOf {c : Instr} {i : Fin 4} {tag : BitVec 16} {q : HostReq} (h : requestOf c = some (i, tag, q)) (s : State) :
    exec c s = .next (s.request i.val tag q) := by
  unfold requestOf at h
  split at h <;> cases h <;> rfl

/-- KEYGEN comes in a DATA record alone. -/
theorem requestOf_ne_keygen {c : Instr} {i : Fin 4} {tag : BitVec 16} {q : HostReq} (h : requestOf c = some (i, tag, q))
    (k : KeygenReq) : q ≠ .keygen k := by
  unfold requestOf at h
  split at h <;> cases h <;> exact nofun

/-! ### A reply on an open session (11 R415, R418) -/

theorem State.reply_of_opened {s : State} {i : Nat} (hopen : (s.session i).opened = true) (cmd tag : BitVec 16) (st : RStat)
    (reason : BitVec 16) (payload : List Word) :
    s.reply i cmd tag st reason payload =
      (s.setSession i { s.session i with txSeq := (s.session i).txSeq + 1 }).send (s.session i)
        (.reply i cmd tag st reason payload) :=
  if_pos hopen

theorem State.replied_reply {s : State} {i : Nat} (hopen : (s.session i).opened = true) (cmd tag : BitVec 16) (st : RStat)
    (reason : BitVec 16) (payload : List Word) :
    s.replied (s.reply i cmd tag st reason payload) i cmd tag st reason payload := by
  rw [State.reply_of_opened hopen]
  exact ⟨rfl, congrArg Session.txSeq (SMap.get_set_same ..), rfl⟩

/-- A reply writes the host channel alone, and there neither the long operation nor the count of BUSY. -/
theorem State.reply_hc_frame (s : State) (i : Nat) (cmd tag : BitVec 16) (st : RStat) (reason : BitVec 16) (payload : List Word) :
    ∃ hc : HostCh, s.reply i cmd tag st reason payload = { s with hc := hc } ∧ hc.op = s.hc.op ∧ hc.busy = s.hc.busy := by
  dsimp only [State.reply]
  split
  · exact ⟨_, rfl, rfl, rfl⟩
  · exact ⟨_, rfl, rfl, rfl⟩

theorem State.replied_only {s : State} {i : Nat} (hopen : (s.session i).opened = true) (cmd tag : BitVec 16) (st : RStat)
    (reason : BitVec 16) (payload : List Word) :
    let t := s.reply i cmd tag st reason payload
    s.replied t i cmd tag st reason payload ∧ t = { s with hc := t.hc } := by
  obtain ⟨hc, hreply⟩ := s.reply_frame i cmd tag st reason payload
  refine ⟨State.replied_reply hopen .., ?_⟩
  rw [hreply]

/-- What BUSY changes: the reply, the count, and the free value that its PROG took. -/
theorem State.replied_busy {s : State} {i : Nat} (hopen : (s.session i).opened = true) (cmd tag : BitVec 16) (payload : List Word) :
    let t := (State.reply { s with hc := { s.hc with busy := satInc s.hc.busy } } i cmd tag .busy 0 payload).draw
    s.replied t i cmd tag .busy 0 payload ∧ t.hc.busy = satInc s.hc.busy ∧ t.hc.op = s.hc.op ∧
      t = { s with hc := t.hc, free := t.free } := by
  have hreplied := State.replied_reply (s := { s with hc := { s.hc with busy := satInc s.hc.busy } }) hopen cmd tag .busy 0 payload
  obtain ⟨hc, hreply, hop, hbusy⟩ :=
    State.reply_hc_frame { s with hc := { s.hc with busy := satInc s.hc.busy } } i cmd tag .busy 0 payload
  rw [hreply] at hreplied ⊢
  exact ⟨hreplied, hbusy, hop, rfl⟩

/-! ### Requests that meet a long operation (11 R425) -/

theorem LongOp.blocks_of_other_session {o : LongOp} {i : Nat} (h : o.sess ≠ i) (q : HostReq) : o.blocks i q = true := by
  unfold LongOp.blocks
  split <;> simp [h]

theorem LongOp.blocks_of_other_request {q : HostReq} (hcancel : q ≠ .opcancel) (hdata : ∀ bs, q ≠ .opdata bs)
    (hend : ∀ len d, q ≠ .opend len d) (o : LongOp) (i : Nat) : o.blocks i q = true := by
  unfold LongOp.blocks
  split
  · exact absurd rfl (hdata _)
  · exact absurd rfl (hend _ _)
  · exact absurd rfl hcancel
  · rfl

/-- Outside its transfer phase an operation without an audit trail to read is continued by no request. -/
theorem LongOp.blocks_of_no_transfer {o : LongOp} (hphase : o.phase ≠ 1#2) (hcmd : o.cmd ≠ 0x16#16) (i : Nat) (q : HostReq) :
    o.blocks i q = true := by
  unfold LongOp.blocks
  split
  · simp [hphase, hcmd]
  · simp [hphase]
  · simp [hphase]
  · rfl

/-! ### The checks of a request in their order (11 R419, R425, R573; 13 R456) -/

theorem State.request_of_closed {s : State} {i : Nat} (hclosed : (s.session i).opened = false) (tag : BitVec 16) (q : HostReq) :
    s.request i tag q = s := by
  simp [State.request, hclosed]

/-- A session whose request still waits for its reply is not heard. -/
theorem State.request_of_waiting {s : State} {i : Nat}
    (hwaits : s.hc.op.any (fun o => decide (o.sess = i) && o.wait.isSome) = true) (tag : BitVec 16) (q : HostReq) :
    s.request i tag q = s := by
  cases hop : s.hc.op with
  | none => simp [hop] at hwaits
  | some o =>
    have ho : o.sess = i ∧ o.wait.isSome := by simpa [hop] using hwaits
    simp [State.request, hop, ho]

/-- A request that the running operation blocks is counted and answered BUSY. -/
theorem State.request_of_blocked {s : State} {i : Nat} {o : LongOp} {q : HostReq} (hopen : (s.session i).opened = true)
    (hop : s.hc.op = some o) (hheard : ¬ (o.sess = i ∧ o.wait.isSome)) (hblocks : o.blocks i q = true) (tag : BitVec 16) :
    s.request i tag q =
      (State.reply { s with hc := { s.hc with busy := satInc s.hc.busy } } i (reqCmd q) tag .busy 0 [s.busyWord o]).draw := by
  simp only [State.request, hopen, hop, hblocks, if_neg hheard]
  rfl

/-- With no long operation, the checks of a request: the boot, the parameters, the role and the lifecycle state. -/
theorem State.request_of_no_op {s : State} {i : Nat} (hopen : (s.session i).opened = true) (hop : s.hc.op = none)
    (tag : BitVec 16) (q : HostReq) :
    s.request i tag q =
      if s.boot ≠ .done ∧ !bootReq q then s.reply i (reqCmd q) tag .state 0 []
      else if malformed q then s.reply i (reqCmd q) tag .badreq 0 []
      else if roleCode (s.session i).role < reqRole q then s.reply i (reqCmd q) tag .role 0 []
      else if !s.lcPermits (s.session i).role q then s.reply i (reqCmd q) tag .state 0 []
      else s.performReq i tag q := by
  simp only [State.request, hopen, hop]
  rfl

/-- A request that needs more than the role READ is carried out in the states 2 and 3 alone, where it is not KEYGEN (13 R456). -/
theorem State.lcPermits_eq_false {s : State} {q : HostReq} (hkey : ∀ k, q ≠ .keygen k) (hrole : 0 < reqRole q)
    (h2 : s.ks.lc ≠ 2#8) (h3 : s.ks.lc ≠ 3#8) (role : Role) : s.lcPermits role q = false := by
  unfold State.lcPermits
  split
  · exact absurd rfl (hkey _)
  · have hneeds : reqRole q ≠ 0 := Nat.ne_of_gt hrole
    simp [hneeds, h2, h3]

/-- Settles O44: a host command is a request, the checks of a request come in the model's order (notes/assumptions/1104.md,
1112.md), and the first that fails answers. -/
theorem hostAnswers : Obligations.HostAnswers := by
  intro s c i tag q hreq
  have hanswers : ∀ {t : State} {P : State → Prop}, s.request i.val tag q = t → P t → Answers c s P :=
    fun ht hP => ⟨_, (exec_of_requestOf hreq s).trans (congrArg _ ht), hP⟩
  have hrefused : ∀ {st : RStat}, (s.session i.val).opened = true →
      s.request i.val tag q = s.reply i.val (reqCmd q) tag st 0 [] →
      Answers c s (fun t => s.replied t i.val (reqCmd q) tag st 0 [] ∧ t = { s with hc := t.hc }) :=
    fun hopen ht => hanswers ht (State.replied_only hopen ..)
  refine ⟨fun hclosed => ?closed, fun hwaits => ?waits, fun o hopen hop hblocked => ?busy,
    fun hopen hop hboot hlate => hrefused hopen ?boot, fun hopen hop hboot hmal => hrefused hopen ?parameters,
    fun hopen hop hboot hmal hrole => hrefused hopen ?role, fun hopen hop hboot hmal hneeds hrole h2 h3 => hrefused hopen ?lifecycle⟩
  case closed => exact hanswers (State.request_of_closed hclosed tag q) rfl
  case waits => exact hanswers (State.request_of_waiting hwaits tag q) rfl
  case busy =>
    have hheard : ¬ (o.sess = i.val ∧ o.wait.isSome) := by
      rintro ⟨hsess, hwait⟩
      obtain hother | ⟨hnone, -⟩ := hblocked
      · exact hother hsess
      · simp [hnone] at hwait
    have hblocks : o.blocks i.val q = true := by
      obtain hsess | ⟨-, ⟨hcancel, hdata, hend⟩ | ⟨hphase, hcmd⟩⟩ := hblocked
      · exact LongOp.blocks_of_other_session hsess q
      · exact LongOp.blocks_of_other_request hcancel hdata hend o i.val
      · exact LongOp.blocks_of_no_transfer hphase hcmd i.val q
    refine hanswers (State.request_of_blocked hopen hop hheard hblocks tag) ?_
    exact State.replied_busy hopen ..
  all_goals rw [State.request_of_no_op hopen hop]
  case boot => exact if_pos ⟨hboot, by simp [hlate]⟩
  all_goals rw [if_neg fun hbooting => hbooting.1 hboot]
  case parameters => exact if_pos hmal
  all_goals rw [if_neg (Bool.eq_false_iff.1 hmal)]
  case role => exact if_pos hrole
  case lifecycle =>
    rw [if_neg (Nat.not_lt.2 hrole), State.lcPermits_eq_false (requestOf_ne_keygen hreq) hneeds h2 h3]
    rfl

end Sys2Proof.Machine

/-! PROOFS of the family 12_sett: the Sett mirror. -/

namespace Sys2Proof.Machine

/-! ### The blocks of the mirror (12 R447-R449) -/

theorem length_flatMap_range {α : Type} {f : Nat → List α} {k : Nat} (hlen : ∀ m, (f m).length = k) (n : Nat) :
    ((List.range n).flatMap f).length = n * k := by
  induction n with
  | zero => rw [List.range_zero, List.flatMap_nil, List.length_nil, Nat.zero_mul]
  | succ n ih =>
    rw [List.range_succ, List.flatMap_append, List.flatMap_singleton, List.length_append, ih, hlen, Nat.succ_mul]

/-- Of blocks of one length k in a row, block m starts at m * k. -/
theorem take_drop_flatMap_range {α : Type} {f : Nat → List α} {k : Nat} (hlen : ∀ m, (f m).length = k) {n m : Nat} (hm : m < n) :
    (((List.range n).flatMap f).drop (m * k)).take k = f m := by
  induction n with
  | zero => exact absurd hm (Nat.not_lt_zero m)
  | succ n ih =>
    have hinit := length_flatMap_range hlen n
    rw [List.range_succ, List.flatMap_append, List.flatMap_singleton]
    obtain hlt | rfl := Nat.lt_succ_iff_lt_or_eq.1 hm
    · have hfits : m * k + k ≤ n * k := Nat.succ_mul m k ▸ Nat.mul_le_mul_right k (Nat.succ_le_of_lt hlt)
      rw [List.drop_append_of_le_length (by omega), List.take_append_of_le_length (by rw [List.length_drop]; omega), ih hlt]
    · rw [List.drop_left' hinit, List.take_of_length_le (Nat.le_of_eq (hlen m))]

@[simp] theorem Sett.statusWords_length (x : Sett) : x.statusWords.length = 8 := rfl

@[simp] theorem Sett.chanWords_length (x : Sett) (m : Nat) : (x.chanWords m).length = 16 := by
  unfold Sett.chanWords
  cases x.present m <;> rfl

theorem Sett.mirror_length (x : Sett) : x.mirror.length = 72 := by
  rw [Sett.mirror, List.length_append, x.statusWords_length, length_flatMap_range x.chanWords_length]

theorem Sett.mirror_take_status (x : Sett) : x.mirror.take 8 = x.statusWords :=
  List.take_left' x.statusWords_length

theorem Sett.mirror_block (x : Sett) {m : Nat} (hm : m < 4) : (x.mirror.drop (8 + 16 * m)).take 16 = x.chanWords m := by
  rw [← List.drop_drop, Sett.mirror, List.drop_left' x.statusWords_length, Nat.mul_comm]
  exact take_drop_flatMap_range x.chanWords_length hm

/-! ### What a Sett cycle sends (12 R432) -/

/-- A frame from the host domain, taken or discarded, touches neither Sett's supply nor its channels and parameters. -/
theorem Sett.takeFrame_keeps (x : Sett) (fr : Frame SettCmd) (intact : Bool) :
    (x.takeFrame fr intact).on = x.on ∧ (x.takeFrame fr intact).chans = x.chans ∧ (x.takeFrame fr intact).params = x.params := by
  unfold Sett.takeFrame
  split <;> exact ⟨rfl, rfl, rfl⟩

theorem State.sendSett_keeps_sett (s : State) (intact : Bool) :
    (s.sendSett intact).sett.on = s.sett.on ∧ (s.sendSett intact).sett.chans = s.sett.chans ∧
      (s.sendSett intact).sett.params = s.sett.params := by
  unfold State.sendSett
  split
  · exact ⟨rfl, rfl, rfl⟩
  · by_cases hon : s.sett.on = true
    · rw [if_pos hon]
      exact s.sett.takeFrame_keeps s.settHostFrame intact
    · rw [if_neg hon]
      exact ⟨rfl, rfl, rfl⟩

/-- Sett after it has counted one cycle of 1 ms. -/
def Sett.countMs (x : Sett) : Sett :=
  let sec := decide (x.ms + 1 ≥ 1000)
  { x with ms := if sec then 0 else x.ms + 1, ssec := if sec then x.ssec + 1 else x.ssec }

/-- The frame that a cycle sends holds the mirror of the Sett that has counted it, and the replies that wait. -/
theorem settCycleOp_frame {s : State} {intact : Bool} (hon : (s.sendSett intact).sett.on = true) :
    let y := (s.sendSett intact).sett.countMs
    (settCycleOp intact s).sett.frame =
      some { epoch := y.epoch, seq := y.txSeq, econ := false, msgs := [(y.mirror, y.replies)] } := by
  simp only [settCycleOp, hon]
  rfl

/-- Settles O50: the mirror is the 8 status words and four blocks of 16, class 0xD reads the words that the host domain
holds, and the frame of a cycle carries the mirror of Sett with the channels and parameters it had. -/
theorem settMirror : Obligations.SettMirror := by
  intro s
  refine ⟨⟨s.sett.mirror_length, s.sett.mirror_take_status, fun m hm => s.sett.mirror_block hm⟩, fun i => rfl, fun intact hon => ?_⟩
  obtain ⟨hsent, hchans, hparams⟩ := s.sendSett_keeps_sett intact
  exact ⟨_, rfl, _, (s.sendSett intact).sett.countMs, settCycleOp_frame (hsent.trans hon), rfl, hchans, hparams⟩

end Sys2Proof.Machine
